-- ==== Sys2Proof/Word.lean ====
section
/-! DEFINITION. The word types of the CH-48 and the names of its cores, fibres and outside verdicts
(00 R2, R5; 10 R268; 12 R298). Nothing here computes beyond the plainest arithmetic. -/

namespace Sys2Proof

/-- A 64-bit general word. -/
abbrev Word := BitVec 64
/-- A byte of memory. -/
abbrev Byte := BitVec 8

/-- A core of the package (R5, R21): die 0 to 5 with a tile-in-die number and kind 0 to 2, or die 6 with
tile 0 (root) or 1 (management) and kind 3. -/
structure CoreId where
  die : Nat
  tile : Nat
  kind : Nat
  deriving DecidableEq, Repr, Inhabited

/-- A run-queue slot of a core: the place of one fibre (R5, R67). -/
structure FibreRef where
  core : CoreId
  slot : Nat
  deriving DecidableEq, Repr, Inhabited

/-- Where an uncorrectable error arises (the rows of R268). -/
inductive ErrorPlace where
  /-- a byte of a store: met later by whatever reads or partly writes it -/
  | memory (addr : Nat)
  /-- the registers of one fibre -/
  | fibreRegs (f : FibreRef)
  /-- a vector register file's register of a core, by key: v n, 32 + a n, 40 + m n -/
  | vectorRegs (c : CoreId) (reg : Nat)
  /-- a row of an accumulator slot -/
  | accumulator (gang slot row : Nat)
  /-- a slot-table entry of a router; of the I/O die as tile 1,536, where the table is the bridge-row port 0 to 95 -/
  | slotTable (tile table slot : Nat)
  /-- an entry of a gateway's translation cache -/
  | gatewayCache (gw index : Nat)
  deriving DecidableEq, Repr, Inhabited

/-- What the root's check of a die's SPDM response found (R299, R302). The contents that the other
standards govern are the outside party's; the finding comes with the response. -/
inductive AttestVerdict where
  /-- the check of the current step passes -/
  | pass
  /-- ERROR Busy (R303) -/
  | busy
  /-- the check fails with this REASON code of R298 -/
  | fail (reason : Nat)
  deriving DecidableEq, Repr, Inhabited

/-- The root core (R5, R21). -/
def CoreId.root : CoreId := ⟨6, 0, 3⟩
/-- The management core (R21). -/
def CoreId.mgmt : CoreId := ⟨6, 1, 3⟩

end Sys2Proof
end

