-- ==== Sys2Proof/Syntax.lean ====
section
/-! DEFINITION. The whole opcode table: one constructor for each of its 298 rows. The first 149 are the
instruction words, with the row's own fields in the row's order; the other 149 are the package's events,
which have no word and name the agent or object they act on (spec file 95); last stand those that only the
outside causes and those that name nothing. -/

namespace Sys2Proof

/-- Every operation and event of spec/opcode_table.json. -/
inductive Instr where
  /-- R388: Adds two g registers modulo 2^64 into gd. -/
  | add (d a b : BitVec 3)
  /-- R452: Subtracts gb from ga modulo 2^64 into gd. -/
  | sub (d a b : BitVec 3)
  /-- R388: Bitwise AND of ga and gb into gd. -/
  | and (d a b : BitVec 3)
  /-- R416: Bitwise OR of ga and gb into gd. -/
  | or (d a b : BitVec 3)
  /-- R501: Bitwise XOR of ga and gb into gd. -/
  | xor (d a b : BitVec 3)
  /-- R452: Shifts ga left by gb[5:0] into gd. -/
  | shl (d a b : BitVec 3)
  /-- R452: Shifts ga right logically by gb[5:0] into gd. -/
  | shr (d a b : BitVec 3)
  /-- R452: Shifts ga right arithmetically by gb[5:0] into gd. -/
  | sar (d a b : BitVec 3)
  /-- R452: Sets gd to 1 when ga is less than gb as signed values. -/
  | slt (d a b : BitVec 3)
  /-- R452: Sets gd to 1 when ga is less than gb as unsigned values. -/
  | sltu (d a b : BitVec 3)
  /-- R416: Writes the smaller of ga and gb, signed or unsigned, to gd. -/
  | min (d a b : BitVec 3) (u : BitVec 1)
  /-- R416: Writes the larger of ga and gb, signed or unsigned, to gd. -/
  | max (d a b : BitVec 3) (u : BitVec 1)
  /-- R416: Writes the low 64 bits of ga times gb to gd. -/
  | mul (d a b : BitVec 3)
  /-- R417: Writes the high 64 bits of the exact 128-bit product to gd. -/
  | mulh (d a b : BitVec 3) (u : BitVec 1)
  /-- R394: Divides ga by gb, signed or unsigned, with defined results for zero and overflow. -/
  | div (d a b : BitVec 3) (u : BitVec 1)
  /-- R445: Writes the remainder of ga by gb, signed or unsigned. -/
  | rem (d a b : BitVec 3) (u : BitVec 1)
  /-- R392: Counts leading zeros in the low w bits of ga. -/
  | clz (d a : BitVec 3) (w : BitVec 2)
  /-- R392: Finds one plus the index of the lowest set bit in the low w bits of ga. -/
  | ffs (d a : BitVec 3) (w : BitVec 2)
  /-- R416: Counts the set bits in the low w bits of ga. -/
  | popc (d a : BitVec 3) (w : BitVec 2)
  /-- R452: Sign-extends the low w bits of ga into gd. -/
  | sext (d a : BitVec 3) (w : BitVec 2)
  /-- R389: Adds a sign-extended 20-bit immediate to ga. -/
  | addi (d a : BitVec 3) (i : BitVec 20)
  /-- R389: ANDs ga with a sign-extended 20-bit immediate. -/
  | andi (d a : BitVec 3) (i : BitVec 20)
  /-- R436: ORs ga with a sign-extended 20-bit immediate. -/
  | ori (d a : BitVec 3) (i : BitVec 20)
  /-- R502: XORs ga with a sign-extended 20-bit immediate. -/
  | xori (d a : BitVec 3) (i : BitVec 20)
  /-- R466: Sets gd to 1 when ga is less than the signed immediate. -/
  | slti (d a : BitVec 3) (i : BitVec 20)
  /-- R415: Loads the sign-extended immediate shifted left by 12 into gd. -/
  | lui (d : BitVec 3) (i : BitVec 20)
  /-- R453: Shifts ga left by an immediate amount. -/
  | shli (d a : BitVec 3) (n : BitVec 6)
  /-- R453: Shifts ga right logically by an immediate amount. -/
  | shri (d a : BitVec 3) (n : BitVec 6)
  /-- R453: Shifts ga right arithmetically by an immediate amount. -/
  | sari (d a : BitVec 3) (n : BitVec 6)
  /-- R411: Loads 1 to 8 bytes through a capability into gd, checking, parking or walking as needed. -/
  | ld (d : BitVec 3) (k : BitVec 2) (x : BitVec 1) (g s : BitVec 3) (o : BitVec 14)
  /-- R471: Stores 1 to 8 bytes or a nibble through a capability, performed locally or posted. -/
  | st (d : BitVec 3) (k : BitVec 2) (x : BitVec 1) (g s : BitVec 3) (o : BitVec 14)
  /-- R414: Loads a 128-bit capability and its tag single-copy atomically. -/
  | ldk (c k : BitVec 2) (x : BitVec 1) (g : BitVec 3) (o : BitVec 14)
  /-- R473: Stores a capability and its tag as one unit, with the G and space rules. -/
  | stk (c k : BitVec 2) (x : BitVec 1) (g : BitVec 3) (o : BitVec 14)
  /-- R385: Performs a returning atomic read-modify-write at the home and returns the old value. -/
  | amo (d : BitVec 3) (k : BitVec 2) (a : BitVec 3) (p : BitVec 4) (w : BitVec 2) (o : BitVec 8)
  /-- R385: Performs a non-returning atomic, posted and mergeable on ROUTER pages. -/
  | amoRed (k : BitVec 2) (a : BitVec 3) (p : BitVec 4) (w : BitVec 2) (o : BitVec 8)
  /-- R385: Compares and swaps a word at the home, returning the old value. -/
  | acas (d : BitVec 3) (k : BitVec 2) (a b : BitVec 3) (w : BitVec 2) (o : BitVec 8)
  /-- R390: Branches relative when the condition on ga and gb holds. -/
  | bcc (a b c : BitVec 3) (o : BitVec 17)
  /-- R399: Writes the return address to gd and jumps relative. -/
  | jal (d : BitVec 3) (o : BitVec 23)
  /-- R400: Writes the return address and jumps to the address in ga. -/
  | jalr (d a : BitVec 3)
  /-- R400: Enters a sealed-entry capability and leaves a sealed return capability. -/
  | jalrK (d : BitVec 3) (n : BitVec 2)
  /-- R403: Derives capability bounds from the cursor and a length. -/
  | kbnd (a : BitVec 3) (s d : BitVec 2)
  /-- R407: Restricts permissions, or at Root sets permissions, seal and meter. -/
  | kprm (a : BitVec 3) (s d : BitVec 2)
  /-- R402: Adds to a capability cursor, clearing the tag if bounds change. -/
  | kadd (a : BitVec 3) (s d : BitVec 2)
  /-- R405: Reads a selected capability field into gd. -/
  | kget (d : BitVec 3) (e : BitVec 4) (s : BitVec 2)
  /-- R406: Copies a capability with its tag. -/
  | kmov (s d : BitVec 2)
  /-- R408: Writes the tag of a capability register to gd. -/
  | ktag (d : BitVec 3) (s : BitVec 2)
  /-- R404: Clears the tag of a capability register. -/
  | kclr (d : BitVec 2)
  /-- R397: Creates a child fibre on the executing core. -/
  | fspawn (d a b : BitVec 3)
  /-- R395: Parks the fibre until its accesses, moves and lease are settled, then frees its slot. -/
  | fexit
  /-- R503: Makes the fibre ineligible for the next cycle only. -/
  | yield
  /-- R396: Writes the executing fibre's id to gd. -/
  | fid (d : BitVec 3)
  /-- R108: Submits a task record from memory to a task unit, as a release, without argument. -/
  | taskq (d a : BitVec 3) (k : BitVec 2)
  /-- R108: Submits a task record with an argument capability kc. -/
  | taskqKc (d a : BitVec 3) (c k : BitVec 2)
  /-- R109: Waits for a named task to complete and returns its status. -/
  | twait (d a : BitVec 3)
  /-- R109: Queries a task's state without waiting for completion. -/
  | twaitPoll (d a : BitVec 3)
  /-- R247: Records an arrival on a named barrier and returns the phase token. -/
  | bara (d : BitVec 3) (n : BitVec 7)
  /-- R248: Waits for a barrier phase to complete. -/
  | barw (d a : BitVec 3) (n : BitVec 7)
  /-- R252: Takes one unit of a tile semaphore, parking while it is zero. -/
  | semp (d : BitVec 3) (n : BitVec 6)
  /-- R252: Tries to take a semaphore unit without parking. -/
  | sempTry (d : BitVec 3) (n : BitVec 6)
  /-- R252: Increments a tile semaphore. -/
  | semv (n : BitVec 6)
  /-- R229: Parks until earlier posted and vector accesses in the scope are performed. -/
  | fenceRel (a : BitVec 3)
  /-- R229: Parks until every earlier store, vector write and tile move of the fibre is done. -/
  | fenceX
  /-- R230: Waits for writes, then discards the fetch buffer. -/
  | ifence
  /-- R461: Sends a request message with payload from g0-g5, reserving a reply entry. -/
  | send (a : BitVec 3) (r : BitVec 1)
  /-- R461: Sends a request message with a 48-byte payload read from memory. -/
  | sendMem (a b : BitVec 3) (k : BitVec 2) (r : BitVec 1)
  /-- R447: Sends the reply of a message-created fibre with payload from g0-g5. -/
  | reply (a : BitVec 3)
  /-- R447: Sends a reply with payload read from memory. -/
  | replyMem (a b : BitVec 3) (k : BitVec 2)
  /-- R461: Sends a message without reply reservation, payload from g0-g5. -/
  | sendc (a : BitVec 3)
  /-- R461: Sends a message without reply reservation, payload from memory. -/
  | sendcMem (a b : BitVec 3) (k : BitVec 2)
  /-- R49: Requests a circuit from the Intercalator and parks for the result. -/
  | copen (d a b : BitVec 3) (c : BitVec 2)
  /-- R50: Requests teardown of a circuit and parks for the result. -/
  | cshut (d a : BitVec 3)
  /-- R51: Requests a change of a circuit's slot count. -/
  | crsz (d a b : BitVec 3)
  /-- R51: Arms the next burst of a reduce or all-reduce circuit. -/
  | crszArm (d a b : BitVec 3)
  /-- R52: Queries a circuit's state from the Intercalator. -/
  | cqry (d a : BitVec 3)
  /-- R457: Binds a stream register to a circuit for injection or receipt. -/
  | sbind (a b s : BitVec 3)
  /-- R463: Releases a stream register binding and discards its queue. -/
  | sfree (s : BitVec 3)
  /-- R467: Takes the next word from a receive stream register, parking while empty. -/
  | spop (a s : BitVec 3)
  /-- R468: Writes a word into an inject stream register, optionally as a release. -/
  | spush (a : BitVec 3) (r : BitVec 1) (s : BitVec 3)
  /-- R458: Returns a stream register's status and clears MISS. -/
  | scnt (a s : BitVec 3)
  /-- R476: Issues a BYTE-form tile move that increments a semaphore on completion. -/
  | tmov (s d : BitVec 2) (b : BitVec 3) (g e : BitVec 6)
  /-- R476: Issues a tile move of whole square-scaled blocks. -/
  | tmovSq (s d : BitVec 2) (b : BitVec 3) (g e : BitVec 6)
  /-- R476: Issues a tile move that copies and transposes scaled blocks. -/
  | tldt (s d : BitVec 2) (b : BitVec 3) (g e : BitVec 6)
  /-- R372: Reads a system register into gd. -/
  | srd (d : BitVec 3) (r : BitVec 12)
  /-- R372: Writes ga to a system register, with that register's side effects. -/
  | swr (a : BitVec 3) (r : BitVec 12)
  /-- R478: Raises SWTRAP with a selector. -/
  | trap (s : BitVec 12)
  /-- R449: Returns from a trap handler to EPC at the previous privilege. -/
  | rft
  /-- R500: Waits until a selected event kind sets the fibre's event latch. -/
  | wfe (d : BitVec 3) (s : BitVec 12)
  /-- R391: Halts an armed core or raises DEBUG at S. -/
  | brk (s : BitVec 12)
  /-- R474: Raises SVC one privilege level above the fibre. -/
  | svc (s : BitVec 12)
  /-- R464: Computes SHA-256 as digest, init, update or final on the root core. -/
  | sha (a b : BitVec 3) (s k m : BitVec 2)
  /-- R437: Signs a hash with the package identity key using RSASSA-PSS. -/
  | pksign (a b : BitVec 3) (s k : BitVec 2)
  /-- R438: Verifies an RSASSA-PSS signature against a modulus. -/
  | pkver (a b : BitVec 3) (s : BitVec 2)
  /-- R450: Draws 64 random bits from the DRBG, or reports entropy failure. -/
  | rng (a b : BitVec 3)
  /-- R420: Extends a measurement register with a 32-byte value. -/
  | mext (b : BitVec 3) (s : BitVec 2) (n : BitVec 4)
  /-- R433: Sends a 768-byte request block to the root core and parks for the result. -/
  | mtrq (a b : BitVec 3) (s : BitVec 2)
  /-- R483: Adds integer vector lanes with wraparound. -/
  | vadd (d a b : BitVec 5) (t : BitVec 3) (m : BitVec 4)
  /-- R483: Subtracts integer vector lanes with wraparound. -/
  | vsub (d a b : BitVec 5) (t : BitVec 3) (m : BitVec 4)
  /-- R483: Multiplies integer vector lanes keeping the low bits. -/
  | vmul (d a b : BitVec 5) (t : BitVec 3) (m : BitVec 4)
  /-- R483: Takes the smaller integer lane, signed or unsigned. -/
  | vmin (d a b : BitVec 5) (t : BitVec 3) (m : BitVec 4)
  /-- R483: Takes the larger integer lane, signed or unsigned. -/
  | vmax (d a b : BitVec 5) (t : BitVec 3) (m : BitVec 4)
  /-- R483: Bitwise AND of vector lanes. -/
  | vand (d a b : BitVec 5) (t : BitVec 3) (m : BitVec 4)
  /-- R483: Bitwise OR of vector lanes. -/
  | vor (d a b : BitVec 5) (t : BitVec 3) (m : BitVec 4)
  /-- R483: Bitwise XOR of vector lanes. -/
  | vxor (d a b : BitVec 5) (t : BitVec 3) (m : BitVec 4)
  /-- R483: Shifts integer lanes left, right or right arithmetically. -/
  | vsh (d a b : BitVec 5) (t : BitVec 3) (m : BitVec 4)
  /-- R483: Counts leading zeros in each integer lane. -/
  | vclz (d a : BitVec 5) (t : BitVec 3) (m : BitVec 4)
  /-- R483: Finds the lowest set bit in each integer lane. -/
  | vffs (d a : BitVec 5) (t : BitVec 3) (m : BitVec 4)
  /-- R483: Counts set bits in each integer lane. -/
  | vpopc (d a : BitVec 5) (t : BitVec 3) (m : BitVec 4)
  /-- R489: Adds floating lanes with one rounding. -/
  | vfadd (d a b : BitVec 5) (t : BitVec 3) (m : BitVec 4)
  /-- R489: Subtracts floating lanes with one rounding. -/
  | vfsub (d a b : BitVec 5) (t : BitVec 3) (m : BitVec 4)
  /-- R489: Multiplies floating lanes with one rounding. -/
  | vfmul (d a b : BitVec 5) (t : BitVec 3) (m : BitVec 4)
  /-- R489: Fused multiply-add of floating lanes with one rounding. -/
  | vfma (d a b : BitVec 5) (t : BitVec 3) (m : BitVec 4)
  /-- R489: Takes the smaller floating lane with canonical NaN rules. -/
  | vfmin (d a b : BitVec 5) (t : BitVec 3) (m : BitVec 4)
  /-- R489: Takes the larger floating lane with canonical NaN rules. -/
  | vfmax (d a b : BitVec 5) (t : BitVec 3) (m : BitVec 4)
  /-- R487: Computes 2^x on FP32 lanes. -/
  | vexp2 (d a : BitVec 5) (t : BitVec 3) (m : BitVec 4)
  /-- R487: Computes log2 on FP32 lanes. -/
  | vlog2 (d a : BitVec 5) (t : BitVec 3) (m : BitVec 4)
  /-- R487: Computes the reciprocal on FP32 lanes. -/
  | vrcp (d a : BitVec 5) (t : BitVec 3) (m : BitVec 4)
  /-- R487: Computes the reciprocal square root on FP32 lanes. -/
  | vrsq (d a : BitVec 5) (t : BitVec 3) (m : BitVec 4)
  /-- R487: Computes tanh on FP32 lanes. -/
  | vtanh (d a : BitVec 5) (t : BitVec 3) (m : BitVec 4)
  /-- R485: Compares lanes and writes the results to a mask register. -/
  | vcmp (d : BitVec 3) (a b : BitVec 5) (t : BitVec 3) (m : BitVec 4)
  /-- R498: Selects each lane from va or vb by a mask. -/
  | vsel (d a b : BitVec 5) (t n : BitVec 3)
  /-- R496: Permutes lanes of va by indices in vb. -/
  | vperm (d a b : BitVec 5) (t : BitVec 3) (m : BitVec 4)
  /-- R484: Broadcasts a g register into every active lane. -/
  | vbcst (d : BitVec 5) (a t : BitVec 3) (m : BitVec 4)
  /-- R486: Converts lanes between types, widening or narrowing. -/
  | vcvt (d a : BitVec 5) (p : BitVec 2) (s t : BitVec 3) (m : BitVec 4)
  /-- R488: Extracts a lane into a g register, parking until retirement. -/
  | vext (d : BitVec 3) (a : BitVec 5) (b t : BitVec 3) (m : BitVec 4)
  /-- R490: Inserts a g register value into one lane. -/
  | vins (d : BitVec 5) (a b t : BitVec 3) (m : BitVec 4)
  /-- R497: Reduces the lanes of a register in a fixed tree into lane 0. -/
  | vred (d a o : BitVec 5) (t : BitVec 3) (m : BitVec 4)
  /-- R492: Loads 128 bytes into a vector register. -/
  | vld (d : BitVec 5) (k : BitVec 2) (m : BitVec 4) (x : BitVec 1) (g : BitVec 3) (o : BitVec 9)
  /-- R492: Stores 128 bytes from a vector register. -/
  | vst (d : BitVec 5) (k : BitVec 2) (m : BitVec 4) (x : BitVec 1) (g : BitVec 3) (o : BitVec 9)
  /-- R492: Gathers lanes from addresses given by an index register. -/
  | vgth (d : BitVec 5) (k : BitVec 2) (m : BitVec 4) (v : BitVec 5) (w : BitVec 1)
  /-- R492: Scatters lanes to addresses given by an index register. -/
  | vsct (d : BitVec 5) (k : BitVec 2) (m : BitVec 4) (v : BitVec 5) (w : BitVec 1)
  /-- R494: Multiplies lanes and accumulates into a 64-bit accumulator. -/
  | vmac (d : BitVec 3) (a b : BitVec 5) (t : BitVec 3) (m : BitVec 4)
  /-- R482: Clears an accumulator register. -/
  | vaclr (d : BitVec 3)
  /-- R495: Narrows accumulator lanes into a vector register. -/
  | vnrw (d : BitVec 5) (a t : BitVec 3) (m : BitVec 4)
  /-- R424: Dispatches a gang operation setting the format context. -/
  | mfmt (a : BitVec 3)
  /-- R425: Dispatches a gang operation that forms the gang with a token. -/
  | mgang (a : BitVec 3)
  /-- R426: Dispatches a gang matrix multiply-accumulate into a slot. -/
  | mma (s : BitVec 4) (k l : BitVec 2) (a b : BitVec 3)
  /-- R426: Dispatches an MMA that also keeps B in the held-B register. -/
  | mmaHold (s : BitVec 4) (k l : BitVec 2) (a b : BitVec 3)
  /-- R426: Dispatches an MMA that takes B from the held-B register. -/
  | mmaHb (s : BitVec 4) (k : BitVec 2) (a b : BitVec 3)
  /-- R435: Dispatches a gang operation that zeroes and opens a slot. -/
  | mzero (s : BitVec 4) (b : BitVec 3)
  /-- R429: Reads one row of an accumulator slot into a vector register. -/
  | mrd (a : BitVec 3) (d : BitVec 5)
  /-- R429: Reads one row of a slot and then frees it. -/
  | mrdRel (a : BitVec 3) (d : BitVec 5)
  /-- R430: Frees an OPEN slot by its member. -/
  | mrel (s : BitVec 4)
  /-- R428: Reclaims an ORPHAN slot, discarding its values. -/
  | mrcl (s : BitVec 4)
  /-- R431: Waits for earlier gang operations on a slot and returns its status. -/
  | mstat (a d : BitVec 3)
  /-- R442: Encodes 1,024 FP32 values into a square-scaled block. -/
  | qenc (a b : BitVec 3) (s k : BitVec 2) (r : BitVec 3)
  /-- R441: Decodes a square-scaled block into FP32, BF16 or binary16. -/
  | qdec (a b : BitVec 3) (s k : BitVec 2) (x : BitVec 1) (r : BitVec 3)
  /-- R444: Writes the transpose of a scaled block. -/
  | qtrn (a b : BitVec 3) (s k : BitVec 2)
  /-- R443: Rescales a block by a power of two with ComposeSQ. -/
  | qscl (a b : BitVec 3) (s k : BitVec 2) (x : BitVec 1)
  /-- R67: A fibre's busy time ends and it becomes READY. -/
  | busyExpiry (f : FibreRef)
  /-- R72: A reply to a parked access arrives and resumes or traps the fibre. -/
  | accessReply (id : Nat)
  /-- R71: A home acknowledges a posted access and OUTS falls. -/
  | accessAck (id : Nat)
  /-- R221: An access arriving at its home is performed there in one cycle. -/
  | homeAccess (id : Nat)
  /-- R70: A fetch-buffer line arrives and the fibre resumes. -/
  | fetchRefill (f : FibreRef)
  /-- R77: A fibre parked in FEXIT has its waits end and its slot freed. -/
  | exitComplete (f : FibreRef)
  /-- R84: A vector lease release completes after retirement and passes to the next waiter. -/
  | leaseRelease (c : CoreId)
  /-- R78: A message offered to a core's receive queue is checked and accepted or NACKed. -/
  | messageArrival (id : Nat)
  /-- R81: A queued message starts its handler fibre when an entry and slot are free. -/
  | handlerStart (c : CoreId) (reply : Bool)
  /-- R80: A NACK arrives at a sender, releasing its reservation and setting SQSTAT.NACK. -/
  | nack (id : Nat)
  /-- R77: An empty reply arrives and releases the sender's reservation. -/
  | emptyReply (id : Nat)
  /-- R88: A walking fibre, its waits over, sends its walk packet. -/
  | walkDeparture (f : FibreRef)
  /-- R88: A walk packet reaches the home die, which installs the fibre in a walker slot. -/
  | walkPacket (id : Nat)
  /-- R88: The destination's acknowledgement frees the source slot. -/
  | walkAck (id : Nat)
  /-- R90: A refusal returns the fibre to its source slot with a WALK_FAIL trap. -/
  | walkFail (id code : Nat)
  /-- R90: No walker slot frees within 64 wheels and the packet is refused. -/
  | walkTimeout (id : Nat)
  /-- R306: An SPDM responder returns measurement blocks, signed when asked. -/
  | getMeasurements (r : Nat) (req : List (BitVec 8))
  /-- R37: An output port sends one residue flit by network preference and round robin. -/
  | residueSlot (node port : Nat)
  /-- R36: A reduce or all-reduce burst begins at Ws and injectors send. -/
  | burstStart (p cid : Nat)
  /-- R42: A router stages a configuration flit and forwards it in the next wheel. -/
  | configForward (x y : Nat)
  /-- R43: At the commit wheel staged records become current and the result is sent. -/
  | intercalation (seq : Nat)
  /-- R43: Records of action 2 are invalidated at slot 0 of Wc + 1 and bindings released. -/
  | deferredClear (seq : Nat)
  /-- R44: The Intercalator's result arrives and the parked fibre resumes. -/
  | circuitResult (f : FibreRef)
  /-- R56: At each 16-cycle period the operand network serves gangs' blocks. -/
  | operandPeriod (cluster : Nat)
  /-- R61: Every 64 wheels a one-step Sync is sent. -/
  | syncInterval (link : Nat)
  /-- R61: A Pdelay_Req is sent or received and answered. -/
  | pdelayReq (link : Nat) (received : Bool)
  /-- R100: A task unit checks a record, accepts it with an ORD or rejects it. -/
  | taskRecord (id : Nat)
  /-- R102: The task unit selects and places a startable task that fits. -/
  | taskPlace (die : Nat)
  /-- R102: A waiting task rises one priority level every 64 wheels. -/
  | priorityAging (die : Nat)
  /-- R75: The dispatch flit reaches each placed tile and creates its fibres. -/
  | taskDispatch (die ix : Nat)
  /-- R110: A task's last fibre exits and the task releases ranges and cores. -/
  | taskCompletion (die ix : Nat)
  /-- R117: A completion entry is written to the host queue when it can take it. -/
  | completionPost (p : Nat)
  /-- R117: A deferred MSI-X message is sent at slot 0 of the next wheel. -/
  | msixDeferred (vf vector : Nat)
  /-- R109: A task unit answers a TWAIT query now or when the task completes. -/
  | twaitQuery (id : Nat)
  /-- R127: A write to TKILL removes a queued or running task. -/
  | tkill (die p : Nat) (v : BitVec 64)
  /-- R120: A host message enters or is refused by the device ring, with a MAILBOX report. -/
  | mailboxEntry (vf : Nat)
  /-- R120: A supervisor write frees host-to-device ring entries. -/
  | mbihead (p : Nat) (v : BitVec 64)
  /-- R120: A supervisor write sends a device-to-host message or is refused. -/
  | mbogo (p : Nat) (v : BitVec 64)
  /-- R265: A write to REPHEAD frees report-ring entries. -/
  | rephead (die p : Nat) (v : BitVec 64)
  /-- R265: Any write clears the REPLOST count. -/
  | replost (die p : Nat)
  /-- R128: A write to TROOTA or TROOTB is checked and installs a translation root. -/
  | trootWrite (die off : Nat) (v : BitVec 64)
  /-- R128: INVCMD OP 1 invalidates one page's translation. -/
  | invalidatePage (die : Nat) (v : BitVec 64)
  /-- R128: INVCMD OP 2 invalidates every translation of a partition and space. -/
  | invalidateAll (die : Nat) (v : BitVec 64)
  /-- R158: DONE returns to 1 once no access through removed entries remains. -/
  | invalidationDone (die : Nat)
  /-- R157: A gateway walk completes, filling the cache or faulting every waiting access. -/
  | pageWalk (gw id : Nat)
  /-- R163: A gateway serves units in each slot by budget and round robin. -/
  | gatewaySlot (gw : Nat)
  /-- R163: At slot 0 each partition's spent count is reset. -/
  | gatewayWheelReset (gw : Nat)
  /-- R129: A Root write to MWBASE is checked and activates a metered window. -/
  | mwbaseWrite (die off : Nat) (v : BitVec 64)
  /-- R131: A write to PWRLIM is range-checked and applies from the next period. -/
  | pwrlimWrite (v : BitVec 64)
  /-- R131: Writing RUN = 1 releases the management core, starting its boot fibre. -/
  | mgrun (v : BitVec 64)
  /-- R151: A tile move's last write is acknowledged and its semaphore increments. -/
  | moveCompletion (id : Nat)
  /-- R219: A dispatched vector, shape or matrix-core instruction starts on its unit. -/
  | dispatchStart (c : CoreId)
  /-- R172: A dispatched instruction retires and ORs its flags into FPST. -/
  | dispatchRetire (c : CoreId)
  /-- R205: The four gang-queue heads join, start an operation or fault with JOIN. -/
  | gangJoin (gang : Nat)
  /-- R214: An MMA's result is written to its slot and flags ORed into members' FPST. -/
  | mmaSlotWrite (gang : Nat)
  /-- R263: A pending VEC_FAULT, MAT_FAULT or STOP is delivered at the next issue opportunity. -/
  | impreciseDelivery (f : FibreRef)
  /-- R245: A barrier phase completes D cycles after the last arrival. -/
  | barrierComplete (p n : Nat) (scope : BitVec 64) (kinds : BitVec 3)
  /-- R249: A reconfiguration tears a barrier D cycles after the write. -/
  | barrierTear (p n : Nat) (scope : BitVec 64) (kinds : BitVec 3)
  /-- R271: GSCMD STOP schedules a partition stop at wheel W or fails. -/
  | gangStop (v : BitVec 64)
  /-- R271: GSCMD RESUME starts restoring a stopped partition. -/
  | gangResume (v : BitVec 64)
  /-- R272: At slot 0 of W the partition stops and its contexts are saved. -/
  | stopSequence (p : Nat)
  /-- R271: Every context is written and the partition becomes STOPPED. -/
  | saveComplete (p : Nat)
  /-- R279: An exhausted reserve makes the partition LOST and wipes it. -/
  | partitionLost (p : Nat)
  /-- R271: Restore finishes and the resume wheel W'' is fixed. -/
  | restoreComplete (p : Nat)
  /-- R275: At slot 0 of W'' the partition's state is restored and it runs. -/
  | resumeSequence (p : Nat)
  /-- R280: A compute die is reset and surviving agents see its effects. -/
  | dieReset (d : Nat)
  /-- R289: A deferred entry takes effect at the partition's kernel boundary. -/
  | deferredEntry (p die : Nat)
  /-- R292: A function-level reset completes and owned meters close. -/
  | flrComplete (p : Nat)
  /-- R298: TRCMD RESET_DIE resets a compute die. -/
  | resetDie (d : Nat)
  /-- R316: TRCMD ROLL schedules a key rollover of every link of a die. -/
  | roll (d : Nat)
  /-- R303: A die response does not arrive in time and the attempt fails. -/
  | attestationTimeout (d : Nat)
  /-- R299: The root retries a failed attestation from the next wheel. -/
  | attestationRetry (d : Nat)
  /-- R304: A die stages a link key for a rollover at Ws. -/
  | setLinkKey (d link epoch ws : Nat) (secret : BitVec 256)
  /-- R304: A die is told to carry data from slot 0 of Wo. -/
  | linkOpen (d wo : Nat)
  /-- R304: A die closes a link end and erases its keys. -/
  | closeLink (d link : Nat)
  /-- R299: At slot 0 of Wo a keyed die becomes OPEN. -/
  | dieOpen (d : Nat)
  /-- R316: A link's epoch reaches its automatic rollover wheel. -/
  | autoRollover (link : Nat)
  /-- R317: At Ws senders switch to the new key and receivers accept both. -/
  | keySwitch (link : Nat)
  /-- R317: The receiver erases the old key after the switch wheel. -/
  | keyErase (link : Nat)
  /-- R312: The root checks and seals a kernel image into code windows and the kernel table. -/
  | seal (id : Nat)
  /-- R314: The root deactivates and wipes a kernel's code windows. -/
  | unseal (id : Nat)
  /-- R323: A meter opens a new chain for a partition. -/
  | meterOpen (id : Nat)
  /-- R326: The root covers a region with metered windows and writes a metered capability. -/
  | meterGrant (id : Nat)
  /-- R323: The root checkpoints and signs a meter statement. -/
  | meterSign (id : Nat)
  /-- R325: The root closes a meter at its snapshot wheel with a signed statement. -/
  | meterClose (id : Nat)
  /-- R334: The root closes a meter naming a destination package. -/
  | meterHandover (id : Nat)
  /-- R326: The root wipes a closed meter's windows and clears its owner. -/
  | meterRelease (id : Nat)
  /-- R325: The root copies a meter's last statement. -/
  | meterQuery (id : Nat)
  /-- R332: The sums before Wn arrive and the root checkpoints and signs. -/
  | meterSnapshot (id : Nat)
  /-- R329: A die delivers its per-wheel meter sums to the root. -/
  | meterSumDelivery (die wheel : Nat)
  /-- R346: H seizes or returns guest counter banks of a tile. -/
  | seizeWrite (die t : Nat) (v : BitVec 64)
  /-- R348: A write claims or frees a cluster trace unit. -/
  | trclaimWrite (die c p : Nat) (hview : Bool) (v : BitVec 64)
  /-- R348: An H claim takes a guest-owned trace unit at the next wheel boundary. -/
  | traceTakeover (die c : Nat)
  /-- R356: A lifecycle token is verified and the lifecycle state advanced. -/
  | lcreq (v : BitVec 64)
  /-- R359: A die's token balance crosses its reserve or zero and gates issue. -/
  | issueGate (d : Nat)
  /-- R126: A write to a register with no row of its own is performed at its block. -/
  | registerWrite (die block off p : Nat) (v : BitVec 64)
  /-- R58: A package link measures its delay and sets D, or stays ALIGN_LOST. -/
  | linkTraining (link : Nat) (delay : Option Nat)
  /-- R62: A Sync message is received, trimming the clock and entering or leaving ALIGN_LOST. -/
  | syncMessage (link : Nat) (offset : Int)
  /-- R61: A Pdelay_Resp is received and the link delay measured. -/
  | pdelayResp (link delay : Nat)
  /-- R61: An Announce message is received on a package link. -/
  | announce (link : Nat)
  /-- R114: A host write to TSUB 0x078 submits a 128-byte record. -/
  | hostSubmit (vf : Nat) (w : BitVec 64)
  /-- R115: A host write to CQBASE is checked and taken or rejected. -/
  | cqbaseWrite (vf : Nat) (v : BitVec 64)
  /-- R115: A host write to CQSIZE is checked and taken or rejected. -/
  | cqsizeWrite (vf : Nat) (v : BitVec 64)
  /-- R115: A host write to CQHEAD is checked and taken or rejected. -/
  | cqheadWrite (vf : Nat) (v : BitVec 64)
  /-- R116: Writing EN = 1 tests the queue registers and enables it. -/
  | cqEnable (vf : Nat)
  /-- R116: Writing EN = 0 disables the completion queue. -/
  | cqDisable (vf : Nat)
  /-- R119: A host write sends a mailbox message to the device ring. -/
  | mbtxgo (vf : Nat) (v : BitVec 64)
  /-- R119: A host write removes the oldest device-to-host message. -/
  | mbrxack (vf : Nat)
  /-- R268: An uncorrectable error is found and handled by where it lies. -/
  | uncorrectableError (place : ErrorPlace)
  /-- R268: A single-bit error is corrected and counted. -/
  | softError (die tile : Nat)
  /-- R292: A VF reset ends the partition's work and wipes it from the next wheel boundary. -/
  | functionLevelReset (p : Nat)
  /-- R299: A die's controller self-test ends, quarantining or rejecting it. -/
  | selftest (d : Nat) (pass : Bool)
  /-- R302: The root receives a die's SPDM response and checks it. -/
  | attestationResponse (d : Nat) (verdict : AttestVerdict)
  /-- R306: An SPDM responder answers GET_VERSION and resets its transcripts. -/
  | getVersion (r : Nat) (req : List (BitVec 8))
  /-- R306: An SPDM responder answers GET_CAPABILITIES. -/
  | getCapabilities (r : Nat) (req : List (BitVec 8))
  /-- R306: An SPDM responder answers NEGOTIATE_ALGORITHMS. -/
  | negotiateAlgorithms (r : Nat) (req : List (BitVec 8))
  /-- R306: An SPDM responder returns the slot-0 chain digest. -/
  | getDigests (r : Nat) (req : List (BitVec 8))
  /-- R306: An SPDM responder returns a portion of the certificate chain. -/
  | getCertificate (r : Nat) (req : List (BitVec 8))
  /-- R306: An SPDM responder returns a signed CHALLENGE_AUTH. -/
  | challenge (r : Nat) (req : List (BitVec 8))
  /-- R302: A die responder performs the SPDM key exchange with mutual authentication. -/
  | keyExchange (d : Nat) (req : List (BitVec 8))
  /-- R302: A die responder completes the secure session and moves to KEYING. -/
  | finish (d : Nat) (req : List (BitVec 8))
  /-- R318: A flit fails its tag and the link closes and the sender's die resets. -/
  | authenticationFailure (link dir : Nat)
  /-- R518: The DOE mailbox takes a host object, answers discovery or refuses it. -/
  | doeObject (dwords : List (BitVec 32))
  /-- R456: The host reads response dwords from the DOE mailbox, freeing room in the root core's s1 and resuming a SPUSH parked on a full s1. -/
  | doeHostRead (n : Nat)
  /-- R450: The physical entropy source fails a continuous health test, or recovers from a failure, switching RNG between returning gb = 1 and drawing. -/
  | entropyHealthTest (ok : Bool)
  /-- R131: A CXL far-memory port's link trains with its expander's HDM decoder committed, or is lost, changing CXSTAT PRESENT and UP and which far addresses lie in installed memory. -/
  | farPortLink (n : Nat) (up : Bool) (width mib : Nat)
  /-- R341: Debug command HALT triggers a halt at the target core. -/
  | dbgHalt (w : BitVec 64)
  /-- R341: Debug command RESUME lets a halted core issue again. -/
  | dbgResume (w : BitVec 64)
  /-- R341: Debug command STEP issues one instruction of the target fibre. -/
  | dbgStep (w : BitVec 64)
  /-- R341: Debug command that reads a register word into DBDATA. -/
  | readReg (w : BitVec 64)
  /-- R341: Debug command that writes DBDATA into a register word. -/
  | writeReg (w : BitVec 64)
  /-- R341: Debug command that loads 8 bytes through the target fibre. -/
  | readMem (w : BitVec 64)
  /-- R341: Debug command that stores 8 bytes through the target fibre. -/
  | writeMem (w : BitVec 64)
  /-- R341: Debug command that sets a cluster's armed mask and XO, XI. -/
  | arm (w : BitVec 64)
  /-- R341: Debug command that sets or disables a fetch breakpoint. -/
  | bkpt (w : BitVec 64)
  /-- R25: A router forwards circuit flits in each slot as its tables name. -/
  | circuitFlit
  /-- R41: The Intercalator sends configuration flits into the bridge channels in slot 0. -/
  | configurationFlit
  /-- R54: Slots of lost circuits are freed at the next wheel boundary. -/
  | lostSlotsFree
  /-- R286: A write submits a reconfiguration list, which is read and checked. -/
  | rcgo
  /-- R286: A checked list takes effect at slot 0 of Wa. -/
  | reconfigApply
  /-- R305: A held DOE object passes to s0 once there is room. -/
  | doeDeliver
  /-- R305: A DOE Abort discards unanswered requests and empties s0 and s1. -/
  | doeAbort
  /-- R331: Every 2^21 wheels the root writes a meter checkpoint to flash. -/
  | checkpoint
  /-- R339: A relayed trigger halts armed cores of XI clusters 67 cycles later. -/
  | crossHalt
  /-- R351: Power-on, host-link reset or STCMD COLD runs the start sequence with a full wipe. -/
  | coldStart
  /-- R354: STCMD WARM runs the start sequence preserving listed HBM ranges. -/
  | warmStart
  /-- R351: Power is lost, losing unsaved counts and counting a started start as failed. -/
  | powerLoss
  /-- R358: Every 20 wheels the power controller allots tokens to dies. -/
  | powerPeriod
  /-- R44: The Intercalator takes a circuit request, checks it and reserves slots or fails it. -/
  | intercalatorRequest
  /-- R398: Triggers a debug halt on an armed core, else does nothing. -/
  | halt
  deriving DecidableEq, Repr, Inhabited

end Sys2Proof
end

