-- ==== Sys2Proof/WellFormed.lean ====
section
/-! DEFINITION. Which instructions are well-formed: the operand values that the format tables and the entries
accept (16 R364 to R371; 17 to 20, the entry of each). An ill-formed word traps ILLEGAL at step 7 of R260.
An event is well-formed when the objects it names exist. -/

namespace Sys2Proof

/-- The core exists (R1, R5, R21). -/
def CoreId.valid (c : CoreId) : Bool :=
  decide ((c.die < 6 ∧ c.tile < 256 ∧ c.kind < 3) ∨ (c.die = 6 ∧ c.tile < 2 ∧ c.kind = 3))

/-- The run-queue slot exists (R5, R23). -/
def FibreRef.valid (f : FibreRef) : Bool := f.core.valid && decide (f.slot < 256)

/-- The link exists (R315): a die-edge link, a bridge channel's northern half or a package link by its number, a bridge
channel's southern half with 256 added to it. -/
def linkId (l : Nat) : Bool := decide (l < 124) || (decide (320 ≤ l) && decide (l < 368))

namespace Instr

/-- R364: with IX = 0 the index field is zero. -/
def ixOk (x : BitVec 1) (g : BitVec 3) : Bool := x == 1#1 || g == 0#3

/-- R384: an operation that exists, at a width it takes. -/
def amoOk (p : BitVec 4) (w : BitVec 2) : Bool :=
  p.toNat < 11 && w.toNat < 2 && (p != 9#4 || w == 0#2) && (p != 10#4 || w == 1#2)

/-- R366: the modifier field names a mask register. -/
def masked (m : BitVec 4) : Bool := m.getLsbD 3

/-- R366: masked, or no modifier. -/
def noMod (m : BitVec 4) : Bool := masked m || m == 0#4

/-- R366: masked, or the U modifier alone. -/
def uMod (m : BitVec 4) : Bool := masked m || m.toNat < 2

/-- R366, R168: masked, or a rounding mode. -/
def roundMod (m : BitVec 4) : Bool := masked m || m.toNat < 5

/-- R483: VSH takes a direction 0 to 2 in modifier [2:1]. -/
def shMod (m : BitVec 4) : Bool := masked m || (m.toNat % 2 == 0 && m.toNat < 6)

/-- R192: an integer lane type. -/
def isInt (t : BitVec 3) : Bool := t.toNat < 4

/-- R192: a floating lane type. -/
def isFloat (t : BitVec 3) : Bool := decide (4 ≤ t.toNat)

/-- R192: the width of a lane of the type, in bits. -/
def laneBits (t : BitVec 3) : Nat :=
  match t.toNat with
  | 0 => 8 | 1 => 16 | 2 => 32 | 3 => 64 | 4 => 16 | 5 => 16 | 6 => 32 | _ => 64

/-- R192: the number of lanes of the type. -/
def laneCount (t : BitVec 3) : Nat := 1024 / laneBits t

/-- R485: the types and modifiers of VCMP. -/
def cmpOk (t : BitVec 3) (m : BitVec 4) : Bool :=
  (t == 2#3 || t == 3#3 || ((t == 6#3 || t == 7#3) && (masked m || m.toNat % 2 == 0)))

/-- R486: source and target differ, no ratio of 8, the part within its limit, the modifier a rounding mode
when either side is floating. -/
def cvtOk (t s : BitVec 3) (p : BitVec 2) (m : BitVec 4) : Bool :=
  let n := laneCount s
  let k := laneCount t
  s != t && n != 8 * k && k != 8 * n && (if k < n then decide (p.toNat < n / k) else p == 0#2) &&
    (if isFloat t || isFloat s then roundMod m else noMod m)

/-- R497: the operations, types and modifiers of VRED. -/
def redOk (o : BitVec 5) (t : BitVec 3) (m : BitVec 4) : Bool :=
  if t == 6#3 then o.toNat < 3 && (if o == 0#5 then roundMod m else noMod m)
  else if t == 2#3 then o.toNat < 6 && (if o == 1#5 || o == 2#5 then uMod m else noMod m)
  else false

/-- R202, R495: the targets and modifiers of VNRW. -/
def nrwOk (t : BitVec 3) (m : BitVec 4) : Bool :=
  if t.toNat < 3 then m.toNat < 2 else (t == 4#3 || t == 5#3 || t == 6#3) && m.toNat < 5

/-- The encoding checks of R365 that the word alone decides; for an event, that what it names exists. -/
def wellFormed : Instr → Bool
  | .add _ _ _ => true
  | .sub _ _ _ => true
  | .and _ _ _ => true
  | .or _ _ _ => true
  | .xor _ _ _ => true
  | .shl _ _ _ => true
  | .shr _ _ _ => true
  | .sar _ _ _ => true
  | .slt _ _ _ => true
  | .sltu _ _ _ => true
  | .min _ _ _ _ => true
  | .max _ _ _ _ => true
  | .mul _ _ _ => true
  | .mulh _ _ _ _ => true
  | .div _ _ _ _ => true
  | .rem _ _ _ _ => true
  | .clz _ _ _ => true
  | .ffs _ _ _ => true
  | .popc _ _ _ => true
  | .sext _ _ _ => true
  | .addi _ _ _ => true
  | .andi _ _ _ => true
  | .ori _ _ _ => true
  | .xori _ _ _ => true
  | .slti _ _ _ => true
  | .lui _ _ => true
  | .shli _ _ _ => true
  | .shri _ _ _ => true
  | .sari _ _ _ => true
  | .ld _ _ x g s _ => s.toNat != 7 && ixOk x g
  | .st _ _ x g s _ => s.toNat < 6 && ixOk x g
  | .ldk _ _ x g _ => ixOk x g
  | .stk _ _ x g _ => ixOk x g
  | .amo _ _ _ p w _ => amoOk p w
  | .amoRed _ _ p w _ => amoOk p w
  | .acas _ _ _ _ w _ => w.toNat < 2
  | .bcc _ _ c _ => c.toNat < 6
  | .jal _ _ => true
  | .jalr _ _ => true
  | .jalrK _ _ => true
  | .kbnd _ _ _ => true
  | .kprm _ _ _ => true
  | .kadd _ _ _ => true
  | .kget _ e _ => e.toNat < 11
  | .kmov _ _ => true
  | .ktag _ _ => true
  | .kclr _ => true
  | .fspawn _ _ _ => true
  | .fexit => true
  | .yield => true
  | .fid _ => true
  | .taskq _ _ _ => true
  | .taskqKc _ _ _ _ => true
  | .twait _ _ => true
  | .twaitPoll _ _ => true
  | .bara _ n => n.toNat < 96
  | .barw _ _ n => n.toNat < 96
  | .semp _ _ => true
  | .sempTry _ _ => true
  | .semv _ => true
  | .fenceRel _ => true
  | .fenceX => true
  | .ifence => true
  | .send _ _ => true
  | .sendMem _ _ _ _ => true
  | .reply _ => true
  | .replyMem _ _ _ => true
  | .sendc _ => true
  | .sendcMem _ _ _ => true
  | .copen _ _ _ _ => true
  | .cshut _ _ => true
  | .crsz _ _ _ => true
  | .crszArm _ _ _ => true
  | .cqry _ _ => true
  | .sbind _ _ _ => true
  | .sfree _ => true
  | .spop _ _ => true
  | .spush _ _ _ => true
  | .scnt _ _ => true
  | .tmov _ _ _ _ _ => true
  | .tmovSq _ _ _ _ _ => true
  | .tldt _ _ _ _ _ => true
  | .srd _ _ => true
  | .swr _ _ => true
  | .trap _ => true
  | .rft => true
  | .wfe _ z => decide (z ≠ 0#12) && decide (z.toNat < 128)
  | .brk _ => true
  | .svc _ => true
  | .halt => true
  | .sha _ _ s _ m => m != 1#2 || s == 0#2
  | .pksign _ _ _ _ => true
  | .pkver _ _ _ => true
  | .rng _ _ => true
  | .mext _ _ _ => true
  | .mtrq _ _ _ => true
  | .vadd _ _ _ t m => isInt t && noMod m
  | .vsub _ _ _ t m => isInt t && noMod m
  | .vmul _ _ _ t m => isInt t && noMod m
  | .vmin _ _ _ t m => isInt t && uMod m
  | .vmax _ _ _ t m => isInt t && uMod m
  | .vand _ _ _ t m => isInt t && noMod m
  | .vor _ _ _ t m => isInt t && noMod m
  | .vxor _ _ _ t m => isInt t && noMod m
  | .vsh _ _ _ t m => isInt t && shMod m
  | .vclz _ _ t m => isInt t && noMod m
  | .vffs _ _ t m => isInt t && noMod m
  | .vpopc _ _ t m => isInt t && noMod m
  | .vfadd _ _ _ t m => isFloat t && roundMod m
  | .vfsub _ _ _ t m => isFloat t && roundMod m
  | .vfmul _ _ _ t m => isFloat t && roundMod m
  | .vfma _ _ _ t m => isFloat t && roundMod m
  | .vfmin _ _ _ t m => isFloat t && noMod m
  | .vfmax _ _ _ t m => isFloat t && noMod m
  | .vexp2 _ _ t m => t == 6#3 && noMod m
  | .vlog2 _ _ t m => t == 6#3 && noMod m
  | .vrcp _ _ t m => t == 6#3 && noMod m
  | .vrsq _ _ t m => t == 6#3 && noMod m
  | .vtanh _ _ t m => t == 6#3 && noMod m
  | .vcmp _ _ _ t m => cmpOk t m
  | .vsel _ _ _ _ _ => true
  | .vperm _ _ _ _ m => noMod m
  | .vbcst _ _ _ m => noMod m
  | .vcvt _ _ p s t m => cvtOk t s p m
  | .vext _ _ _ t m => !masked m && (if isFloat t then m == 0#4 else uMod m)
  | .vins _ _ _ _ m => m == 0#4
  | .vred _ _ o t m => redOk o t m
  | .vld _ _ m x g _ => noMod m && ixOk x g
  | .vst _ _ m x g _ => noMod m && ixOk x g
  | .vgth _ _ m _ _ => noMod m
  | .vsct _ _ m _ _ => noMod m
  | .vmac _ _ _ t m => (t == 6#3 && roundMod m) || (t == 2#3 && uMod m)
  | .vaclr _ => true
  | .vnrw _ _ t m => !masked m && nrwOk t m
  | .mfmt _ => true
  | .mgang _ => true
  | .mma _ _ _ _ _ => true
  | .mmaHold _ _ _ _ _ => true
  | .mmaHb _ _ _ _ => true
  | .mzero _ _ => true
  | .mrd _ _ => true
  | .mrdRel _ _ => true
  | .mrel _ => true
  | .mrcl _ => true
  | .mstat _ _ => true
  | .qenc _ _ _ _ r => r.toNat < 5
  | .qdec _ _ _ _ _ r => r.toNat < 5
  | .qtrn _ _ _ _ => true
  | .qscl _ _ _ _ _ => true
  | .busyExpiry f => f.valid
  | .accessReply _ => true
  | .accessAck _ => true
  | .homeAccess _ => true
  | .fetchRefill f => f.valid
  | .exitComplete f => f.valid
  | .leaseRelease c => c.valid
  | .messageArrival _ => true
  | .handlerStart c _ => c.valid
  | .nack _ => true
  | .emptyReply _ => true
  | .walkDeparture f => f.valid
  | .walkPacket _ => true
  | .walkAck _ => true
  | .walkFail _ _ => true
  | .walkTimeout _ => true
  | .circuitFlit => true
  | .residueSlot node port => decide (node ≤ 1536 ∧ port < 101)
  | .burstStart p _ => decide (p < 48)
  | .intercalatorRequest => true
  | .configurationFlit => true
  | .configForward x y => decide (x < 48 ∧ y < 32)
  | .intercalation _ => true
  | .deferredClear _ => true
  | .circuitResult f => f.valid
  | .lostSlotsFree => true
  | .operandPeriod cluster => decide (cluster < 96)
  | .linkTraining link _ => decide (link < 12)
  | .syncMessage link _ => decide (link < 12)
  | .syncInterval link => decide (link < 12)
  | .pdelayReq link _ => decide (link < 12)
  | .pdelayResp link _ => decide (link < 12)
  | .announce link => decide (link < 12)
  | .hostSubmit vf _ => decide (vf < 48)
  | .taskRecord _ => true
  | .taskPlace die => decide (die < 7)
  | .priorityAging die => decide (die < 7)
  | .taskDispatch die _ => decide (die < 7)
  | .taskCompletion die _ => decide (die < 7)
  | .completionPost p => decide (p < 48)
  | .msixDeferred vf _ => decide (vf < 48)
  | .twaitQuery _ => true
  | .tkill die p _ => decide (die < 7) && decide (p < 48)
  | .cqbaseWrite vf _ => decide (vf < 48)
  | .cqsizeWrite vf _ => decide (vf < 48)
  | .cqheadWrite vf _ => decide (vf < 48)
  | .cqEnable vf => decide (vf < 48)
  | .cqDisable vf => decide (vf < 48)
  | .mbtxgo vf _ => decide (vf < 48)
  | .mailboxEntry vf => decide (vf < 48)
  | .mbrxack vf => decide (vf < 48)
  | .mbihead p _ => decide (p < 48)
  | .mbogo p _ => decide (p < 48)
  | .rephead die p _ => decide (die < 7) && decide (p < 48)
  | .replost die p => decide (die < 7) && decide (p < 48)
  | .trootWrite die _ _ => decide (die < 7)
  | .invalidatePage die _ => decide (die < 7)
  | .invalidateAll die _ => decide (die < 7)
  | .invalidationDone die => decide (die < 7)
  | .pageWalk gw _ => decide (gw < 7)
  | .gatewaySlot gw => decide (gw < 7)
  | .gatewayWheelReset gw => decide (gw < 7)
  | .mwbaseWrite die _ _ => decide (die < 7)
  | .pwrlimWrite _ => true
  | .mgrun _ => true
  | .moveCompletion _ => true
  | .dispatchStart c => c.valid
  | .dispatchRetire c => c.valid
  | .gangJoin gang => decide (gang < 384)
  | .mmaSlotWrite gang => decide (gang < 384)
  | .impreciseDelivery f => f.valid
  | .barrierComplete p n _ _ => decide (p < 48 ∧ n < 96)
  | .barrierTear p n _ _ => decide (p < 48 ∧ n < 96)
  | .gangStop _ => true
  | .gangResume _ => true
  | .stopSequence p => decide (p < 48)
  | .saveComplete p => decide (p < 48)
  | .partitionLost p => decide (p < 48)
  | .restoreComplete p => decide (p < 48)
  | .resumeSequence p => decide (p < 48)
  | .dieReset d => decide (d < 6)
  | .uncorrectableError _ => true
  | .softError die _ => decide (die < 7)
  | .rcgo => true
  | .reconfigApply => true
  | .deferredEntry p die => decide (p < 48) && decide (die < 7)
  | .functionLevelReset p => decide (p < 48)
  | .flrComplete p => decide (p < 48)
  | .resetDie d => decide (d < 6)
  | .roll d => decide (d < 6)
  | .selftest d _ => decide (d < 6)
  | .attestationResponse d _ => decide (d < 6)
  | .attestationTimeout d => decide (d < 6)
  | .attestationRetry d => decide (d < 6)
  | .getVersion r _ => decide (r < 7)
  | .getCapabilities r _ => decide (r < 7)
  | .negotiateAlgorithms r _ => decide (r < 7)
  | .getDigests r _ => decide (r < 7)
  | .getCertificate r _ => decide (r < 7)
  | .challenge r _ => decide (r < 7)
  | .getMeasurements r _ => decide (r < 7)
  | .keyExchange d _ => decide (d < 6)
  | .finish d _ => decide (d < 6)
  | .setLinkKey d link _ _ _ => decide (d < 6) && linkId link
  | .linkOpen d _ => decide (d < 6)
  | .closeLink d link => decide (d < 6) && linkId link
  | .dieOpen d => decide (d < 6)
  | .autoRollover link => linkId link
  | .keySwitch link => linkId link
  | .keyErase link => linkId link
  | .authenticationFailure link dir => linkId link && decide (dir < 2)
  | .doeObject _ => true
  | .doeDeliver => true
  | .doeAbort => true
  | .seal _ => true
  | .unseal _ => true
  | .meterOpen _ => true
  | .meterGrant _ => true
  | .meterSign _ => true
  | .meterClose _ => true
  | .meterHandover _ => true
  | .meterRelease _ => true
  | .meterQuery _ => true
  | .meterSnapshot _ => true
  | .meterSumDelivery die _ => decide (die < 7)
  | .checkpoint => true
  | .dbgHalt _ => true
  | .dbgResume _ => true
  | .dbgStep _ => true
  | .readReg _ => true
  | .writeReg _ => true
  | .readMem _ => true
  | .writeMem _ => true
  | .arm _ => true
  | .bkpt _ => true
  | .crossHalt => true
  | .seizeWrite die t _ => decide (die < 6 ∧ t < 256)
  | .trclaimWrite die c p _ _ => decide (die < 6 ∧ c < 16 ∧ p < 48)
  | .traceTakeover die c => decide (die < 6 ∧ c < 16)
  | .coldStart => true
  | .warmStart => true
  | .powerLoss => true
  | .lcreq _ => true
  | .powerPeriod => true
  | .issueGate d => decide (d < 6)
  | .registerWrite die _ _ p _ => decide (die < 7) && decide (p < 48)
  | .doeHostRead _ => true
  | .entropyHealthTest _ => true
  | .farPortLink n _ _ _ => decide (n < 8)

end Instr

end Sys2Proof
end

