-- ==== Sys2Proof/Decode.lean ====
section
/-! DEFINITION. Decoding and encoding of the 149 instruction words, from the match and mask of each row of
the opcode table (16 R362 to R371). A word is read as a natural number with bit 0 its least significant
bit; `fld w lo n` is its n-bit field that starts at bit lo. A word that no row matches is refused by name:
a reserved major opcode, or a reserved encoding under a major that exists (R365). An operand value that a
row holds but its entry refuses (a type, a modifier, a size) decodes to the row; `Instr.wellFormed` refuses
it and the meaning traps ILLEGAL in the order of R260. -/

namespace Sys2Proof

/-- The n-bit field of w that starts at bit lo, as a number. -/
def fldN (w lo n : Nat) : Nat := w / 2 ^ lo % 2 ^ n

/-- The n-bit field of w that starts at bit lo. -/
def fld (w lo n : Nat) : BitVec n := BitVec.ofNat n (w / 2 ^ lo)

/-- Why a word is no instruction. -/
inductive DecodeError where
  /-- fewer than four bytes -/
  | truncated
  /-- R365 step 5: a major opcode that the map of R369 does not assign -/
  | reservedMajor
  /-- R365 step 7: a function code or a fixed field that no row of this major has -/
  | reservedEncoding (major : Nat)
  deriving DecidableEq, Repr

/-- Major 0x01 (R369). -/
def decodeIntR (w : Nat) : Except DecodeError Instr :=
  if fldN w 0 17 == 0 then .ok (.add (fld w 23 3) (fld w 20 3) (fld w 17 3)) else
  if fldN w 0 17 == 2048 then .ok (.sub (fld w 23 3) (fld w 20 3) (fld w 17 3)) else
  if fldN w 0 17 == 4096 then .ok (.and (fld w 23 3) (fld w 20 3) (fld w 17 3)) else
  if fldN w 0 17 == 6144 then .ok (.or (fld w 23 3) (fld w 20 3) (fld w 17 3)) else
  if fldN w 0 17 == 8192 then .ok (.xor (fld w 23 3) (fld w 20 3) (fld w 17 3)) else
  if fldN w 0 17 == 10240 then .ok (.shl (fld w 23 3) (fld w 20 3) (fld w 17 3)) else
  if fldN w 0 17 == 12288 then .ok (.shr (fld w 23 3) (fld w 20 3) (fld w 17 3)) else
  if fldN w 0 17 == 14336 then .ok (.sar (fld w 23 3) (fld w 20 3) (fld w 17 3)) else
  if fldN w 0 17 == 16384 then .ok (.slt (fld w 23 3) (fld w 20 3) (fld w 17 3)) else
  if fldN w 0 17 == 18432 then .ok (.sltu (fld w 23 3) (fld w 20 3) (fld w 17 3)) else
  if fldN w 1 16 == 10240 then .ok (.min (fld w 23 3) (fld w 20 3) (fld w 17 3) (fld w 0 1)) else
  if fldN w 1 16 == 11264 then .ok (.max (fld w 23 3) (fld w 20 3) (fld w 17 3) (fld w 0 1)) else
  if fldN w 0 17 == 24576 then .ok (.mul (fld w 23 3) (fld w 20 3) (fld w 17 3)) else
  if fldN w 1 16 == 13312 then .ok (.mulh (fld w 23 3) (fld w 20 3) (fld w 17 3) (fld w 0 1)) else
  if fldN w 1 16 == 14336 then .ok (.div (fld w 23 3) (fld w 20 3) (fld w 17 3) (fld w 0 1)) else
  if fldN w 1 16 == 15360 then .ok (.rem (fld w 23 3) (fld w 20 3) (fld w 17 3) (fld w 0 1)) else
  if fldN w 0 1 == 0 && fldN w 3 17 == 4096 then .ok (.clz (fld w 23 3) (fld w 20 3) (fld w 1 2)) else
  if fldN w 0 1 == 0 && fldN w 3 17 == 4352 then .ok (.ffs (fld w 23 3) (fld w 20 3) (fld w 1 2)) else
  if fldN w 0 1 == 0 && fldN w 3 17 == 4608 then .ok (.popc (fld w 23 3) (fld w 20 3) (fld w 1 2)) else
  if fldN w 0 1 == 0 && fldN w 3 17 == 4864 then .ok (.sext (fld w 23 3) (fld w 20 3) (fld w 1 2)) else
  .error (.reservedEncoding 1)

/-- Major 0x02 (R369). -/
def decodeAddiRow (w : Nat) : Except DecodeError Instr :=
  .ok (.addi (fld w 23 3) (fld w 20 3) (fld w 0 20))

/-- Major 0x03 (R369). -/
def decodeAndiRow (w : Nat) : Except DecodeError Instr :=
  .ok (.andi (fld w 23 3) (fld w 20 3) (fld w 0 20))

/-- Major 0x04 (R369). -/
def decodeOriRow (w : Nat) : Except DecodeError Instr :=
  .ok (.ori (fld w 23 3) (fld w 20 3) (fld w 0 20))

/-- Major 0x05 (R369). -/
def decodeXoriRow (w : Nat) : Except DecodeError Instr :=
  .ok (.xori (fld w 23 3) (fld w 20 3) (fld w 0 20))

/-- Major 0x06 (R369). -/
def decodeSltiRow (w : Nat) : Except DecodeError Instr :=
  .ok (.slti (fld w 23 3) (fld w 20 3) (fld w 0 20))

/-- Major 0x07 (R369). -/
def decodeLuiRow (w : Nat) : Except DecodeError Instr :=
  if fldN w 20 3 == 0 then .ok (.lui (fld w 23 3) (fld w 0 20)) else
  .error (.reservedEncoding 7)

/-- Major 0x08 (R369). -/
def decodeIntSh (w : Nat) : Except DecodeError Instr :=
  if fldN w 6 14 == 0 then .ok (.shli (fld w 23 3) (fld w 20 3) (fld w 0 6)) else
  if fldN w 6 14 == 32 then .ok (.shri (fld w 23 3) (fld w 20 3) (fld w 0 6)) else
  if fldN w 6 14 == 64 then .ok (.sari (fld w 23 3) (fld w 20 3) (fld w 0 6)) else
  .error (.reservedEncoding 8)

/-- Major 0x09 (R369). -/
def decodeLdRow (w : Nat) : Except DecodeError Instr :=
  .ok (.ld (fld w 23 3) (fld w 21 2) (fld w 20 1) (fld w 17 3) (fld w 14 3) (fld w 0 14))

/-- Major 0x0A (R369). -/
def decodeStRow (w : Nat) : Except DecodeError Instr :=
  .ok (.st (fld w 23 3) (fld w 21 2) (fld w 20 1) (fld w 17 3) (fld w 14 3) (fld w 0 14))

/-- Major 0x0B (R369). -/
def decodeLdkRow (w : Nat) : Except DecodeError Instr :=
  if fldN w 14 3 == 0 && fldN w 25 1 == 0 then .ok (.ldk (fld w 23 2) (fld w 21 2) (fld w 20 1) (fld w 17 3) (fld w 0 14)) else
  .error (.reservedEncoding 11)

/-- Major 0x0C (R369). -/
def decodeStkRow (w : Nat) : Except DecodeError Instr :=
  if fldN w 14 3 == 0 && fldN w 25 1 == 0 then .ok (.stk (fld w 23 2) (fld w 21 2) (fld w 20 1) (fld w 17 3) (fld w 0 14)) else
  .error (.reservedEncoding 12)

/-- Major 0x0D (R369). -/
def decodeAtomic (w : Nat) : Except DecodeError Instr :=
  if fldN w 8 1 == 1 && fldN w 15 3 == 0 && fldN w 23 3 == 0 then .ok (.amoRed (fld w 21 2) (fld w 18 3) (fld w 11 4) (fld w 9 2) (fld w 0 8)) else
  if fldN w 8 1 == 0 && fldN w 11 4 == 15 then .ok (.acas (fld w 23 3) (fld w 21 2) (fld w 18 3) (fld w 15 3) (fld w 9 2) (fld w 0 8)) else
  if fldN w 8 1 == 0 && fldN w 15 3 == 0 then .ok (.amo (fld w 23 3) (fld w 21 2) (fld w 18 3) (fld w 11 4) (fld w 9 2) (fld w 0 8)) else
  .error (.reservedEncoding 13)

/-- Major 0x0E (R369). -/
def decodeBranch (w : Nat) : Except DecodeError Instr :=
  .ok (.bcc (fld w 23 3) (fld w 20 3) (fld w 17 3) (fld w 0 17))

/-- Major 0x0F (R369). -/
def decodeJalRow (w : Nat) : Except DecodeError Instr :=
  .ok (.jal (fld w 23 3) (fld w 0 23))

/-- Major 0x10 (R369). -/
def decodeJalrRow (w : Nat) : Except DecodeError Instr :=
  if fldN w 0 20 == 0 then .ok (.jalr (fld w 23 3) (fld w 20 3)) else
  if fldN w 2 21 == 1 then .ok (.jalrK (fld w 23 3) (fld w 0 2)) else
  .error (.reservedEncoding 16)

/-- Major 0x11 (R369). -/
def decodeKcap (w : Nat) : Except DecodeError Instr :=
  if fldN w 4 16 == 0 && fldN w 23 3 == 0 then .ok (.kbnd (fld w 20 3) (fld w 2 2) (fld w 0 2)) else
  if fldN w 4 16 == 128 && fldN w 23 3 == 0 then .ok (.kprm (fld w 20 3) (fld w 2 2) (fld w 0 2)) else
  if fldN w 4 16 == 256 && fldN w 23 3 == 0 then .ok (.kadd (fld w 20 3) (fld w 2 2) (fld w 0 2)) else
  if fldN w 0 2 == 0 && fldN w 8 15 == 24 then .ok (.kget (fld w 23 3) (fld w 4 4) (fld w 2 2)) else
  if fldN w 4 22 == 512 then .ok (.kmov (fld w 2 2) (fld w 0 2)) else
  if fldN w 0 2 == 0 && fldN w 4 19 == 640 then .ok (.ktag (fld w 23 3) (fld w 2 2)) else
  if fldN w 2 24 == 3072 then .ok (.kclr (fld w 0 2)) else
  .error (.reservedEncoding 17)

/-- Major 0x12 (R369). -/
def decodeFib (w : Nat) : Except DecodeError Instr :=
  if fldN w 0 17 == 0 then .ok (.fspawn (fld w 23 3) (fld w 20 3) (fld w 17 3)) else
  if fldN w 0 26 == 2048 then .ok (.fexit) else
  if fldN w 0 26 == 4096 then .ok (.yield) else
  if fldN w 0 23 == 6144 then .ok (.fid (fld w 23 3)) else
  .error (.reservedEncoding 18)

/-- Major 0x13 (R369). -/
def decodeTask (w : Nat) : Except DecodeError Instr :=
  if fldN w 2 18 == 0 then .ok (.taskq (fld w 23 3) (fld w 20 3) (fld w 0 2)) else
  if fldN w 4 16 == 1 then .ok (.taskqKc (fld w 23 3) (fld w 20 3) (fld w 2 2) (fld w 0 2)) else
  if fldN w 0 20 == 2048 then .ok (.twait (fld w 23 3) (fld w 20 3)) else
  if fldN w 0 20 == 2049 then .ok (.twaitPoll (fld w 23 3) (fld w 20 3)) else
  .error (.reservedEncoding 19)

/-- Major 0x14 (R369). -/
def decodeSync (w : Nat) : Except DecodeError Instr :=
  if fldN w 7 16 == 0 then .ok (.bara (fld w 23 3) (fld w 0 7)) else
  if fldN w 7 13 == 16 then .ok (.barw (fld w 23 3) (fld w 20 3) (fld w 0 7)) else
  if fldN w 6 17 == 64 then .ok (.semp (fld w 23 3) (fld w 0 6)) else
  if fldN w 6 17 == 65 then .ok (.sempTry (fld w 23 3) (fld w 0 6)) else
  if fldN w 6 20 == 96 then .ok (.semv (fld w 0 6)) else
  .error (.reservedEncoding 20)

/-- Major 0x15 (R369). -/
def decodeFence (w : Nat) : Except DecodeError Instr :=
  if fldN w 0 20 == 0 && fldN w 23 3 == 0 then .ok (.fenceRel (fld w 20 3)) else
  if fldN w 0 26 == 1 then .ok (.fenceX) else
  if fldN w 0 26 == 2048 then .ok (.ifence) else
  .error (.reservedEncoding 21)

/-- Major 0x16 (R369). -/
def decodeMsg (w : Nat) : Except DecodeError Instr :=
  if fldN w 0 8 == 0 && fldN w 9 14 == 1 then .ok (.send (fld w 23 3) (fld w 8 1)) else
  if fldN w 0 8 == 0 && fldN w 9 3 == 0 && fldN w 14 6 == 0 then .ok (.sendMem (fld w 23 3) (fld w 20 3) (fld w 12 2) (fld w 8 1)) else
  if fldN w 0 23 == 16896 then .ok (.reply (fld w 23 3)) else
  if fldN w 0 12 == 0 && fldN w 14 6 == 1 then .ok (.replyMem (fld w 23 3) (fld w 20 3) (fld w 12 2)) else
  if fldN w 0 23 == 33280 then .ok (.sendc (fld w 23 3)) else
  if fldN w 0 12 == 0 && fldN w 14 6 == 2 then .ok (.sendcMem (fld w 23 3) (fld w 20 3) (fld w 12 2)) else
  .error (.reservedEncoding 22)

/-- Major 0x17 (R369). -/
def decodeCirc (w : Nat) : Except DecodeError Instr :=
  if fldN w 2 15 == 0 then .ok (.copen (fld w 23 3) (fld w 20 3) (fld w 17 3) (fld w 0 2)) else
  if fldN w 0 20 == 2048 then .ok (.cshut (fld w 23 3) (fld w 20 3)) else
  if fldN w 0 17 == 4096 then .ok (.crsz (fld w 23 3) (fld w 20 3) (fld w 17 3)) else
  if fldN w 0 17 == 4097 then .ok (.crszArm (fld w 23 3) (fld w 20 3) (fld w 17 3)) else
  if fldN w 0 20 == 6144 then .ok (.cqry (fld w 23 3) (fld w 20 3)) else
  .error (.reservedEncoding 23)

/-- Major 0x18 (R369). -/
def decodeStrm (w : Nat) : Except DecodeError Instr :=
  if fldN w 3 17 == 0 then .ok (.sbind (fld w 23 3) (fld w 20 3) (fld w 0 3)) else
  if fldN w 3 23 == 2048 then .ok (.sfree (fld w 0 3)) else
  if fldN w 3 20 == 4096 then .ok (.spop (fld w 23 3) (fld w 0 3)) else
  if fldN w 3 5 == 0 && fldN w 9 14 == 96 then .ok (.spush (fld w 23 3) (fld w 8 1) (fld w 0 3)) else
  if fldN w 3 20 == 8192 then .ok (.scnt (fld w 23 3) (fld w 0 3)) else
  .error (.reservedEncoding 24)

/-- Major 0x19 (R369). -/
def decodeTmovRow (w : Nat) : Except DecodeError Instr :=
  if fldN w 0 7 == 0 then .ok (.tmov (fld w 24 2) (fld w 22 2) (fld w 19 3) (fld w 13 6) (fld w 7 6)) else
  if fldN w 0 7 == 1 then .ok (.tmovSq (fld w 24 2) (fld w 22 2) (fld w 19 3) (fld w 13 6) (fld w 7 6)) else
  .error (.reservedEncoding 25)

/-- Major 0x1A (R369). -/
def decodeTldtRow (w : Nat) : Except DecodeError Instr :=
  if fldN w 0 7 == 0 then .ok (.tldt (fld w 24 2) (fld w 22 2) (fld w 19 3) (fld w 13 6) (fld w 7 6)) else
  .error (.reservedEncoding 26)

/-- Major 0x1B (R369). -/
def decodeSys (w : Nat) : Except DecodeError Instr :=
  if fldN w 0 8 == 0 && fldN w 20 3 == 0 then .ok (.srd (fld w 23 3) (fld w 8 12)) else
  if fldN w 0 8 == 1 && fldN w 23 3 == 0 then .ok (.swr (fld w 20 3) (fld w 8 12)) else
  if fldN w 0 8 == 2 && fldN w 20 6 == 0 then .ok (.trap (fld w 8 12)) else
  if fldN w 0 26 == 3 then .ok (.rft) else
  if fldN w 0 8 == 4 && fldN w 20 3 == 0 then .ok (.wfe (fld w 23 3) (fld w 8 12)) else
  if fldN w 0 8 == 5 && fldN w 20 6 == 0 then .ok (.brk (fld w 8 12)) else
  if fldN w 0 8 == 6 && fldN w 20 6 == 0 then .ok (.svc (fld w 8 12)) else
  if fldN w 0 26 == 7 then .ok (.halt) else
  .error (.reservedEncoding 27)

/-- Major 0x1C (R369). -/
def decodeRootRow (w : Nat) : Except DecodeError Instr :=
  if fldN w 2 8 == 0 && fldN w 14 6 == 0 then .ok (.sha (fld w 23 3) (fld w 20 3) (fld w 12 2) (fld w 10 2) (fld w 0 2)) else
  if fldN w 0 10 == 0 && fldN w 14 6 == 1 then .ok (.pksign (fld w 23 3) (fld w 20 3) (fld w 12 2) (fld w 10 2)) else
  if fldN w 0 12 == 0 && fldN w 14 6 == 2 then .ok (.pkver (fld w 23 3) (fld w 20 3) (fld w 12 2)) else
  if fldN w 0 20 == 49152 then .ok (.rng (fld w 23 3) (fld w 20 3)) else
  if fldN w 4 8 == 0 && fldN w 14 6 == 4 && fldN w 23 3 == 0 then .ok (.mext (fld w 20 3) (fld w 12 2) (fld w 0 4)) else
  if fldN w 0 12 == 0 && fldN w 14 6 == 5 then .ok (.mtrq (fld w 23 3) (fld w 20 3) (fld w 12 2)) else
  .error (.reservedEncoding 28)

/-- Major 0x20 (R369). -/
def decodeVint (w : Nat) : Except DecodeError Instr :=
  if fldN w 7 4 == 0 then .ok (.vadd (fld w 21 5) (fld w 16 5) (fld w 11 5) (fld w 4 3) (fld w 0 4)) else
  if fldN w 7 4 == 1 then .ok (.vsub (fld w 21 5) (fld w 16 5) (fld w 11 5) (fld w 4 3) (fld w 0 4)) else
  if fldN w 7 4 == 2 then .ok (.vmul (fld w 21 5) (fld w 16 5) (fld w 11 5) (fld w 4 3) (fld w 0 4)) else
  if fldN w 7 4 == 3 then .ok (.vmin (fld w 21 5) (fld w 16 5) (fld w 11 5) (fld w 4 3) (fld w 0 4)) else
  if fldN w 7 4 == 4 then .ok (.vmax (fld w 21 5) (fld w 16 5) (fld w 11 5) (fld w 4 3) (fld w 0 4)) else
  if fldN w 7 4 == 5 then .ok (.vand (fld w 21 5) (fld w 16 5) (fld w 11 5) (fld w 4 3) (fld w 0 4)) else
  if fldN w 7 4 == 6 then .ok (.vor (fld w 21 5) (fld w 16 5) (fld w 11 5) (fld w 4 3) (fld w 0 4)) else
  if fldN w 7 4 == 7 then .ok (.vxor (fld w 21 5) (fld w 16 5) (fld w 11 5) (fld w 4 3) (fld w 0 4)) else
  if fldN w 7 4 == 8 then .ok (.vsh (fld w 21 5) (fld w 16 5) (fld w 11 5) (fld w 4 3) (fld w 0 4)) else
  if fldN w 7 9 == 9 then .ok (.vclz (fld w 21 5) (fld w 16 5) (fld w 4 3) (fld w 0 4)) else
  if fldN w 7 9 == 10 then .ok (.vffs (fld w 21 5) (fld w 16 5) (fld w 4 3) (fld w 0 4)) else
  if fldN w 7 9 == 11 then .ok (.vpopc (fld w 21 5) (fld w 16 5) (fld w 4 3) (fld w 0 4)) else
  .error (.reservedEncoding 32)

/-- Major 0x21 (R369). -/
def decodeVflt (w : Nat) : Except DecodeError Instr :=
  if fldN w 7 4 == 0 then .ok (.vfadd (fld w 21 5) (fld w 16 5) (fld w 11 5) (fld w 4 3) (fld w 0 4)) else
  if fldN w 7 4 == 1 then .ok (.vfsub (fld w 21 5) (fld w 16 5) (fld w 11 5) (fld w 4 3) (fld w 0 4)) else
  if fldN w 7 4 == 2 then .ok (.vfmul (fld w 21 5) (fld w 16 5) (fld w 11 5) (fld w 4 3) (fld w 0 4)) else
  if fldN w 7 4 == 3 then .ok (.vfma (fld w 21 5) (fld w 16 5) (fld w 11 5) (fld w 4 3) (fld w 0 4)) else
  if fldN w 7 4 == 4 then .ok (.vfmin (fld w 21 5) (fld w 16 5) (fld w 11 5) (fld w 4 3) (fld w 0 4)) else
  if fldN w 7 4 == 5 then .ok (.vfmax (fld w 21 5) (fld w 16 5) (fld w 11 5) (fld w 4 3) (fld w 0 4)) else
  .error (.reservedEncoding 33)

/-- Major 0x22 (R369). -/
def decodeVsfu (w : Nat) : Except DecodeError Instr :=
  if fldN w 7 9 == 0 then .ok (.vexp2 (fld w 21 5) (fld w 16 5) (fld w 4 3) (fld w 0 4)) else
  if fldN w 7 9 == 1 then .ok (.vlog2 (fld w 21 5) (fld w 16 5) (fld w 4 3) (fld w 0 4)) else
  if fldN w 7 9 == 2 then .ok (.vrcp (fld w 21 5) (fld w 16 5) (fld w 4 3) (fld w 0 4)) else
  if fldN w 7 9 == 3 then .ok (.vrsq (fld w 21 5) (fld w 16 5) (fld w 4 3) (fld w 0 4)) else
  if fldN w 7 9 == 4 then .ok (.vtanh (fld w 21 5) (fld w 16 5) (fld w 4 3) (fld w 0 4)) else
  .error (.reservedEncoding 34)

/-- Major 0x23 (R369). -/
def decodeVmisc (w : Nat) : Except DecodeError Instr :=
  if fldN w 7 4 == 0 && fldN w 24 2 == 0 then .ok (.vcmp (fld w 21 3) (fld w 16 5) (fld w 11 5) (fld w 4 3) (fld w 0 4)) else
  if fldN w 3 1 == 1 && fldN w 7 4 == 1 then .ok (.vsel (fld w 21 5) (fld w 16 5) (fld w 11 5) (fld w 4 3) (fld w 0 3)) else
  if fldN w 7 4 == 2 then .ok (.vperm (fld w 21 5) (fld w 16 5) (fld w 11 5) (fld w 4 3) (fld w 0 4)) else
  if fldN w 7 9 == 3 && fldN w 19 2 == 0 then .ok (.vbcst (fld w 21 5) (fld w 16 3) (fld w 4 3) (fld w 0 4)) else
  if fldN w 7 4 == 4 then .ok (.vcvt (fld w 21 5) (fld w 16 5) (fld w 14 2) (fld w 11 3) (fld w 4 3) (fld w 0 4)) else
  if fldN w 7 4 == 5 && fldN w 14 2 == 0 && fldN w 24 2 == 0 then .ok (.vext (fld w 21 3) (fld w 16 5) (fld w 11 3) (fld w 4 3) (fld w 0 4)) else
  if fldN w 7 4 == 6 && fldN w 14 2 == 0 && fldN w 19 2 == 0 then .ok (.vins (fld w 21 5) (fld w 16 3) (fld w 11 3) (fld w 4 3) (fld w 0 4)) else
  if fldN w 7 4 == 7 then .ok (.vred (fld w 21 5) (fld w 16 5) (fld w 11 5) (fld w 4 3) (fld w 0 4)) else
  .error (.reservedEncoding 35)

/-- Major 0x24 (R369). -/
def decodeVmem (w : Nat) : Except DecodeError Instr :=
  if fldN w 17 2 == 0 then .ok (.vld (fld w 21 5) (fld w 19 2) (fld w 13 4) (fld w 12 1) (fld w 9 3) (fld w 0 9)) else
  if fldN w 17 2 == 1 then .ok (.vst (fld w 21 5) (fld w 19 2) (fld w 13 4) (fld w 12 1) (fld w 9 3) (fld w 0 9)) else
  if fldN w 0 6 == 0 && fldN w 7 1 == 0 && fldN w 17 2 == 2 then .ok (.vgth (fld w 21 5) (fld w 19 2) (fld w 13 4) (fld w 8 5) (fld w 6 1)) else
  if fldN w 0 6 == 0 && fldN w 7 1 == 0 && fldN w 17 2 == 3 then .ok (.vsct (fld w 21 5) (fld w 19 2) (fld w 13 4) (fld w 8 5) (fld w 6 1)) else
  .error (.reservedEncoding 36)

/-- Major 0x25 (R369). -/
def decodeVacc (w : Nat) : Except DecodeError Instr :=
  if fldN w 7 4 == 0 && fldN w 24 2 == 0 then .ok (.vmac (fld w 21 3) (fld w 16 5) (fld w 11 5) (fld w 4 3) (fld w 0 4)) else
  if fldN w 0 21 == 128 && fldN w 24 2 == 0 then .ok (.vaclr (fld w 21 3)) else
  if fldN w 7 9 == 2 && fldN w 19 2 == 0 then .ok (.vnrw (fld w 21 5) (fld w 16 3) (fld w 4 3) (fld w 0 4)) else
  .error (.reservedEncoding 37)

/-- Major 0x26 (R369). -/
def decodeMtx (w : Nat) : Except DecodeError Instr :=
  if fldN w 0 12 == 0 && fldN w 15 11 == 0 then .ok (.mfmt (fld w 12 3)) else
  if fldN w 0 12 == 0 && fldN w 15 11 == 256 then .ok (.mgang (fld w 12 3)) else
  if fldN w 0 9 == 0 && fldN w 23 3 == 2 then .ok (.mma (fld w 19 4) (fld w 17 2) (fld w 15 2) (fld w 12 3) (fld w 9 3)) else
  if fldN w 0 9 == 128 && fldN w 23 3 == 2 then .ok (.mmaHold (fld w 19 4) (fld w 17 2) (fld w 15 2) (fld w 12 3) (fld w 9 3)) else
  if fldN w 0 9 == 256 && fldN w 15 2 == 0 && fldN w 23 3 == 2 then .ok (.mmaHb (fld w 19 4) (fld w 17 2) (fld w 12 3) (fld w 9 3)) else
  if fldN w 0 9 == 0 && fldN w 12 7 == 0 && fldN w 23 3 == 3 then .ok (.mzero (fld w 19 4) (fld w 9 3)) else
  if fldN w 5 7 == 0 && fldN w 15 11 == 1024 then .ok (.mrd (fld w 12 3) (fld w 0 5)) else
  if fldN w 5 7 == 4 && fldN w 15 11 == 1024 then .ok (.mrdRel (fld w 12 3) (fld w 0 5)) else
  if fldN w 0 19 == 0 && fldN w 23 3 == 5 then .ok (.mrel (fld w 19 4)) else
  if fldN w 0 19 == 0 && fldN w 23 3 == 6 then .ok (.mrcl (fld w 19 4)) else
  if fldN w 3 9 == 0 && fldN w 15 11 == 1792 then .ok (.mstat (fld w 12 3) (fld w 0 3)) else
  .error (.reservedEncoding 38)

/-- Major 0x27 (R369). -/
def decodeShape (w : Nat) : Except DecodeError Instr :=
  if fldN w 3 7 == 0 && fldN w 14 6 == 0 then .ok (.qenc (fld w 23 3) (fld w 20 3) (fld w 12 2) (fld w 10 2) (fld w 0 3)) else
  if fldN w 4 6 == 0 && fldN w 14 6 == 1 then .ok (.qdec (fld w 23 3) (fld w 20 3) (fld w 12 2) (fld w 10 2) (fld w 3 1) (fld w 0 3)) else
  if fldN w 0 10 == 0 && fldN w 14 6 == 2 then .ok (.qtrn (fld w 23 3) (fld w 20 3) (fld w 12 2) (fld w 10 2)) else
  if fldN w 0 3 == 0 && fldN w 4 6 == 0 && fldN w 14 6 == 3 then .ok (.qscl (fld w 23 3) (fld w 20 3) (fld w 12 2) (fld w 10 2) (fld w 3 1)) else
  .error (.reservedEncoding 39)

/-- The instruction of one 32-bit word (R362, R369). -/
def decodeWord (w : Nat) : Except DecodeError Instr :=
  match fldN w 26 6 with
  | 1 => decodeIntR w
  | 2 => decodeAddiRow w
  | 3 => decodeAndiRow w
  | 4 => decodeOriRow w
  | 5 => decodeXoriRow w
  | 6 => decodeSltiRow w
  | 7 => decodeLuiRow w
  | 8 => decodeIntSh w
  | 9 => decodeLdRow w
  | 10 => decodeStRow w
  | 11 => decodeLdkRow w
  | 12 => decodeStkRow w
  | 13 => decodeAtomic w
  | 14 => decodeBranch w
  | 15 => decodeJalRow w
  | 16 => decodeJalrRow w
  | 17 => decodeKcap w
  | 18 => decodeFib w
  | 19 => decodeTask w
  | 20 => decodeSync w
  | 21 => decodeFence w
  | 22 => decodeMsg w
  | 23 => decodeCirc w
  | 24 => decodeStrm w
  | 25 => decodeTmovRow w
  | 26 => decodeTldtRow w
  | 27 => decodeSys w
  | 28 => decodeRootRow w
  | 32 => decodeVint w
  | 33 => decodeVflt w
  | 34 => decodeVsfu w
  | 35 => decodeVmisc w
  | 36 => decodeVmem w
  | 37 => decodeVacc w
  | 38 => decodeMtx w
  | 39 => decodeShape w
  | _ => .error .reservedMajor

/-- The instruction at the head of a list of bytes, little-endian (R2, R362), and the bytes that follow. -/
def decode : List Byte → Except DecodeError (Instr × List Byte)
  | b0 :: b1 :: b2 :: b3 :: rest =>
    match decodeWord (b0.toNat + b1.toNat * 2 ^ 8 + b2.toNat * 2 ^ 16 + b3.toNat * 2 ^ 24) with
    | .ok i => .ok (i, rest)
    | .error e => .error e
  | _ => .error .truncated

/-- A word's fixed bits with each field's value added at the bit where the field starts. -/
def pack (base : Nat) : List (Nat × Nat) → Nat
  | [] => base
  | (v, lo) :: rest => v * 2 ^ lo + pack base rest

/-- The word of an instruction as a number; none for an event, which has no word. -/
def encodeNat : Instr → Option Nat
  | .add d a b => some (pack 0x04000000 [(d.toNat, 23), (a.toNat, 20), (b.toNat, 17)])
  | .sub d a b => some (pack 0x04000800 [(d.toNat, 23), (a.toNat, 20), (b.toNat, 17)])
  | .and d a b => some (pack 0x04001000 [(d.toNat, 23), (a.toNat, 20), (b.toNat, 17)])
  | .or d a b => some (pack 0x04001800 [(d.toNat, 23), (a.toNat, 20), (b.toNat, 17)])
  | .xor d a b => some (pack 0x04002000 [(d.toNat, 23), (a.toNat, 20), (b.toNat, 17)])
  | .shl d a b => some (pack 0x04002800 [(d.toNat, 23), (a.toNat, 20), (b.toNat, 17)])
  | .shr d a b => some (pack 0x04003000 [(d.toNat, 23), (a.toNat, 20), (b.toNat, 17)])
  | .sar d a b => some (pack 0x04003800 [(d.toNat, 23), (a.toNat, 20), (b.toNat, 17)])
  | .slt d a b => some (pack 0x04004000 [(d.toNat, 23), (a.toNat, 20), (b.toNat, 17)])
  | .sltu d a b => some (pack 0x04004800 [(d.toNat, 23), (a.toNat, 20), (b.toNat, 17)])
  | .min d a b u => some (pack 0x04005000 [(d.toNat, 23), (a.toNat, 20), (b.toNat, 17), (u.toNat, 0)])
  | .max d a b u => some (pack 0x04005800 [(d.toNat, 23), (a.toNat, 20), (b.toNat, 17), (u.toNat, 0)])
  | .mul d a b => some (pack 0x04006000 [(d.toNat, 23), (a.toNat, 20), (b.toNat, 17)])
  | .mulh d a b u => some (pack 0x04006800 [(d.toNat, 23), (a.toNat, 20), (b.toNat, 17), (u.toNat, 0)])
  | .div d a b u => some (pack 0x04007000 [(d.toNat, 23), (a.toNat, 20), (b.toNat, 17), (u.toNat, 0)])
  | .rem d a b u => some (pack 0x04007800 [(d.toNat, 23), (a.toNat, 20), (b.toNat, 17), (u.toNat, 0)])
  | .clz d a w => some (pack 0x04008000 [(d.toNat, 23), (a.toNat, 20), (w.toNat, 1)])
  | .ffs d a w => some (pack 0x04008800 [(d.toNat, 23), (a.toNat, 20), (w.toNat, 1)])
  | .popc d a w => some (pack 0x04009000 [(d.toNat, 23), (a.toNat, 20), (w.toNat, 1)])
  | .sext d a w => some (pack 0x04009800 [(d.toNat, 23), (a.toNat, 20), (w.toNat, 1)])
  | .addi d a i => some (pack 0x08000000 [(d.toNat, 23), (a.toNat, 20), (i.toNat, 0)])
  | .andi d a i => some (pack 0x0c000000 [(d.toNat, 23), (a.toNat, 20), (i.toNat, 0)])
  | .ori d a i => some (pack 0x10000000 [(d.toNat, 23), (a.toNat, 20), (i.toNat, 0)])
  | .xori d a i => some (pack 0x14000000 [(d.toNat, 23), (a.toNat, 20), (i.toNat, 0)])
  | .slti d a i => some (pack 0x18000000 [(d.toNat, 23), (a.toNat, 20), (i.toNat, 0)])
  | .lui d i => some (pack 0x1c000000 [(d.toNat, 23), (i.toNat, 0)])
  | .shli d a n => some (pack 0x20000000 [(d.toNat, 23), (a.toNat, 20), (n.toNat, 0)])
  | .shri d a n => some (pack 0x20000800 [(d.toNat, 23), (a.toNat, 20), (n.toNat, 0)])
  | .sari d a n => some (pack 0x20001000 [(d.toNat, 23), (a.toNat, 20), (n.toNat, 0)])
  | .ld d k x g s o => some (pack 0x24000000 [(d.toNat, 23), (k.toNat, 21), (x.toNat, 20), (g.toNat, 17), (s.toNat, 14), (o.toNat, 0)])
  | .st d k x g s o => some (pack 0x28000000 [(d.toNat, 23), (k.toNat, 21), (x.toNat, 20), (g.toNat, 17), (s.toNat, 14), (o.toNat, 0)])
  | .ldk c k x g o => some (pack 0x2c000000 [(c.toNat, 23), (k.toNat, 21), (x.toNat, 20), (g.toNat, 17), (o.toNat, 0)])
  | .stk c k x g o => some (pack 0x30000000 [(c.toNat, 23), (k.toNat, 21), (x.toNat, 20), (g.toNat, 17), (o.toNat, 0)])
  | .amo d k a p w o => some (pack 0x34000000 [(d.toNat, 23), (k.toNat, 21), (a.toNat, 18), (p.toNat, 11), (w.toNat, 9), (o.toNat, 0)])
  | .amoRed k a p w o => some (pack 0x34000100 [(k.toNat, 21), (a.toNat, 18), (p.toNat, 11), (w.toNat, 9), (o.toNat, 0)])
  | .acas d k a b w o => some (pack 0x34007800 [(d.toNat, 23), (k.toNat, 21), (a.toNat, 18), (b.toNat, 15), (w.toNat, 9), (o.toNat, 0)])
  | .bcc a b c o => some (pack 0x38000000 [(a.toNat, 23), (b.toNat, 20), (c.toNat, 17), (o.toNat, 0)])
  | .jal d o => some (pack 0x3c000000 [(d.toNat, 23), (o.toNat, 0)])
  | .jalr d a => some (pack 0x40000000 [(d.toNat, 23), (a.toNat, 20)])
  | .jalrK d n => some (pack 0x40000004 [(d.toNat, 23), (n.toNat, 0)])
  | .kbnd a s d => some (pack 0x44000000 [(a.toNat, 20), (s.toNat, 2), (d.toNat, 0)])
  | .kprm a s d => some (pack 0x44000800 [(a.toNat, 20), (s.toNat, 2), (d.toNat, 0)])
  | .kadd a s d => some (pack 0x44001000 [(a.toNat, 20), (s.toNat, 2), (d.toNat, 0)])
  | .kget d e s => some (pack 0x44001800 [(d.toNat, 23), (e.toNat, 4), (s.toNat, 2)])
  | .kmov s d => some (pack 0x44002000 [(s.toNat, 2), (d.toNat, 0)])
  | .ktag d s => some (pack 0x44002800 [(d.toNat, 23), (s.toNat, 2)])
  | .kclr d => some (pack 0x44003000 [(d.toNat, 0)])
  | .fspawn d a b => some (pack 0x48000000 [(d.toNat, 23), (a.toNat, 20), (b.toNat, 17)])
  | .fexit => some (pack 0x48000800 [])
  | .yield => some (pack 0x48001000 [])
  | .fid d => some (pack 0x48001800 [(d.toNat, 23)])
  | .taskq d a k => some (pack 0x4c000000 [(d.toNat, 23), (a.toNat, 20), (k.toNat, 0)])
  | .taskqKc d a c k => some (pack 0x4c000010 [(d.toNat, 23), (a.toNat, 20), (c.toNat, 2), (k.toNat, 0)])
  | .twait d a => some (pack 0x4c000800 [(d.toNat, 23), (a.toNat, 20)])
  | .twaitPoll d a => some (pack 0x4c000801 [(d.toNat, 23), (a.toNat, 20)])
  | .bara d n => some (pack 0x50000000 [(d.toNat, 23), (n.toNat, 0)])
  | .barw d a n => some (pack 0x50000800 [(d.toNat, 23), (a.toNat, 20), (n.toNat, 0)])
  | .semp d n => some (pack 0x50001000 [(d.toNat, 23), (n.toNat, 0)])
  | .sempTry d n => some (pack 0x50001040 [(d.toNat, 23), (n.toNat, 0)])
  | .semv n => some (pack 0x50001800 [(n.toNat, 0)])
  | .fenceRel a => some (pack 0x54000000 [(a.toNat, 20)])
  | .fenceX => some (pack 0x54000001 [])
  | .ifence => some (pack 0x54000800 [])
  | .send a r => some (pack 0x58000200 [(a.toNat, 23), (r.toNat, 8)])
  | .sendMem a b k r => some (pack 0x58000000 [(a.toNat, 23), (b.toNat, 20), (k.toNat, 12), (r.toNat, 8)])
  | .reply a => some (pack 0x58004200 [(a.toNat, 23)])
  | .replyMem a b k => some (pack 0x58004000 [(a.toNat, 23), (b.toNat, 20), (k.toNat, 12)])
  | .sendc a => some (pack 0x58008200 [(a.toNat, 23)])
  | .sendcMem a b k => some (pack 0x58008000 [(a.toNat, 23), (b.toNat, 20), (k.toNat, 12)])
  | .copen d a b c => some (pack 0x5c000000 [(d.toNat, 23), (a.toNat, 20), (b.toNat, 17), (c.toNat, 0)])
  | .cshut d a => some (pack 0x5c000800 [(d.toNat, 23), (a.toNat, 20)])
  | .crsz d a b => some (pack 0x5c001000 [(d.toNat, 23), (a.toNat, 20), (b.toNat, 17)])
  | .crszArm d a b => some (pack 0x5c001001 [(d.toNat, 23), (a.toNat, 20), (b.toNat, 17)])
  | .cqry d a => some (pack 0x5c001800 [(d.toNat, 23), (a.toNat, 20)])
  | .sbind a b s => some (pack 0x60000000 [(a.toNat, 23), (b.toNat, 20), (s.toNat, 0)])
  | .sfree s => some (pack 0x60004000 [(s.toNat, 0)])
  | .spop a s => some (pack 0x60008000 [(a.toNat, 23), (s.toNat, 0)])
  | .spush a r s => some (pack 0x6000c000 [(a.toNat, 23), (r.toNat, 8), (s.toNat, 0)])
  | .scnt a s => some (pack 0x60010000 [(a.toNat, 23), (s.toNat, 0)])
  | .tmov s d b g e => some (pack 0x64000000 [(s.toNat, 24), (d.toNat, 22), (b.toNat, 19), (g.toNat, 13), (e.toNat, 7)])
  | .tmovSq s d b g e => some (pack 0x64000001 [(s.toNat, 24), (d.toNat, 22), (b.toNat, 19), (g.toNat, 13), (e.toNat, 7)])
  | .tldt s d b g e => some (pack 0x68000000 [(s.toNat, 24), (d.toNat, 22), (b.toNat, 19), (g.toNat, 13), (e.toNat, 7)])
  | .srd d r => some (pack 0x6c000000 [(d.toNat, 23), (r.toNat, 8)])
  | .swr a r => some (pack 0x6c000001 [(a.toNat, 20), (r.toNat, 8)])
  | .trap s => some (pack 0x6c000002 [(s.toNat, 8)])
  | .rft => some (pack 0x6c000003 [])
  | .wfe d s => some (pack 0x6c000004 [(d.toNat, 23), (s.toNat, 8)])
  | .brk s => some (pack 0x6c000005 [(s.toNat, 8)])
  | .svc s => some (pack 0x6c000006 [(s.toNat, 8)])
  | .halt => some (pack 0x6c000007 [])
  | .sha a b s k m => some (pack 0x70000000 [(a.toNat, 23), (b.toNat, 20), (s.toNat, 12), (k.toNat, 10), (m.toNat, 0)])
  | .pksign a b s k => some (pack 0x70004000 [(a.toNat, 23), (b.toNat, 20), (s.toNat, 12), (k.toNat, 10)])
  | .pkver a b s => some (pack 0x70008000 [(a.toNat, 23), (b.toNat, 20), (s.toNat, 12)])
  | .rng a b => some (pack 0x7000c000 [(a.toNat, 23), (b.toNat, 20)])
  | .mext b s n => some (pack 0x70010000 [(b.toNat, 20), (s.toNat, 12), (n.toNat, 0)])
  | .mtrq a b s => some (pack 0x70014000 [(a.toNat, 23), (b.toNat, 20), (s.toNat, 12)])
  | .vadd d a b t m => some (pack 0x80000000 [(d.toNat, 21), (a.toNat, 16), (b.toNat, 11), (t.toNat, 4), (m.toNat, 0)])
  | .vsub d a b t m => some (pack 0x80000080 [(d.toNat, 21), (a.toNat, 16), (b.toNat, 11), (t.toNat, 4), (m.toNat, 0)])
  | .vmul d a b t m => some (pack 0x80000100 [(d.toNat, 21), (a.toNat, 16), (b.toNat, 11), (t.toNat, 4), (m.toNat, 0)])
  | .vmin d a b t m => some (pack 0x80000180 [(d.toNat, 21), (a.toNat, 16), (b.toNat, 11), (t.toNat, 4), (m.toNat, 0)])
  | .vmax d a b t m => some (pack 0x80000200 [(d.toNat, 21), (a.toNat, 16), (b.toNat, 11), (t.toNat, 4), (m.toNat, 0)])
  | .vand d a b t m => some (pack 0x80000280 [(d.toNat, 21), (a.toNat, 16), (b.toNat, 11), (t.toNat, 4), (m.toNat, 0)])
  | .vor d a b t m => some (pack 0x80000300 [(d.toNat, 21), (a.toNat, 16), (b.toNat, 11), (t.toNat, 4), (m.toNat, 0)])
  | .vxor d a b t m => some (pack 0x80000380 [(d.toNat, 21), (a.toNat, 16), (b.toNat, 11), (t.toNat, 4), (m.toNat, 0)])
  | .vsh d a b t m => some (pack 0x80000400 [(d.toNat, 21), (a.toNat, 16), (b.toNat, 11), (t.toNat, 4), (m.toNat, 0)])
  | .vclz d a t m => some (pack 0x80000480 [(d.toNat, 21), (a.toNat, 16), (t.toNat, 4), (m.toNat, 0)])
  | .vffs d a t m => some (pack 0x80000500 [(d.toNat, 21), (a.toNat, 16), (t.toNat, 4), (m.toNat, 0)])
  | .vpopc d a t m => some (pack 0x80000580 [(d.toNat, 21), (a.toNat, 16), (t.toNat, 4), (m.toNat, 0)])
  | .vfadd d a b t m => some (pack 0x84000000 [(d.toNat, 21), (a.toNat, 16), (b.toNat, 11), (t.toNat, 4), (m.toNat, 0)])
  | .vfsub d a b t m => some (pack 0x84000080 [(d.toNat, 21), (a.toNat, 16), (b.toNat, 11), (t.toNat, 4), (m.toNat, 0)])
  | .vfmul d a b t m => some (pack 0x84000100 [(d.toNat, 21), (a.toNat, 16), (b.toNat, 11), (t.toNat, 4), (m.toNat, 0)])
  | .vfma d a b t m => some (pack 0x84000180 [(d.toNat, 21), (a.toNat, 16), (b.toNat, 11), (t.toNat, 4), (m.toNat, 0)])
  | .vfmin d a b t m => some (pack 0x84000200 [(d.toNat, 21), (a.toNat, 16), (b.toNat, 11), (t.toNat, 4), (m.toNat, 0)])
  | .vfmax d a b t m => some (pack 0x84000280 [(d.toNat, 21), (a.toNat, 16), (b.toNat, 11), (t.toNat, 4), (m.toNat, 0)])
  | .vexp2 d a t m => some (pack 0x88000000 [(d.toNat, 21), (a.toNat, 16), (t.toNat, 4), (m.toNat, 0)])
  | .vlog2 d a t m => some (pack 0x88000080 [(d.toNat, 21), (a.toNat, 16), (t.toNat, 4), (m.toNat, 0)])
  | .vrcp d a t m => some (pack 0x88000100 [(d.toNat, 21), (a.toNat, 16), (t.toNat, 4), (m.toNat, 0)])
  | .vrsq d a t m => some (pack 0x88000180 [(d.toNat, 21), (a.toNat, 16), (t.toNat, 4), (m.toNat, 0)])
  | .vtanh d a t m => some (pack 0x88000200 [(d.toNat, 21), (a.toNat, 16), (t.toNat, 4), (m.toNat, 0)])
  | .vcmp d a b t m => some (pack 0x8c000000 [(d.toNat, 21), (a.toNat, 16), (b.toNat, 11), (t.toNat, 4), (m.toNat, 0)])
  | .vsel d a b t n => some (pack 0x8c000088 [(d.toNat, 21), (a.toNat, 16), (b.toNat, 11), (t.toNat, 4), (n.toNat, 0)])
  | .vperm d a b t m => some (pack 0x8c000100 [(d.toNat, 21), (a.toNat, 16), (b.toNat, 11), (t.toNat, 4), (m.toNat, 0)])
  | .vbcst d a t m => some (pack 0x8c000180 [(d.toNat, 21), (a.toNat, 16), (t.toNat, 4), (m.toNat, 0)])
  | .vcvt d a p s t m => some (pack 0x8c000200 [(d.toNat, 21), (a.toNat, 16), (p.toNat, 14), (s.toNat, 11), (t.toNat, 4), (m.toNat, 0)])
  | .vext d a b t m => some (pack 0x8c000280 [(d.toNat, 21), (a.toNat, 16), (b.toNat, 11), (t.toNat, 4), (m.toNat, 0)])
  | .vins d a b t m => some (pack 0x8c000300 [(d.toNat, 21), (a.toNat, 16), (b.toNat, 11), (t.toNat, 4), (m.toNat, 0)])
  | .vred d a o t m => some (pack 0x8c000380 [(d.toNat, 21), (a.toNat, 16), (o.toNat, 11), (t.toNat, 4), (m.toNat, 0)])
  | .vld d k m x g o => some (pack 0x90000000 [(d.toNat, 21), (k.toNat, 19), (m.toNat, 13), (x.toNat, 12), (g.toNat, 9), (o.toNat, 0)])
  | .vst d k m x g o => some (pack 0x90020000 [(d.toNat, 21), (k.toNat, 19), (m.toNat, 13), (x.toNat, 12), (g.toNat, 9), (o.toNat, 0)])
  | .vgth d k m v w => some (pack 0x90040000 [(d.toNat, 21), (k.toNat, 19), (m.toNat, 13), (v.toNat, 8), (w.toNat, 6)])
  | .vsct d k m v w => some (pack 0x90060000 [(d.toNat, 21), (k.toNat, 19), (m.toNat, 13), (v.toNat, 8), (w.toNat, 6)])
  | .vmac d a b t m => some (pack 0x94000000 [(d.toNat, 21), (a.toNat, 16), (b.toNat, 11), (t.toNat, 4), (m.toNat, 0)])
  | .vaclr d => some (pack 0x94000080 [(d.toNat, 21)])
  | .vnrw d a t m => some (pack 0x94000100 [(d.toNat, 21), (a.toNat, 16), (t.toNat, 4), (m.toNat, 0)])
  | .mfmt a => some (pack 0x98000000 [(a.toNat, 12)])
  | .mgang a => some (pack 0x98800000 [(a.toNat, 12)])
  | .mma s k l a b => some (pack 0x99000000 [(s.toNat, 19), (k.toNat, 17), (l.toNat, 15), (a.toNat, 12), (b.toNat, 9)])
  | .mmaHold s k l a b => some (pack 0x99000080 [(s.toNat, 19), (k.toNat, 17), (l.toNat, 15), (a.toNat, 12), (b.toNat, 9)])
  | .mmaHb s k a b => some (pack 0x99000100 [(s.toNat, 19), (k.toNat, 17), (a.toNat, 12), (b.toNat, 9)])
  | .mzero s b => some (pack 0x99800000 [(s.toNat, 19), (b.toNat, 9)])
  | .mrd a d => some (pack 0x9a000000 [(a.toNat, 12), (d.toNat, 0)])
  | .mrdRel a d => some (pack 0x9a000080 [(a.toNat, 12), (d.toNat, 0)])
  | .mrel s => some (pack 0x9a800000 [(s.toNat, 19)])
  | .mrcl s => some (pack 0x9b000000 [(s.toNat, 19)])
  | .mstat a d => some (pack 0x9b800000 [(a.toNat, 12), (d.toNat, 0)])
  | .qenc a b s k r => some (pack 0x9c000000 [(a.toNat, 23), (b.toNat, 20), (s.toNat, 12), (k.toNat, 10), (r.toNat, 0)])
  | .qdec a b s k x r => some (pack 0x9c004000 [(a.toNat, 23), (b.toNat, 20), (s.toNat, 12), (k.toNat, 10), (x.toNat, 3), (r.toNat, 0)])
  | .qtrn a b s k => some (pack 0x9c008000 [(a.toNat, 23), (b.toNat, 20), (s.toNat, 12), (k.toNat, 10)])
  | .qscl a b s k x => some (pack 0x9c00c000 [(a.toNat, 23), (b.toNat, 20), (s.toNat, 12), (k.toNat, 10), (x.toNat, 3)])
  | .busyExpiry _ => none
  | .accessReply _ => none
  | .accessAck _ => none
  | .homeAccess _ => none
  | .fetchRefill _ => none
  | .exitComplete _ => none
  | .leaseRelease _ => none
  | .messageArrival _ => none
  | .handlerStart _ _ => none
  | .nack _ => none
  | .emptyReply _ => none
  | .walkDeparture _ => none
  | .walkPacket _ => none
  | .walkAck _ => none
  | .walkFail _ _ => none
  | .walkTimeout _ => none
  | .circuitFlit => none
  | .residueSlot _ _ => none
  | .burstStart _ _ => none
  | .intercalatorRequest => none
  | .configurationFlit => none
  | .configForward _ _ => none
  | .intercalation _ => none
  | .deferredClear _ => none
  | .circuitResult _ => none
  | .lostSlotsFree => none
  | .operandPeriod _ => none
  | .linkTraining _ _ => none
  | .syncMessage _ _ => none
  | .syncInterval _ => none
  | .pdelayReq _ _ => none
  | .pdelayResp _ _ => none
  | .announce _ => none
  | .hostSubmit _ _ => none
  | .taskRecord _ => none
  | .taskPlace _ => none
  | .priorityAging _ => none
  | .taskDispatch _ _ => none
  | .taskCompletion _ _ => none
  | .completionPost _ => none
  | .msixDeferred _ _ => none
  | .twaitQuery _ => none
  | .tkill _ _ _ => none
  | .cqbaseWrite _ _ => none
  | .cqsizeWrite _ _ => none
  | .cqheadWrite _ _ => none
  | .cqEnable _ => none
  | .cqDisable _ => none
  | .mbtxgo _ _ => none
  | .mailboxEntry _ => none
  | .mbrxack _ => none
  | .mbihead _ _ => none
  | .mbogo _ _ => none
  | .rephead _ _ _ => none
  | .replost _ _ => none
  | .trootWrite _ _ _ => none
  | .invalidatePage _ _ => none
  | .invalidateAll _ _ => none
  | .invalidationDone _ => none
  | .pageWalk _ _ => none
  | .gatewaySlot _ => none
  | .gatewayWheelReset _ => none
  | .mwbaseWrite _ _ _ => none
  | .pwrlimWrite _ => none
  | .mgrun _ => none
  | .moveCompletion _ => none
  | .dispatchStart _ => none
  | .dispatchRetire _ => none
  | .gangJoin _ => none
  | .mmaSlotWrite _ => none
  | .impreciseDelivery _ => none
  | .barrierComplete _ _ _ _ => none
  | .barrierTear _ _ _ _ => none
  | .gangStop _ => none
  | .gangResume _ => none
  | .stopSequence _ => none
  | .saveComplete _ => none
  | .partitionLost _ => none
  | .restoreComplete _ => none
  | .resumeSequence _ => none
  | .dieReset _ => none
  | .uncorrectableError _ => none
  | .softError _ _ => none
  | .rcgo => none
  | .reconfigApply => none
  | .deferredEntry _ _ => none
  | .functionLevelReset _ => none
  | .flrComplete _ => none
  | .resetDie _ => none
  | .roll _ => none
  | .selftest _ _ => none
  | .attestationResponse _ _ => none
  | .attestationTimeout _ => none
  | .attestationRetry _ => none
  | .getVersion _ _ => none
  | .getCapabilities _ _ => none
  | .negotiateAlgorithms _ _ => none
  | .getDigests _ _ => none
  | .getCertificate _ _ => none
  | .challenge _ _ => none
  | .getMeasurements _ _ => none
  | .keyExchange _ _ => none
  | .finish _ _ => none
  | .setLinkKey _ _ _ _ _ => none
  | .linkOpen _ _ => none
  | .closeLink _ _ => none
  | .dieOpen _ => none
  | .autoRollover _ => none
  | .keySwitch _ => none
  | .keyErase _ => none
  | .authenticationFailure _ _ => none
  | .doeObject _ => none
  | .doeDeliver => none
  | .doeAbort => none
  | .seal _ => none
  | .unseal _ => none
  | .meterOpen _ => none
  | .meterGrant _ => none
  | .meterSign _ => none
  | .meterClose _ => none
  | .meterHandover _ => none
  | .meterRelease _ => none
  | .meterQuery _ => none
  | .meterSnapshot _ => none
  | .meterSumDelivery _ _ => none
  | .checkpoint => none
  | .dbgHalt _ => none
  | .dbgResume _ => none
  | .dbgStep _ => none
  | .readReg _ => none
  | .writeReg _ => none
  | .readMem _ => none
  | .writeMem _ => none
  | .arm _ => none
  | .bkpt _ => none
  | .crossHalt => none
  | .seizeWrite _ _ _ => none
  | .trclaimWrite _ _ _ _ _ => none
  | .traceTakeover _ _ => none
  | .coldStart => none
  | .warmStart => none
  | .powerLoss => none
  | .lcreq _ => none
  | .powerPeriod => none
  | .issueGate _ => none
  | .registerWrite _ _ _ _ _ => none
  | .doeHostRead _ => none
  | .entropyHealthTest _ => none
  | .farPortLink _ _ _ _ => none

/-- The 32-bit word of an instruction (R362); none for an event. -/
def encode (i : Instr) : Option (BitVec 32) := (encodeNat i).map (BitVec.ofNat 32)

/-- The word of an instruction, zero for an event: what EINFO holds when the instruction is ILLEGAL (R365). -/
def wordOf (i : Instr) : BitVec 32 := BitVec.ofNat 32 ((encodeNat i).getD 0)

/-- The bytes of an instruction as memory holds them (R2, R362). -/
def encodeBytes (i : Instr) : List Byte :=
  match encodeNat i with
  | some w => [BitVec.ofNat 8 w, BitVec.ofNat 8 (w / 2 ^ 8), BitVec.ofNat 8 (w / 2 ^ 16), BitVec.ofNat 8 (w / 2 ^ 24)]
  | none => []

/-- The instruction whose bits the opcode table numbers w (bit 0 the least significant of the first word).
Every instruction is one word (R362), so nbits above 32 or bits beyond the word name none. -/
def decodeTableWord (nbits w : Nat) : Option Instr :=
  if nbits ≤ 32 ∧ w < 2 ^ 32 then
    match decode [BitVec.ofNat 8 w, BitVec.ofNat 8 (w / 2 ^ 8), BitVec.ofNat 8 (w / 2 ^ 16), BitVec.ofNat 8 (w / 2 ^ 24)] with
    | .ok (i, _) => some i
    | .error _ => none
  else none

end Sys2Proof
end

