-- ==== Sys2Proof/Machine/Bits.lean ====
section
/-! DEFINITION. Bit-field, sign-extension and byte-order helpers (00 R2; 16 R381, R382). -/

namespace Sys2Proof.Machine

/-- Bits hi down to lo of a natural number. -/
def bits (x hi lo : Nat) : Nat := x / 2 ^ lo % 2 ^ (hi + 1 - lo)

/-- Bit n of a natural number. -/
def bitN (x n : Nat) : Bool := x / 2 ^ n % 2 == 1

/-- Bits hi down to lo of a word, as a number (R2). -/
def field {w : Nat} (x : BitVec w) (hi lo : Nat) : Nat := bits x.toNat hi lo

/-- One when the condition holds, else zero. -/
def b2n (b : Bool) : Nat := if b then 1 else 0

/-- The 64-bit word of a number. -/
def word (n : Nat) : Word := BitVec.ofNat 64 n

/-- The low n bits of v as a signed number (SignExt of R382, read as an integer). -/
def sext (v n : Nat) : Int :=
  if v % 2 ^ n < 2 ^ (n - 1) then (v % 2 ^ n : Nat) else (v % 2 ^ n : Nat) - (2 ^ n : Nat)

/-- The value of an integer modulo 2^w, as a natural number (R381: a register keeps its low bits). -/
def wrap (w : Nat) (x : Int) : Nat := (x % (2 ^ w : Nat)).toNat

/-- SignExt of R382 to 64 bits. -/
def signExt (v n : Nat) : Word := word (wrap 64 (sext v n))

/-- A little-endian list of bytes as a number (R2). -/
def leNat : List Byte → Nat
  | [] => 0
  | b :: bs => b.toNat + 256 * leNat bs

/-- The n low bytes of a number, little-endian (R2). -/
def leBytes : Nat → Nat → List Byte
  | 0, _ => []
  | n + 1, v => BitVec.ofNat 8 v :: leBytes n (v / 256)

/-- The n low bytes of a number, big-endian. -/
def beBytes (n v : Nat) : List Byte := (leBytes n v).reverse

/-- A big-endian list of bytes as a number. -/
def beNat (bs : List Byte) : Nat := leNat bs.reverse

/-- ⌈a / b⌉ for b ≥ 1. -/
def ceilDiv (a b : Nat) : Nat := (a + b - 1) / b

/-- A piece of a byte list. -/
def slice (bs : List Byte) (start n : Nat) : List Byte := (bs.drop start).take n

/-- The little-endian number in a piece of a byte list. -/
def sliceNat (bs : List Byte) (start n : Nat) : Nat := leNat (slice bs start n)

/-- The pieces of at most g bytes, none crossing a multiple of g, that make up a span (R162, R223; log 12). -/
def pieces (g : Nat) : Nat → Nat → Nat → List (Nat × Nat)
  | 0, _, _ => []
  | fuel + 1, addr, size =>
    if size = 0 then [] else
    let n := min size (g - addr % g)
    (addr, n) :: pieces g fuel (addr + n) (size - n)

/-- The pieces of a span in 64-byte lines. -/
def linePieces (addr size : Nat) : List (Nat × Nat) := pieces 64 (size / 64 + 2) addr size

end Sys2Proof.Machine
end

