-- ==== Sys2Proof/Machine/Flags.lean ====
section
/-! DEFINITION. Number formats, rounding and the floating-point flags (06 R165 to R186). A finite value is
held exactly as a sign, a natural mantissa and a binary exponent. Flags are a mask in the order of FPST:
NV 1, DZ 2, OF 4, UF 8, NX 16 (R172). -/

namespace Sys2Proof.Machine

/-- A floating-point format of R165: exponent and mantissa widths, and how it treats its top exponent:
0 as IEEE 754, 1 E4M3, 2 E2M1. -/
structure Fmt where
  ew : Nat
  fw : Nat
  top : Nat
  deriving DecidableEq, Repr, Inhabited

def fmt64 : Fmt := ⟨11, 52, 0⟩
def fmt32 : Fmt := ⟨8, 23, 0⟩
def fmt16 : Fmt := ⟨5, 10, 0⟩
def fmtBf : Fmt := ⟨8, 7, 0⟩
def fmtE4M3 : Fmt := ⟨4, 3, 1⟩
def fmtE5M2 : Fmt := ⟨5, 2, 0⟩
def fmtE2M1 : Fmt := ⟨2, 1, 2⟩

/-- Bias, and the least exponent of a normal value (R165). -/
def fmtBias (f : Fmt) : Nat := 2 ^ (f.ew - 1) - 1
def fmtEmin (f : Fmt) : Int := 1 - (fmtBias f : Int)

/-- A value: NaN, an infinity, or ±m × 2^e exactly. -/
inductive FpVal where
  | nan
  | inf (neg : Bool)
  | fin (neg : Bool) (m : Nat) (e : Int)
  deriving DecidableEq, Repr, Inhabited

def flagNV : Nat := 1
def flagDZ : Nat := 2
def flagOF : Nat := 4
def flagUF : Nat := 8
def flagNX : Nat := 16

/-- The canonical NaN of a format (R165, R171). -/
def canonNaN (f : Fmt) : Nat :=
  match f.top with
  | 1 => 0x7F
  | 2 => 0
  | _ => (2 ^ f.ew - 1) * 2 ^ f.fw + 2 ^ (f.fw - 1)

/-- The value of a code (R166). -/
def fpDecode (f : Fmt) (c : Nat) : FpVal :=
  let neg := bitN c (f.ew + f.fw)
  let e := bits c (f.ew + f.fw - 1) f.fw
  let m := c % 2 ^ f.fw
  if f.top = 0 ∧ e = 2 ^ f.ew - 1 then (if m = 0 then .inf neg else .nan)
  else if f.top = 1 ∧ e = 15 ∧ m = 7 then .nan
  else if e = 0 then .fin neg m (fmtEmin f - f.fw)
  else .fin neg (2 ^ f.fw + m) (e - fmtBias f - f.fw)

/-- The code of an infinity (R165). -/
def infCode (f : Fmt) (neg : Bool) : Nat := b2n neg * 2 ^ (f.ew + f.fw) + (2 ^ f.ew - 1) * 2 ^ f.fw

/-- The code of the largest finite value of a sign (R165). -/
def maxCode (f : Fmt) (neg : Bool) : Nat :=
  b2n neg * 2 ^ (f.ew + f.fw) +
    (match f.top with
     | 1 => 0x7E
     | 2 => 7
     | _ => (2 ^ f.ew - 2) * 2 ^ f.fw + (2 ^ f.fw - 1))

/-- The overflow result (R170) for a sign, a mode and saturation. -/
def overflowCode (f : Fmt) (mode : Nat) (sat neg : Bool) : Nat :=
  let toMax := maxCode f neg
  let toInf := if f.top = 1 then 0x7F else infCode f neg
  if sat ∨ f.top = 2 then toMax
  else match mode with
    | 1 => toMax
    | 2 => if neg then toMax else toInf
    | 3 => if neg then toInf else toMax
    | _ => toInf

/-- The quotient of m by 2^sh, rounded in a mode for a sign, and whether it is inexact (R168). -/
def roundShift (m sh mode : Nat) (neg : Bool) : Nat × Bool :=
  let q := m / 2 ^ sh
  let r := m % 2 ^ sh
  if r = 0 then (q, false)
  else
    let up :=
      match mode with
      | 0 => decide (2 ^ sh < 2 * r) || (decide (2 * r = 2 ^ sh) && q % 2 == 1)
      | 1 => false
      | 2 => !neg
      | 3 => neg
      | _ => decide (2 ^ sh ≤ 2 * r)
    (if up then q + 1 else q, true)

/-- Step 3 of R169 for a non-zero value: the mantissa and exponent of the chosen neighbour, and inexactness. -/
def roundFin (f : Fmt) (mode : Nat) (neg : Bool) (m : Nat) (e : Int) : Nat × Int × Bool :=
  let lg : Int := (Nat.log2 m : Nat) + e
  let k := max lg (fmtEmin f) - f.fw
  if k ≤ e then (m * 2 ^ (e - k).toNat, k, false)
  else
    let (q, nx) := roundShift m (k - e).toNat mode neg
    (q, k, nx)

/-- The magnitude q × 2^k exceeds the largest finite value (R169 step 4). -/
def tooLarge (f : Fmt) (q : Nat) (k : Int) : Bool :=
  match fpDecode f (maxCode f false) with
  | .fin _ m e => if e ≤ k then decide (m < q * 2 ^ (k - e).toNat) else decide (m * 2 ^ (e - k).toNat < q)
  | _ => false

/-- The code of q × 2^k, which fits the format. -/
def packFp (f : Fmt) (neg : Bool) (q : Nat) (k : Int) : Nat :=
  let s := b2n neg * 2 ^ (f.ew + f.fw)
  if q = 0 then s
  else
    let (q, k) := if q = 2 ^ (f.fw + 1) then (2 ^ f.fw, k + 1) else (q, k)
    if q < 2 ^ f.fw then s + q
    else s + (k + f.fw + fmtBias f).toNat * 2 ^ f.fw + (q - 2 ^ f.fw)

/-- Round of R169: the code and the flags. -/
def round (f : Fmt) (mode : Nat) (sat : Bool) : FpVal → Nat × Nat
  | .nan => (canonNaN f, 0)
  | .inf neg => if f.top = 0 then (infCode f neg, 0) else (overflowCode f mode sat neg, flagNV)
  | .fin neg m e =>
    if m = 0 then (b2n neg * 2 ^ (f.ew + f.fw), 0)
    else
      let (q, k, nx) := roundFin f mode neg m e
      if tooLarge f q k then (overflowCode f mode sat neg, flagOF + flagNX)
      else
        let tiny := decide ((Nat.log2 m : Nat) + e < fmtEmin f)
        (packFp f neg q k, (if nx then flagNX else 0) + (if nx ∧ tiny then flagUF else 0))

/-- A signed mantissa as an exact value. -/
def ofInt (x : Int) (e : Int) (negZero : Bool) : FpVal :=
  if x = 0 then .fin negZero 0 0 else .fin (decide (x < 0)) x.natAbs e

/-- The mantissa of a finite value at an exponent not above its own. -/
def scaledTo (neg : Bool) (m : Nat) (e e0 : Int) : Int :=
  let v : Int := (m * 2 ^ (e - e0).toNat : Nat)
  if neg then -v else v

/-- The exact sum, and NV for ∞ − ∞ (R171). A zero sum is −0 only when both terms are −0 (R34, R184). -/
def fpAdd : FpVal → FpVal → FpVal × Nat
  | .nan, _ => (.nan, 0)
  | _, .nan => (.nan, 0)
  | .inf a, .inf b => if a = b then (.inf a, 0) else (.nan, flagNV)
  | .inf a, .fin _ _ _ => (.inf a, 0)
  | .fin _ _ _, .inf b => (.inf b, 0)
  | .fin na ma ea, .fin nb mb eb =>
    let e := min ea eb
    (ofInt (scaledTo na ma ea e + scaledTo nb mb eb e) e (na && nb && ma == 0 && mb == 0), 0)

/-- The negation. -/
def fpNeg : FpVal → FpVal
  | .nan => .nan
  | .inf a => .inf (!a)
  | .fin n m e => .fin (!n) m e

/-- The exact product, and NV for 0 × ∞ (R171). -/
def fpMul : FpVal → FpVal → FpVal × Nat
  | .nan, _ => (.nan, 0)
  | _, .nan => (.nan, 0)
  | .inf a, .inf b => (.inf (a != b), 0)
  | .inf a, .fin n m _ => if m = 0 then (.nan, flagNV) else (.inf (a != n), 0)
  | .fin n m _, .inf a => if m = 0 then (.nan, flagNV) else (.inf (a != n), 0)
  | .fin na ma ea, .fin nb mb eb => (.fin (na != nb) (ma * mb) (ea + eb), 0)

/-- a < b in the order that puts −0 below +0 (R34, R186); no NaN. -/
def fpBelow : FpVal → FpVal → Bool
  | .inf a, .inf b => a && !b
  | .inf a, .fin _ _ _ => a
  | .fin _ _ _, .inf b => !b
  | .fin na ma ea, .fin nb mb eb =>
    let e := min ea eb
    let x := scaledTo na ma ea e
    let y := scaledTo nb mb eb e
    decide (x < y) || (x == 0 && y == 0 && na && !nb)
  | _, _ => false

/-- Numeric comparison of two values that are no NaN, for VCMP: −0 equals +0 (R485). -/
def fpLtNum : FpVal → FpVal → Bool
  | .inf a, .inf b => a && !b
  | .inf a, .fin _ _ _ => a
  | .fin _ _ _, .inf b => !b
  | .fin na ma ea, .fin nb mb eb =>
    let e := min ea eb
    decide (scaledTo na ma ea e < scaledTo nb mb eb e)
  | _, _ => false

def fpIsNaN : FpVal → Bool
  | .nan => true
  | _ => false

/-- Minimum or maximum of two codes of a format (R33, R34, R186). -/
def fpMinMax (f : Fmt) (isMax : Bool) (a b : Nat) : Nat :=
  let x := fpDecode f a
  let y := fpDecode f b
  if fpIsNaN x || fpIsNaN y then canonNaN f
  else if isMax then (if fpBelow x y then b else a) else (if fpBelow y x then b else a)

/-- The sum of two codes, rounded once (R33, R385, R489): code and flags. -/
def fpAddCodes (f : Fmt) (mode a b : Nat) : Nat × Nat :=
  let (v, fl) := fpAdd (fpDecode f a) (fpDecode f b)
  let (c, fl') := round f mode false v
  (c, fl ||| fl')

/-- Rounding an exact value to an integer in a mode; inexactness (R169, R173). -/
def roundInt (mode : Nat) (neg : Bool) (m : Nat) (e : Int) : Int × Bool :=
  let (q, nx) := if 0 ≤ e then (m * 2 ^ e.toNat, false) else roundShift m (-e).toNat mode neg
  (if neg then -(q : Int) else q, nx)

end Sys2Proof.Machine
end

