-- ==== Sys2Proof/Config.lean ====
section
/-! DEFINITION. What an implementation fixes and what the spec leaves open. Each free value is an opaque
constant without a body: no proof can see it, so what is proved of the machine holds whatever it is. -/

namespace Sys2Proof.Config

/-- A latency that 08 R222 leaves open, for the n-th draw of the run (log 5). -/
opaque delay : Nat → Nat

/-- How many bytes of a piece of a BYTE-form move are performed in one cycle, less one (R223), per draw (log 5). -/
opaque tear : Nat → Nat

/-- Whether a block write that is on its way has partly reached its home at a stop (R238), per draw (log 5). -/
opaque partlyThere : Nat → Bool

/-- Whether a response that a die gives, when it has left one unanswered in an earlier attempt, is that one (R303), per draw (log 5). -/
opaque lateAnswer : Nat → Bool

/-- The Root trap code capability of a core, and that of the management core's H level, which firmware installs (R255; log 87). -/
opaque rootTrap : Nat → BitVec 128

/-- Which of the free circuit handles a request takes (R525): its position among them, per draw (log 5). -/
opaque pickCid : Nat → Nat

/-- Where the results of a special function turn from one FP32 value to the next (R189): by function and the lower
of the two neighbours, the first operand, in rising order, from which a rising function returns the upper neighbour,
or from which a falling one returns the lower (log 8). -/
opaque sfuSplit : Nat → Nat → Int

/-- 384 bits of the physical entropy source, per seeding of the generator (R450; log 109). -/
opaque entropy : Nat → BitVec 384

/-- A random byte of a die's security controller (R302), per draw (log 9). -/
opaque randomByte : Nat → BitVec 8

/-- The link secret that the session of two packages' root cores gives, by link and draw (R321; log 110). -/
opaque sessionSecret : Nat → Nat → BitVec 256

/-- The modulus, the private exponent and the chain digest of the package identity key (R437, R306; log 9). -/
opaque packageModulus : Nat
opaque packageExponent : Nat
opaque packageChain : List (BitVec 8)

/-- What die d's security controller holds (R294; log 9): its unique secret, its identity key pair as it is held wrapped under that
secret, the modulus and the private exponent of that pair, and the bytes of its certificate store, of which the first 16 KiB are the
chain (R306). -/
opaque dieSecret : Nat → BitVec 256
opaque dieWrapped : Nat → List (BitVec 8)
opaque dieModulus : Nat → Nat
opaque dieExponent : Nat → Nat
opaque dieChain : Nat → List (BitVec 8)

/-- A byte of a die's KEY_EXCHANGE_RSP and FINISH_RSP after their code, which only the session's secrets decide (R302),
per draw (log 9). -/
opaque sessionByte : Nat → BitVec 8

/-- The measurement of die d's controller firmware (R299, R310; log 9). -/
opaque dieMeasurement : Nat → BitVec 256

/-- The certificate of the Seonaolo root CA, and the object identifier of the extension that lists key hashes (R295; log 113). -/
opaque rootCaCert : List (BitVec 8)
opaque keyListOid : List (BitVec 8)

/-- The images that the root firmware stages: 0 the management image, 1 the fuse and debug record, 2 the die reference values
(R519; log 7). -/
opaque stagedImage : Nat → List (BitVec 8)

/-- The finished keys of a session, the responder's and the requester's, which only its secrets decide (R302), per draw (log 9). -/
opaque sessionKey : Nat → BitVec 256

/-- The hash of a MEASUREMENTS response that has been altered on its way (R302), per draw (log 10). -/
opaque alteredResponse : Nat → BitVec 256

/-- The device's PCI vendor ID (R304; log 9). -/
opaque vendorId : BitVec 16

/-- The modulus of the package key with a given hash, when a package chain that ends at the Seonaolo root CA shows it
(R334; log 10). -/
opaque peerModulus : BitVec 256 → Option Nat

/-- The package number of the peer at a package link, as its n-th training shows it (R60; log 10). -/
opaque peerPackage : Nat → Nat → Nat

/-- After how many Sync messages, one added, an Announce is sent (R61; log 75). -/
opaque announceEvery : Nat

/-- The flit that the peer sends at a package link's position, by link, position and the slot in which it arrives, if it sends
one (R58; log 10). -/
opaque peerFlit : Nat → Nat → Nat → Option (BitVec 512)

/-- Whether the n-th checkpoint write to flash fails (R331, R332; log 5). -/
opaque flashFails : Nat → Bool

/-- A byte of a saved context, whose contents are opaque (R277), per draw (log 9). -/
opaque contextByte : Nat → BitVec 8

/-- The tile in die d at which its gateway, task unit and registers join the residue (R133; log 11). -/
opaque blockTile : Nat → Nat

/-- Whether a step of a start fails (R351), by draw; and whether the image that a start reads from flash fails its
authentication (R331; log 10). -/
opaque startFails : Nat → Bool
opaque imageFails : Nat → Bool

/-- The SHA-256 of the root firmware image that a start measures, by the draw of the start (R309; log 7). -/
opaque imageDigest : Nat → BitVec 256

/-- The firmware security version (R309; log 9). -/
opaque securityVersion : Nat → BitVec 32

/-- Where the code of the management firmware lies in its image and how long it is, in words (R65; log 7). -/
opaque mgmtCode : Nat
opaque mgmtLength : Nat

/-- The package serial number and the modulus of the Thirov product CA key (R356; log 9). -/
opaque packageSerial : BitVec 256
opaque productModulus : BitVec 3072

/-- The host link's width and the virtual functions that the host has enabled, by draw (R131; log 10). -/
opaque hostWidth : Nat → Nat
opaque hostVfs : Nat → Nat

/-- What the sensors measure at a power period: the hottest junction of a die in degrees, and the tokens that the I/O die used,
by draw; and a die's share when no die demanded a token (R358, R360; log 9). -/
opaque sensor : Nat → Nat
opaque ioTokens : Nat → Nat
opaque idleShare : Nat → Nat

/-- The activity coefficient, in power tokens, of a vector start (1), an MMA service (2), a circuit flit (3) and a residue flit (4)
that a tile sends (R359; log 9). -/
opaque activity : Nat → Nat

end Sys2Proof.Config
end

