-- ==== Sys2Proof/Machine/State.lean ====
section
/-! DEFINITION. The state of the whole package as plain data: every piece of state the spec names, each in
one place. Tables are lists of key and value in which an unlisted key holds the default of its type (the
reset value). Times are absolute slots (wheel × 1,024 + slot, R3). `State.reset` is the machine right after
reset. The reset values that the spec does not give are those of log 1, 2, 4 and 5. -/

namespace Sys2Proof.Machine

/-- How a run stops. -/
inductive Fault where
  /-- Raised by step when the package has lost power and no input restores it (R351; log 4). Safe: the
  machine does nothing in that state. -/
  | powerOff
  deriving DecidableEq, Repr

/-- Why an instruction has no meaning. -/
inductive Refusal where
  /-- Raised by a dispatch arm whose instruction is not modelled yet, by its mnemonic. Safe: the run stops. -/
  | notModelled (mnemonic : String)
  deriving DecidableEq, Repr

/-! ## Capabilities, fibres and accesses -/

/-- A capability: 128 bits and the hidden tag (R134). -/
structure Cap where
  bits : BitVec 128
  tag : Bool
  deriving DecidableEq, Repr, Inhabited

/-- The null capability: all bits zero and the tag clear (R75). -/
def Cap.null : Cap := ⟨0, false⟩

/-- The states of a run-queue slot but STOPPED, which `Fibre.stopped` adds to the saved state (R67). -/
inductive SlotState where
  | free | ready | busy | parked
  deriving DecidableEq, Repr, Inhabited

/-- The home of an address (R132): memory with its physical address, a gateway with the address it
translates, or a register block. -/
inductive Home where
  | mem (pa : Nat)
  | gateway (gw va : Nat)
  | reg (die block off : Nat)
  deriving DecidableEq, Repr, Inhabited

/-- What ends the wait of a parked fibre and what is then done (R70). -/
inductive Cont where
  /-- not parked, or parked for nothing -/
  | none
  /-- issue the instruction at PC again (R70: ACK at OUTS = 16, ENG, LEASE, STRM) -/
  | retry
  /-- LD, LDK, returning AMO, ACAS: the reply of this access (R72) -/
  | access (id : Nat)
  /-- a posted access to spaces 4 to 6: the gateway's acceptance of this access (R71) -/
  | accept (id : Nat)
  /-- the reads of this instruction's operand block; then its second part (R446, R108, R49, R464) -/
  | gather (i : Instr)
  /-- FENCE.REL with its scope, FENCE.X without (R229) -/
  | fence (scope : Option Word)
  /-- IFENCE (R230) -/
  | ifence
  /-- a release with scope PART, then the effect of this instruction on these bytes (R228) -/
  | release (i : Instr) (data : List Byte)
  /-- FEXIT before the lease is released (R77) -/
  | exit
  /-- the release of the vector lease; true within FEXIT (R84) -/
  | leaseDrop (exiting : Bool)
  /-- a walk before its packet leaves (R88 step 1): the space and the home of its access -/
  | walkWait (space : Nat) (h : Home)
  /-- a walk packet under way (R88) -/
  | walking (id : Nat)
  /-- BARW: destination, token, barrier (R248) -/
  | bar (d : BitVec 3) (tok n : Nat)
  /-- SEMP: destination, semaphore (R252) -/
  | sem (d : BitVec 3) (n : Nat)
  /-- SPOP: destination, stream register (R467) -/
  | spop (a s : BitVec 3)
  /-- SPUSH: source, stream register (R468) -/
  | spush (a s : BitVec 3)
  /-- COPEN, CSHUT, CRSZ, CQRY: destination (R47, R52) -/
  | circ (d : BitVec 3)
  /-- the vector lease, then the instruction again (R82) -/
  | lease
  /-- TASKQ: destination (R108) -/
  | taskq (d : BitVec 3)
  /-- TWAIT: destination and query (R109) -/
  | task (d : BitVec 3) (id : Nat)
  /-- WFE: destination and selector (R500) -/
  | wfe (d : BitVec 3) (sel : Nat)
  /-- TMOV, TLDT: the translation of both spans of this move (R150) -/
  | move (id : Nat)
  /-- VEXT, MSTAT: destination and dispatch number (R197) -/
  | dispatch (d : BitVec 3) (seq : Nat)
  /-- MTRQ: destination and request (R433) -/
  | mtrq (d : BitVec 3) (id : Nat)
  /-- a fetch-buffer refill (R70) -/
  | fetch
  deriving DecidableEq, Repr, Inhabited

/-- A pending imprecise fault (R263). -/
structure PendFault where
  cause : Nat
  einfo : Word
  seq : Nat
  deriving DecidableEq, Repr, Inhabited

/-- A fibre in its run-queue slot (R63 to R67, R257). -/
structure Fibre where
  /-- R67; `stopped` adds STOPPED -/
  status : SlotState := .free
  stopped : Bool := false
  /-- the first cycle in which a READY fibre is eligible (R68, R69) -/
  readyFrom : Nat := 0
  pc : Word := 0
  g : List Word := [0, 0, 0, 0, 0, 0, 0, 0]
  k : List Cap := [.null, .null, .null, .null]
  code : Cap := .null
  /-- the 64-byte fetch buffer: the address of its line and its bytes (R64, R230) -/
  fbuf : Option (Nat × List Byte) := .none
  /-- FST fields (R66) -/
  tdie : Nat := 0
  taskix : Nat := 0
  pl : Nat := 0
  trap : Bool := false
  vl : Bool := false
  msg : Bool := false
  rpl : Bool := false
  outs : Nat := 0
  park : Nat := 0
  walks : Nat := 0
  /-- the fibre counts towards its task's completion (R79, R110) -/
  inTask : Bool := false
  /-- trap frame (R257) -/
  cause : Word := 0
  epc : Word := 0
  einfo : Word := 0
  ppl : Nat := 0
  imp : Bool := false
  lostf : Bool := false
  eseq : Nat := 0
  savedCode : Cap := .null
  /-- ORD and SEQ of the fibre's task (R373) -/
  taskseq : Word := 0
  /-- the event latch (R500) -/
  latch : Nat := 0
  /-- R263, R264 -/
  pendFault : Option PendFault := .none
  pendStop : Bool := false
  /-- an uncorrectable error in the fibre's registers, and that a save has marked it as poison (R268, R279) -/
  pendUe : Bool := false
  ueSaved : Bool := false
  cont : Cont := .none
  /-- bytes that the reads of an operand block have returned, by address (R446) -/
  buf : List (Nat × List Byte) := []
  /-- created by a message of the request network (R81) -/
  request : Bool := false
  /-- the waiting of the request for which it is parked (R349) -/
  delay : Nat := 0
  /-- the instruction at PC waits with OUTS = 16; it proceeds before a pending fault is delivered (R71, R263) -/
  again : Bool := false
  /-- the instruction at PC has been counted as issued and is picked again (R345) -/
  counted : Bool := false
  /-- it ends by a double trap: nothing pending is delivered to it (R258) -/
  ending : Bool := false
  /-- where its REPLY goes: the requester's core and its entry (R447) -/
  replyTo : Option (CoreId × Nat) := .none
  /-- the extensions for which its load has waited have taken effect (R421) -/
  measured : Bool := false
  deriving DecidableEq, Repr, Inhabited

/-- What an access does at its home (R221) and with its reply. -/
inductive AccOp where
  /-- LD: destination, size code (R411) -/
  | load (d : BitVec 3) (size : Nat)
  /-- LDK (R414) -/
  | loadCap (c : BitVec 2) (keepTag : Bool)
  /-- ST (R471) -/
  | store (bytes : List Byte)
  /-- `st.n`: the nibble and its half (R240) -/
  | nibble (hi : Bool) (v : Nat)
  /-- STK (R473) -/
  | storeCap (c : Cap)
  /-- AMO and ACAS: destination when returning, op code of R384, operand, comparand (R385) -/
  | atomic (d : Option (BitVec 3)) (op : Nat) (v cmp : Nat)
  /-- a piece of an operand block that a scalar instruction reads (R382 Read) -/
  | piece
  /-- a fetch-buffer line (R70) -/
  | fetch
  /-- lanes that a vector or shape instruction reads: dispatch number (R492) -/
  | laneRead (seq : Nat)
  /-- bytes that a vector or shape instruction writes (R492) -/
  | laneWrite (seq : Nat) (bytes : List Byte)
  /-- a unit that a tile move reads: move and unit (R151) -/
  | moveRead (mv unit : Nat)
  /-- a unit that a tile move writes (R151) -/
  | moveWrite (mv unit : Nat) (bytes : List Byte)
  /-- the translation of a page or granule of a move's span; true for its destination (R150) -/
  | moveCheck (mv : Nat) (dst : Bool)
  /-- the translation of a page that a vector or shape instruction touches: dispatch number (R158, R266) -/
  | laneCheck (seq : Nat)
  deriving DecidableEq, Repr, Inhabited

/-- Where an access stands (R221, R162). -/
inductive AccStage where
  /-- on its way to its home -/
  | sent
  /-- at a gateway, waiting for a walk -/
  | walking
  /-- translated and checked, waiting for service units -/
  | queued
  /-- some bytes of a piece of a BYTE-form move have been performed (R223) -/
  | begun
  /-- performed; its reply or acknowledgement is on its way -/
  | performed
  deriving DecidableEq, Repr, Inhabited

/-- An access under way (R221 to R225). -/
structure Access where
  who : FibreRef
  /-- the partition of its fibre; 63 on a service core -/
  part : Nat
  op : AccOp
  space : Nat
  /-- the address in its space (R121) -/
  va : Nat
  size : Nat
  /-- the physical address (log 3), once known -/
  pa : Option Nat
  meter : Nat
  atRoot : Bool
  posted : Bool
  stage : AccStage
  /-- not performed before this cycle (R222) -/
  due : Nat
  /-- what the reply carries: bytes and tag, or a cause and its EINFO -/
  reply : List Byte
  replyTag : Bool
  fault : Option (Nat × Word)
  /-- the waiting that DLYACC counts, and its class (R349) -/
  wait : Nat
  dclass : Nat
  /-- sent again to the gateway to be merged on its way (R39) -/
  router : Bool
  /-- the capability register that named its address (R144) -/
  kn : Nat := 0
  /-- atomics that have merged into it, to be acknowledged with it (R39) -/
  merged : List Nat := []
  /-- the physical pieces of a block that lies on several pages, all performed at once (R223, R440) -/
  pieces : List (Nat × Nat) := []
  /-- bytes of a piece of a BYTE-form move that met an error when they were read, by offset (R153) -/
  holes : List Nat := []
  deriving DecidableEq, Repr, Inhabited

/-! ## Cores -/

/-- A message in flight or in a receive queue (R78). -/
structure Message where
  src : FibreRef
  srcPart : Nat
  dst : CoreId
  handler : Word
  words : List Word
  reply : Bool
  /-- a reply reservation is held at the sender (R79) -/
  reserved : Bool
  /-- the sender's send-queue entry; for a reply, the requester's -/
  entry : Nat
  /-- TDIE, TASKIX and TASKSEQ of its handler: of the task that held the receiving core when it was accepted (R79) -/
  tdie : Nat := 0
  taskix : Nat := 0
  taskseq : Word := 0
  deriving DecidableEq, Repr, Inhabited

/-- A stream register (R454). On the root core the FIFO of s0 and s1 holds dwords (R456). -/
structure Stream where
  bound : Bool := false
  inj : Bool := false
  cid : Nat := 0
  n : Nat := 1
  fifo : List (BitVec 512) := []
  /-- the cycle from which each flit of a receive FIFO is visible (R29), or from which an injection flit may leave -/
  seen : List Nat := []
  /-- words pushed into the flit being filled, or popped from the oldest flit -/
  part : List Word := []
  popped : Nat := 0
  miss : Bool := false
  lost : Bool := false
  deriving DecidableEq, Repr, Inhabited

/-- A core's view of a named barrier (R243). -/
structure Barrier where
  phase : Nat := 0
  ahead : Nat := 0
  arr : Nat := 0
  en : Bool := false
  count : Nat := 0
  kinds : Nat := 0
  scope : Word := 0
  /-- the old configurations, scope and kinds, of tears that are under way and reach this core (R249) -/
  torn : List (Word × Nat) := []
  deriving DecidableEq, Repr, Inhabited

/-- The state of a dispatch-ring entry (R262). -/
structure RingEntry where
  word : BitVec 32 := 0
  addr : Nat := 0
  seq : Nat := 0
  valid : Bool := false
  state : Nat := 0
  fibre : Nat := 0
  deriving DecidableEq, Repr, Inhabited

/-- A cached translation (R158): page base, size code, attribute and permissions, physical base. -/
structure Xlat where
  part : Nat
  space : Nat
  va : Nat
  sz : Nat
  attr : Nat
  pr : Bool
  pw : Bool
  pa : Nat
  deriving DecidableEq, Repr, Inhabited

/-- A dispatched instruction (R195): its operands as its fibre held them at issue. -/
structure Disp where
  seq : Nat
  slot : Nat
  i : Instr
  pc : Word
  g : List Word
  k : List Cap
  pl : Nat
  /-- the cycle in which it started, and that in which its results are ready and it may retire -/
  startAt : Nat := 0
  doneAt : Nat := 0
  /-- what it writes to registers at its retirement: v n, 32 + a n, 40 + m n -/
  wr : List (Nat × BitVec 2048) := []
  /-- the active lanes of a vector memory form: lane and address -/
  lanes : List (Nat × Nat) := []
  /-- what it writes to memory at its retirement: address, physical pieces, bytes -/
  out : List (Nat × List (Nat × Nat) × List Byte) := []
  /-- flags it ORs into FPST at retirement (R172) -/
  flags : Nat := 0
  /-- reads not yet answered (R492) -/
  reads : Nat := 0
  /-- bytes its reads returned, by address -/
  buf : List (Nat × List Byte) := []
  /-- the word that VEXT or MSTAT returns (R197) -/
  result : Word := 0
  /-- its accumulator slot becomes FREE at its retirement (R198, R215) -/
  frees : Bool := false
  /-- a fault found at its start or by a read (R198) -/
  fault : Option (Nat × Word) := none
  /-- the lane of that fault (R267) -/
  flane : Nat := 0
  /-- the translations it uses, each with its gateway (R158); pages asked of their gateways, as space, gateway and page; those whose walk failed; and
  how many have not answered (R266) -/
  xs : List (Nat × Xlat) := []
  asked : List (Nat × Nat × Nat) := []
  bad : List (Nat × Nat × Nat) := []
  checks : Nat := 0
  deriving DecidableEq, Repr, Inhabited

/-- A core (R373, R193, R195). -/
structure Core where
  /-- the slot that issued most recently (R68) -/
  last : Nat := 255
  fpst : Nat := 0
  /-- TVEC of S, H and Root, and the trap code capabilities of S and H (R255); for that of Root see `State.trapCap` -/
  tvec : List Word := [0, 0, 0]
  tcap : List Cap := [.null, .null]
  mhlo : Word := 1
  mhhi : Word := 0
  mhcap : Cap := .null
  nack : Bool := false
  /-- occupied send-queue entries, each with its reply reservation if it has one (R462) -/
  sends : List (Nat × Bool) := []
  recvReq : List Message := []
  recvRep : List Message := []
  dropped : Nat := 0
  /-- the slot that holds the vector lease, and the waiting slots in order (R82) -/
  lease : Option Nat := .none
  leaseWait : List Nat := []
  rsel : Nat := 0
  dispNo : Nat := 0
  ring : List (Nat × RingEntry) := []
  /-- DLYACC: sum and count (R350) -/
  dly : List (Nat × (Nat × Nat)) := []
  bars : List (Nat × Barrier) := []
  geom : List (Nat × Word) := []
  streams : List (Nat × Stream) := []
  /-- fibres parked on a stream register, in the order in which they parked: register and slot (R467) -/
  strmWait : List (Nat × Nat) := []
  /-- SEM of a service core (R251), as COUNT and OVF -/
  sems : List (Nat × (Nat × Bool)) := []
  semWait : List (Nat × FibreRef) := []
  v : List (Nat × BitVec 1024) := []
  a : List (Nat × BitVec 2048) := []
  m : List (Nat × BitVec 32) := []
  /-- the v, a and m registers that hold an uncorrectable error, by key: v n, 32 + a n, 40 + m n (R268, R481) -/
  regUe : List Nat := []
  /-- the dispatch queue in dispatch order (R195), and what has started and not retired -/
  disp : List Disp := []
  running : List Disp := []
  /-- the cycle from which the special-function or shape unit and the memory unit are free (R219, R440) -/
  sfuFree : Nat := 0
  memFree : Nat := 0
  /-- moves in the move queue, in issue order (R150) -/
  moves : List Nat := []
  halted : Bool := false
  /-- the target fibre of a debug STEP (R341) -/
  step1 : Option Nat := .none
  deriving DecidableEq, Repr, Inhabited

/-! ## Tiles, routers and circuits -/

/-- A slot-table entry of the form of R26. -/
abbrev Entry := BitVec 32

/-- An entry at reset, and a cleared one: V 0 and PTAG 63 (R26). -/
def Entry.reset : Entry := 0x0FC00000

/-- A circuit flit in a router (R25, R35). -/
structure CFlit where
  data : BitVec 512
  empty : Bool
  miss : Bool
  cid : Nat
  part : Nat
  deriving DecidableEq, Repr, Inhabited

/-- A request to the Intercalator (R44): 0 COPEN, 1 CSHUT, 2 CRSZ, 3 CRSZ.ARM, 4 CQRY, with the words of ga and
gb, the almanac's block and the tile that sent it. -/
structure CircReq where
  who : FibreRef
  /-- the cycle in which it reached the Intercalator (R349) -/
  since : Nat := 0
  part : Nat
  fn : Nat
  a : Word
  b : Word
  block : List Byte
  tile : Nat
  deriving DecidableEq, Repr, Inhabited

/-- A residue flit (R37): what reaches its destination as an event. -/
structure RFlit where
  reply : Bool
  part : Nat
  dst : Nat
  ev : Option Instr
  /-- the cycle from which it stands in its buffer -/
  since : Nat
  /-- a request to the Intercalator that it carries (R44) -/
  req : Option CircReq := none
  /-- the cycles it has waited in buffers (R349) -/
  wait : Nat := 0
  /-- the SPDM message whose last flit this is, towards a die (R297) -/
  msg : List Byte := []
  deriving DecidableEq, Repr, Inhabited

/-- A configuration record of R41. -/
structure CRecord where
  x : Nat
  y : Nat
  tbl : Nat
  first : Nat
  count : Nat
  stride : Nat
  entry : Entry
  deriving DecidableEq, Repr, Inhabited

/-- A staged set of records (R42, R43). -/
structure Staged where
  seq : Nat
  action : Nat
  recs : List CRecord
  deriving DecidableEq, Repr, Inhabited

/-- An event counter bank (R344). -/
structure EvBank where
  ctl : Word := 0
  cnt : Word := 0
  /-- what the guest sees while the bank is seized (R346) -/
  guestCtl : Word := 0
  guestCnt : Word := 0
  deriving DecidableEq, Repr, Inhabited

/-- A residue input buffer: its port, its network, its flits in arrival order (R37). -/
structure RBuf where
  flits : List RFlit := []
  deriving DecidableEq, Repr, Inhabited

/-- A tile with its router (R16). -/
structure Tile where
  ptag : Nat := 63
  /-- COUNT and OVF (R251), and the waiters in order -/
  sems : List (Nat × (Nat × Bool)) := []
  semWait : List (Nat × FibreRef) := []
  drops : Nat := 0
  /-- the slot tables by table 0 to 5 and slot (R26); an entry that is not listed holds `Entry.reset`, see `Tile.entry` -/
  slots : List ((Nat × Nat) × Entry) := []
  /-- the loop register: its value and the slot of its writing (R27) -/
  loop : Option (CFlit × Nat) := .none
  shadow : List Staged := []
  banks : List (Nat × EvBank) := []
  seize : Nat := 0
  /-- SEIZE from the next cycle on (R346) -/
  seizeNext : Option Nat := .none
  /-- metered windows: MWBASE and MWLEN (R129); code windows (R313) -/
  mwin : List (Nat × (Word × Word)) := []
  cwin : List (Nat × Word) := []
  /-- residue: input buffers by port (0 N, 1 E, 2 S, 3 W, 4 local) and network (R37) -/
  rbuf : List ((Nat × Bool) × RBuf) := []
  /-- flits that wait for a local buffer entry or for the residue share (R38) -/
  rwait : List RFlit := []
  /-- flits injected in this wheel, by partition (R38) -/
  rspent : List (Nat × Nat) := []
  /-- per output port: the last input served and the run of replies (R37) -/
  rrobin : List (Nat × (Nat × Nat)) := []
  deriving DecidableEq, Repr, Inhabited

/-- A circuit of a partition (R52, R525). -/
structure Circuit where
  part : Nat
  cid : Nat
  cls : Nat
  /-- 1 PENDING, 2 OPEN, 3 LOST, 4 CLOSING -/
  state : Nat
  /-- injection slots at the source, or root combine slots -/
  slots : List Nat
  /-- slots reserved besides: being added, or removed and not free yet -/
  pend : List Nat
  /-- L of R29 and R526 -/
  lat : Nat
  wc : Nat
  /-- the wheel before which it does not inject -/
  start : Nat
  /-- entries held, as tile, table, offset from the slot modulo 1,024, entry (R26) -/
  hops : List (Nat × Nat × Nat × Entry)
  /-- positions held on package links: link, position; towards the device, and towards the peer (R57) -/
  posns : List (Nat × Nat)
  posnsOut : List (Nat × Nat) := []
  /-- the armed burst: Ws and b; the running one: the absolute slot from which it counts, and the owned slots it
  covers (R36) -/
  armed : Option (Nat × Nat)
  burst : Option (Nat × Nat)
  deriving DecidableEq, Repr, Inhabited

/-- A request whose records are being sent or are staged (R43). -/
structure Commit where
  seq : Nat
  who : FibreRef
  part : Nat
  /-- the first circuit and how many -/
  cid : Nat
  count : Nat
  fn : Nat
  /-- records not sent yet, with their action -/
  queue : List (Nat × CRecord)
  /-- configuration flits sent: wheel, column, action, records -/
  sent : List (Nat × Nat × Nat × List CRecord)
  wc : Nat
  /-- injection slots that become current, and that are removed -/
  add : List Nat
  remove : List Nat
  arm : Option (Nat × Nat)
  deriving DecidableEq, Repr, Inhabited

/-- The Intercalator (R41 to R44). -/
structure Intercalator where
  queue : List CircReq := []
  seq : Nat := 0
  active : Option Commit := none
  commits : List Commit := []
  /-- the sequence of the last request accepted (R131) -/
  accepted : Nat := 0
  /-- results on their way to their fibres -/
  results : List (FibreRef × Word) := []
  deriving DecidableEq, Repr, Inhabited

/-- A package link (R57 to R62). -/
structure PLink where
  /-- D of R58 -/
  d : Nat := 0
  trained : Bool := false
  lost : Bool := true
  /-- an authentication failure holds the link in ALIGN_LOST until a new session (R321) -/
  failed : Bool := false
  peer : Nat := 0
  /-- consecutive Sync messages beyond 6 slots, and within 4 (R62) -/
  bad : Nat := 0
  good : Nat := 0
  /-- the measured link delay, and the last Announce (R61) -/
  delay : Nat := 0
  announced : Nat := 0
  /-- Announce messages sent (R61) -/
  announces : Nat := 0
  locked : Bool := false
  syncs : Nat := 0
  pdelays : Nat := 0
  answered : Nat := 0
  /-- flits in the elastic buffer: release slot, flit (R58) -/
  elastic : List (Nat × CFlit) := []
  /-- almanac positions in use, with their partition and CID: towards the device, and towards the peer (R57, R60) -/
  used : List (Nat × (Nat × Nat)) := []
  usedOut : List (Nat × (Nat × Nat)) := []
  /-- flits on their way from the I/O-die switch to the link: the slot in which each departs, its position (R57, R58) -/
  tx : List (Nat × Nat × CFlit) := []
  deriving DecidableEq, Repr, Inhabited

/-! ## Gangs -/

/-- A gang operation in a gang queue (R196). -/
structure GangOp where
  d : Disp
  fibre : FibreRef
  /-- accesses of its fibre with a smaller id are earlier than it (R234) -/
  mark : Nat := 0
  deriving DecidableEq, Repr, Inhabited

/-- A joined MMA or MZERO that has not written its slot (R205 to R214, R435). -/
structure Mma where
  slot : Nat
  tag : Nat
  /-- 0 plain, 1 hold, 2 held B, 3 MZERO -/
  var : Nat
  ops : List GangOp
  joinAt : Nat
  /-- the format context of its join (R424) -/
  sa : Nat
  sb : Nat
  sat : Bool
  /-- periods of fetching still to go; a BF16 operand takes two (R213) -/
  toFetch : Nat
  /-- operand blocks A_0 to A_3 then B_0 to B_3, as far as they are fetched -/
  blocks : List (List Byte)
  /-- it occupies an operand buffer, in its second period or until its compute ends (R213) -/
  buffer : Bool
  /-- the cycle in which its compute starts, that from which its buffer is free, that of its slot write (R214) -/
  startAt : Nat
  freeAt : Nat
  writeAt : Nat
  /-- periods of its fetch that were read before a stop, and the held block it had then (R274, R330) -/
  replay : Nat
  kept : List (List Byte) := []
  /-- periods of its fetch read for the first time, and read again, whose bytes no meter has counted yet (R327, R330; log 95) -/
  fresh : Nat := 0
  again : Nat := 0
  /-- held-B was valid when it joined (R212, R426) -/
  hbvWas : Bool := false
  deriving DecidableEq, Repr, Inhabited

/-- An accumulator slot (R215): 1,024 FP32 values, row by row. -/
structure AccSlot where
  /-- 0 FREE, 1 OPEN, 2 ORPHAN -/
  state : Nat := 0
  /-- the partition that opened it (R216) -/
  part : Nat := 63
  tag : Nat := 0
  members : List Nat := [0, 0, 0, 0]
  vals : List (Nat × BitVec 32) := []
  /-- it becomes ORPHAN once its joined operations have written it (R207) -/
  dying : Bool := false
  /-- rows in which an uncorrectable error stands (R268, R429) -/
  bad : List Nat := []
  deriving DecidableEq, Repr, Inhabited

/-- A gang (R204). -/
structure Gang where
  formed : Bool := false
  token : Nat := 0
  members : List FibreRef := []
  valid : Bool := false
  sat : Bool := false
  sa : Nat := 0
  sb : Nat := 0
  /-- held-B is valid: an `mma.hold` has joined since (R212, R427); and its block in each slice, once fetched -/
  hbv : Bool := false
  heldB : List (Nat × List Byte) := []
  slots : List (Nat × AccSlot) := []
  /-- the gang queues of positions 0 to 3 -/
  queues : List (Nat × List GangOp) := []
  /-- joined MMAs in join order, not written yet -/
  mmas : List Mma := []
  /-- the cycle from which the array is free (R214) -/
  arrayFree : Nat := 0
  deriving DecidableEq, Repr, Inhabited

/-- A cluster's debug module and trace unit (R338, R348). -/
structure Cluster where
  armed : Nat := 0
  xo : Bool := false
  xi : Bool := false
  /-- breakpoints: address, core mask -/
  bkpts : List (Nat × (Nat × Nat)) := []
  /-- TRCLAIM: OWNER, owning partition, LOST of each partition's view, the other fields, write position -/
  trOwner : Nat := 0
  trPart : Nat := 0
  trLost : List (Nat × Bool) := []
  trSel : Word := 0
  trPos : Nat := 0
  /-- the cycle of a halt under way (R339) -/
  haltAt : List Nat := []
  /-- an H claim that takes effect at the next wheel boundary (R348) -/
  trTake : Option Word := none
  /-- the cycle of the claim in force -/
  trAt : Nat := 0
  deriving DecidableEq, Repr, Inhabited

/-! ## Dies: task units, gateways, trust, power -/

/-- A declared range (R98). -/
structure Range where
  space : Nat
  base : Nat
  len : Nat
  w : Bool
  deriving DecidableEq, Repr, Inhabited

/-- The states of an entry of the in-flight table (R94, R101, R109). -/
inductive TaskState where
  | queued | running | waitPost | done
  deriving DecidableEq, Repr, Inhabited

/-- An entry of a die's in-flight table (R94 to R111). -/
structure Task where
  part : Nat := 0
  host : Bool := false
  seq : Nat := 0
  ord : Nat := 0
  pri : Nat := 0
  co : Bool := false
  ts : Nat := 0
  kinds : Nat := 0
  shape : Nat := 0
  n : Nat := 0
  h : Nat := 0
  w : Nat := 0
  code : Cap := .null
  entry : Word := 0
  arg : Cap := .null
  ranges : List Range := []
  ctag : Word := 0
  state : TaskState := .done
  /-- the wheels waited, while the partition was not stopped (R102) -/
  waited : Nat := 0
  /-- placed tiles in logical order, the origin, and the cores reserved that are not free yet (R104) -/
  tiles : List Nat := []
  origin : Nat × Nat := (0, 0)
  pendCores : List CoreId := []
  /-- cores whose dispatch flit is on its way (R106) -/
  going : List CoreId := []
  /-- the count of acceptances before it (R96) -/
  acc : Nat := 0
  /-- live fibres -/
  fibres : Nat := 0
  faulted : Bool := false
  killed : Bool := false
  dieReset : Bool := false
  noFit : Bool := false
  status : Nat := 0
  endWheel : Nat := 0
  deriving DecidableEq, Repr, Inhabited

/-- A report-ring entry (R265). -/
structure Report where
  kind : Nat := 0
  cause : Nat := 0
  fibre : Nat := 0
  addr : Word := 0
  einfo : Word := 0
  wheel : Nat := 0
  deriving DecidableEq, Repr, Inhabited

/-- A report ring (R265). -/
structure Ring where
  entries : List (Nat × Report) := []
  head : Nat := 0
  tail : Nat := 0
  lost : Nat := 0
  deriving DecidableEq, Repr, Inhabited

/-- A walk (R154, R158): the partition, the space and the 4 KiB page of the address, the root with which it started,
and who waits. -/
structure Walk where
  id : Nat
  part : Nat
  space : Nat
  va : Nat
  root : Word
  waiters : List Nat
  running : Bool
  /-- it waits for the service units of its page-table reads (R158, R162) -/
  owed : Option Nat := none
  deriving DecidableEq, Repr, Inhabited

/-- The writing of a partition's contexts on a die (R162, R277): the parts not written yet as place, offset in the area and length; the
bytes of the first that are written, and the units that its next page has received. -/
structure Save where
  part : Nat
  units : List (Nat × Nat × Nat)
  off : Nat := 0
  paid : Nat := 0
  deriving DecidableEq, Repr, Inhabited

/-- A gateway (R128, R154 to R164). -/
structure Gateway where
  roots : List (Nat × Word) := []
  rootsB : List (Nat × Word) := []
  invva : Word := 0
  done : Bool := true
  /-- writes of INVCMD held while DONE = 0 (R128) -/
  invHeld : List Word := []
  /-- accesses and moves, and dispatched instructions by core and number, that still use a removed translation (R158) -/
  invWait : List Nat := []
  invDisp : List (CoreId × Nat) := []
  cache : List Xlat := []
  walks : List Walk := []
  /-- accesses, moves' units and walks that wait for service units, in arrival order: id and port (0 on a compute die); and the
  units that some of them have been given (R163) -/
  queue : List (Nat × Nat) := []
  paid : List (Nat × Nat) := []
  /-- units spent in this wheel, by port and partition (R163) -/
  spent : List ((Nat × Nat) × Nat) := []
  /-- contexts that are being written (R162, R272) -/
  saves : List Save := []
  deriving DecidableEq, Repr, Inhabited

/-- The attestation of a die (R298 to R303, R306). -/
structure Trust where
  /-- R298: 0 RESET, 1 QUARANTINED, 2 ATTESTING, 3 KEYING, 4 OPEN, 5 REJECTED -/
  state : Nat := 0
  reason : Nat := 0
  fails : Nat := 0
  sess : Nat := 0
  wheel : Nat := 0
  /-- the step of R302 that awaits its answer, how much of the chain has come, the number of Busy answers -/
  step : Nat := 0
  got : Nat := 0
  busies : Nat := 0
  /-- when the root gives up waiting, and the requests of earlier attempts that have not been answered (R303) -/
  deadline : Nat := 0
  late : Nat := 0
  /-- a retry is due (R299) -/
  retry : Bool := false
  /-- the root's last request, its transcripts, and the chain and its digest as they have come (R302) -/
  sent : List Byte := []
  vca : List Byte := []
  m : List Byte := []
  th : List Byte := []
  chain : List Byte := []
  digest : List Byte := []
  /-- how far the encapsulated flow of step 9 is: 0 not begun, 1 asked for, 2 answering -/
  enc : Nat := 0
  /-- link ends that have not acknowledged their key, and Wo (R299) -/
  unkeyed : List (Nat × Bool) := []
  wo : Nat := 0
  deriving DecidableEq, Repr, Inhabited

/-- An SPDM responder (R306): connection state and transcripts as the bytes that go into the running hashes. -/
structure Spdm where
  state : Nat := 0
  /-- GET_VERSION to ALGORITHMS, the part that M1, L1 and TH begin with -/
  va : List Byte := []
  m1 : List Byte := []
  l1 : List Byte := []
  th : List Byte := []
  /-- in a secure session (R302) -/
  session : Bool := false
  handshake : Bool := false
  /-- mutual authentication (R302): what has come of the requester's chain, and whether it has been accepted; the session's finished keys -/
  peer : List Byte := []
  accepted : Bool := false
  rkey : BitVec 256 := 0
  qkey : BitVec 256 := 0
  /-- the last response -/
  last : List Byte := []
  deriving DecidableEq, Repr, Inhabited

/-- A compute die, or the I/O die as die 6. -/
structure Die where
  tasks : List (Nat × Task) := []
  /-- the free queue of the in-flight table: entries freed since the start, oldest first; before them stand
  the entries from `nextFresh` up, which nothing has taken yet (R94) -/
  freed : List Nat := []
  nextFresh : Nat := 0
  ord : List (Nat × Nat) := []
  /-- task records under way to the acceptance check, by id -/
  rings : List (Nat × Ring) := []
  gw : Gateway := {}
  /-- die-store metered windows, HBM metered windows, code windows (R129, R313) -/
  mwinDie : List (Nat × (Word × Word)) := []
  mwinHbm : List (Nat × (Word × Word)) := []
  cwin : List (Nat × Word) := []
  ctxbase : List (Nat × Word) := []
  trust : Trust := {}
  spdm : Spdm := {}
  /-- the controller's state before the root's last request, to which an answer of Busy returns it (R303) -/
  spdmWas : Spdm := {}
  /-- granule owners (R123) -/
  granules : List (Nat × Nat) := []
  /-- power (R361) -/
  allot : Nat := 0
  spentTok : Nat := 0
  temp : Nat := 0
  mgate : Bool := false
  vgate : Bool := false
  demand : Nat := 0
  hot : Nat := 0
  /-- the HTCAP of each core is its tcap; the pieces of 4 KiB of the context reserve in use (R278) -/
  reserve : List Nat := []
  /-- meter sums of each wheel not delivered yet: wheel, meter, bytes, replay bytes (R329) -/
  sums : List (Nat × Nat × Nat × Nat) := []
  deriving DecidableEq, Repr, Inhabited

/-! ## Partitions -/

/-- The registers of a virtual function (R112 to R120). -/
structure Vf where
  lastAcc : Nat := 0xFFFFFFFF
  tsub : List (Nat × Word) := []
  busy : Bool := false
  lost : Bool := false
  code : Nat := 0
  cqbase : Word := 0
  cqsize : Word := 0
  cqhead : Word := 0
  cqtail : Nat := 0
  cqcode : Nat := 0
  cqen : Bool := false
  /-- CSEQ of the next entry, and CQSEQ -/
  cseq : Nat := 0
  cqseq : Nat := 0
  /-- completed tasks in order of completion, by die and entry, not posted yet (R110) -/
  held : List (Nat × Nat) := []
  /-- the address of the entry whose bytes 0 to 3 are not written yet (R117) -/
  posting : Option Nat := none
  /-- the next write of an entry waits for a unit of the host link under this id, or has it (R164) -/
  postUnit : Option (Nat × Bool) := none
  /-- MSI-X: the wheel of the last message of each vector, the deferred ones, the count sent -/
  msiWheel : List (Nat × Nat) := []
  msiDefer : List Nat := []
  msiSent : List (Nat × Nat) := []
  mbtx : List (Nat × Word) := []
  mbgo : Word := 0
  txbusy : Bool := false
  txfull : Bool := false
  txlost : Bool := false
  mbrx : List (List Word) := []
  mbin : List (Nat × List Word) := []
  mbihead : Nat := 0
  mbitail : Nat := 0
  mbow : List (Nat × Word) := []
  mbofull : Bool := false
  deriving DecidableEq, Repr, Inhabited

/-- An entry of a reconfiguration list (R285). -/
structure RcEntry where
  op : Nat
  defer : Bool
  p : Nat
  /-- bytes 4 to 31 -/
  data : List Byte
  /-- its list and its place in it; and whether the check found that it waits for a kernel boundary (R286, R289) -/
  list : Nat := 0
  index : Nat := 0
  wait : Bool := false
  deriving DecidableEq, Repr, Inhabited

/-- A partition (R281 to R283, R270). -/
structure Part where
  active : Bool := false
  /-- the logical-to-physical tile table: L, tile 48 y + x (R282) -/
  tab : List (Nat × Nat) := []
  gen : Nat := 0
  residue : Nat := 1
  budget : Nat := 0
  hbm : List (Nat × Nat) := []
  ports : List (Nat × Nat) := []
  shares : List (Nat × Nat) := []
  winBase : Nat := 0
  winLen : Nat := 0
  ktab : List (Nat × Cap) := []
  atab : List (Nat × Cap) := []
  /-- sealed kernels and the meters that their manifests name, newest first (R100, R312) -/
  kernels : List (Cap × List Nat) := []
  /-- GSSTAT (R270): 0 RUNNING to 6 LOST, code, wheel; W and W' -/
  gs : Nat := 0
  gsCode : Nat := 0
  gsWheel : Nat := 0
  stopW : Nat := 0
  resumeW : Nat := 0
  dbgen : Bool := false
  /-- function-level reset (R292): 1 from the request, 2 from Wf until it is complete -/
  flr : Nat := 0
  deferred : List RcEntry := []
  /-- flits captured at a stop: tile and port, or 4,096 + package link, phase slot, flit (R272, R273) -/
  captured : List (Nat × Nat × Nat × CFlit) := []
  /-- what is due and held during a stop, with its time (R274) -/
  heldEv : List (Nat × Instr) := []
  /-- residue flits in the save buffers: node, port and network of the buffer, flit (R272) -/
  saved : List ((Nat × Nat × Bool) × RFlit) := []
  /-- pieces of the reserve that hold contexts: die and piece (R278) -/
  spilled : List (Nat × Nat) := []
  /-- block writes whose bytes had partly reached their home at a stop (R238) -/
  staged : List Nat := []
  vf : Vf := {}
  deriving DecidableEq, Repr, Inhabited

/-! ## Tile moves -/

/-- A tile move under way (R151, R153). -/
structure Move where
  who : FibreRef
  part : Nat
  trans : Bool
  src : Cap
  dst : Cap
  sa : Nat
  da : Nat
  geom : Word
  sem : Nat
  atRoot : Bool
  /-- waiting for the checks of R150; false once it is in the move queue -/
  checking : Bool
  /-- bytes of the span that have been checked, and the translations of both spans, each with its gateway -/
  checks : Nat
  xs : List (Nat × Xlat)
  /-- units not written yet -/
  next : Nat
  left : Nat
  /-- a unit was lost to a die reset (R238) -/
  lostUnit : Bool
  /-- waiting cycles (R349) -/
  wait : Nat
  /-- the registers of its source and destination capabilities (R144) -/
  sk : Nat := 0
  dk : Nat := 0
  deriving DecidableEq, Repr, Inhabited

/-! ## Link keys, meters, trust of the package -/

/-- The keys of a link (R315 to R317). -/
structure LinkKey where
  /-- the link has been closed: it carries nothing from this slot on (R304, R318) -/
  closed : Option Nat := none
  epoch : Nat := 0
  secret : Option (BitVec 256) := none
  ws : Nat := 0
  staged : Option (Nat × Nat × BitVec 256) := none
  /-- the receiver still accepts the old key (R317) -/
  oldSecret : Option (BitVec 256) := none
  /-- a TRCMD ROLL came while a rollover was staged (R316) -/
  again : Bool := false
  deriving DecidableEq, Repr, Inhabited

/-- A meter (R322). -/
structure Meter where
  isOpen : Bool := false
  owner : Option Nat := none
  chain : BitVec 256 := 0
  licence : BitVec 256 := 0
  count : Nat := 0
  replay : Nat := 0
  seq : Nat := 0
  /-- a close in progress: reads fail from this wheel on, and until that one (R325) -/
  shut : Option (Nat × Option Nat) := none
  restored : Bool := false
  lastHash : BitVec 256 := 0
  last : List Byte := []
  deriving DecidableEq, Repr, Inhabited

/-- The state of the CTR_DRBG (R450): Key, V, and the requests since its last seeding; at reset a seeding is due. -/
structure Drbg where
  key : BitVec 256 := 0
  v : BitVec 128 := 0
  requests : Nat := 2 ^ 20
  deriving DecidableEq, Repr, Inhabited

/-- A request of MTRQ under way (R324, R434). -/
structure MtReq where
  id : Nat
  who : FibreRef
  part : Nat
  cap : Cap
  addr : Nat
  d : BitVec 3
  block : List Byte
  /-- the snapshot wheel, once fixed (R332) -/
  wn : Option Nat
  atRoot : Bool
  /-- the cycle in which it reached the root core (R349) -/
  since : Nat := 0
  /-- the result on its way back (R433) -/
  answer : Option Word := none
  deriving DecidableEq, Repr, Inhabited

/-- What a root-core instruction computes (R419, R420): bytes to be posted at an address, or the extension of the
measurement register `meas`, whose value is there once it has been computed. -/
structure RootWork where
  who : FibreRef
  meas : Option Nat
  cap : Cap
  addr : Nat
  bytes : List Byte
  done : Bool
  /-- loads of the measurement registers that wait for this extension (R421) -/
  waiters : List FibreRef := []
  deriving DecidableEq, Repr, Inhabited

/-- The debug core's registers (R340). -/
structure Dbg where
  arg : Word := 0
  data : Word := 0
  tag : Bool := false
  cause : Nat := 0
  status : Nat := 0
  deriving DecidableEq, Repr, Inhabited

/-- The start registers and what the start sequence keeps (R351 to R356). -/
structure Start where
  phase : Nat := 0
  step : Nat := 0
  code : Nat := 0
  lc : Nat := 0
  warm : Bool := false
  fails : Nat := 0
  rej : Nat := 0
  lcst : Nat := 0
  prlist : Word := 0
  /-- lifecycle state, MEAS0 and MEAS2 of the start before (R354) -/
  prev : Option (Nat × BitVec 256 × BitVec 256) := none
  /-- a STCMD WARM that waits (R355), and the metered and code windows that were active when it came: physical address and
  length (R354) -/
  warmWait : Bool := false
  warmWins : List (Nat × Nat) := []
  /-- in flash: the first cold start in DEPLOYED has reset the meters (R322) -/
  deployed : Bool := false
  /-- the last boot was into recovery (R357) -/
  recovery : Bool := false
  powered : Bool := true
  deriving DecidableEq, Repr, Inhabited

/-- The reconfiguration port (R284, R286). -/
structure Reconf where
  addr : Word := 0
  busy : Bool := false
  index : Nat := 0
  code : Nat := 0
  tag : Nat := 0
  wheel : Nat := 0
  list : List RcEntry := []
  deriving DecidableEq, Repr, Inhabited

/-- A far port or the host link (R131). -/
structure Port where
  present : Bool := false
  up : Bool := false
  width : Nat := 0
  mib : Nat := 0
  deriving DecidableEq, Repr, Inhabited

/-- The DOE mailbox (R305, R456, R518). -/
structure Doe where
  /-- an object that waits for room in s0 -/
  held : Option (List (BitVec 32)) := none
  /-- answers the mailbox gives by itself, and what the host reads -/
  own : List (BitVec 32) := []
  s0 : List (BitVec 32) := []
  s1 : List (BitVec 32) := []
  deriving DecidableEq, Repr, Inhabited

/-- The parts of the I/O die that belong to no compute die. -/
structure Package where
  ic : Intercalator := {}
  /-- the slot tables of the I/O die's ports into the bridge-row channels: channel x to the north, 48 + x to the south, and
  slot (R24, R41) -/
  ioSlots : List ((Nat × Nat) × Entry) := []
  circuits : List Circuit := []
  /-- circuit flits on their way: the tile and input port they reach, the slot, the flit (R25) -/
  wires : List (Nat × Nat × Nat × CFlit) := []
  plinks : List (Nat × PLink) := []
  /-- the residue buffers of the I/O die by port, and what waits to enter -/
  rbuf : List ((Nat × Bool) × RBuf) := []
  rwait : List RFlit := []
  rrobin : List (Nat × (Nat × Nat)) := []
  ports : List (Nat × Port) := []
  hostUp : Bool := false
  hostWidth : Nat := 0
  vfs : Nat := 0
  pwrlim : Nat := 3000
  ioUse : Nat := 0
  /-- the shutdown signal of the thermal interface (R360) -/
  shutdown : Bool := false
  mgcode : Cap := .null
  mgrun : Bool := false
  /-- EINFO of SAVE_FAULTs that wait for a slot of the management core (R278) -/
  saveFaults : List Word := []
  rc : Reconf := {}
  start : Start := {}
  spdm : Spdm := {}
  doe : Doe := {}
  links : List (Nat × LinkKey) := []
  meters : List (Nat × Meter) := []
  ckok : Bool := false
  restored : Bool := false
  ckfail : Bool := false
  ckwheel : Nat := 0
  /-- the RPMC counter and the two images (R331) -/
  rpmc : Nat := 0
  images : List (Nat × List (Nat × Meter)) := []
  mtrq : List MtReq := []
  dbg : Dbg := {}
  entropyOk : Bool := true
  /-- the random bit generator (R450) -/
  drbg : Drbg := {}
  /-- what the root core's instructions compute, in issue order (R419, R420) -/
  work : List RootWork := []
  /-- the signature unit is busy until this cycle (R419) -/
  sigBusy : Nat := 0
  /-- the fibre whose PKSIGN or PKVER has issued and still reads its source (R419) -/
  sigClaim : Option FibreRef := none
  deriving DecidableEq, Repr, Inhabited

/-! ## The package -/

/-- A record on its way to a task unit (R100, R108). -/
structure Submission where
  part : Nat
  who : Option FibreRef
  die : Nat
  body : List Byte
  arg : Cap
  argGiven : Bool
  d : BitVec 3
  /-- the answer on its way back (R108) -/
  answer : Option Word := none
  deriving DecidableEq, Repr, Inhabited

/-- A TWAIT query (R109). -/
structure Query where
  who : FibreRef
  part : Nat
  die : Nat
  ix : Nat
  ord : Nat
  poll : Bool
  /-- it stands at its task unit -/
  here : Bool := false
  /-- the answer on its way back (R479) -/
  answer : Option Word := none
  deriving DecidableEq, Repr, Inhabited

/-- A walk packet (R89). -/
structure WalkPkt where
  src : FibreRef
  part : Nat
  die : Nat
  space : Nat
  home : Home
  /-- the bytes of its three flits (R89), and TASKSEQ and the membership of the task, which they do not carry (log 82) -/
  bytes : List Byte
  taskseq : Word
  inTask : Bool
  /-- the cycle in which it reached the home die, and the slot in which the fibre was installed -/
  arrived : Option Nat := none
  into : Option FibreRef := none
  deriving DecidableEq, Repr, Inhabited

/-- Which cores run a group of instructions (the rows of R18). -/
inductive Group where
  | scalar | link | root | mtrq | vec | math | shape
  deriving DecidableEq, Repr, Inhabited

/-- The machine. -/
structure State where
  /-- absolute slot (R3) -/
  clock : Nat
  /-- what the outside does next, oldest first (log 4) -/
  inputs : List Instr
  /-- what is due, in order (log 4) -/
  agenda : List (Nat × Instr)
  /-- cores that have not had their issue opportunity in this cycle (R68; log 4) -/
  todo : List CoreId
  /-- the cycle whose issue order has been made, after what was due in it (R345; log 4) -/
  opened : Nat
  /-- the fibre whose instruction executes (log 4) -/
  cur : FibreRef
  /-- the count of free values drawn (log 5) -/
  fresh : Nat
  /-- the next id of an access, message, move or request (log 4) -/
  nextId : Nat
  fibres : List (FibreRef × Fibre)
  cores : List (CoreId × Core)
  tiles : List (Nat × Tile)
  gangs : List (Nat × Gang)
  clusters : List (Nat × Cluster)
  dies : List (Nat × Die)
  parts : List (Nat × Part)
  /-- memory as sorted address and byte pairs; an unlisted byte is zero (log 1, 3) -/
  mem : List Host.Cell
  /-- tagged granules, poisoned granules and lines, bytes with a fresh error: rising addresses (R145, R268, R269) -/
  tags : List Nat
  poison : List Nat
  errors : List Nat
  flight : List (Nat × Access)
  messages : List (Nat × Message)
  moves : List (Nat × Move)
  subs : List (Nat × Submission)
  queries : List (Nat × Query)
  walkers : List (Nat × WalkPkt)
  /-- the semaphores whose waiters are to be served in this cycle, and the semaphores changed in it, as they stood at its start
  (R252) -/
  semWork : List (CoreId × Nat)
  semOld : List ((CoreId × Nat) × (Nat × Bool))
  pkg : Package
  deriving DecidableEq, Repr, Inhabited

/-- What the next step does: nothing more in this state (a tick, a fetch, a trap), an instruction or event to
execute, or nothing because the power is off (log 4). -/
inductive Action where
  | done (s : State)
  | run (i : Instr) (s : State)
  | off
  deriving Repr

/-- The sealed-code capability over the ROM with which the root's boot fibre starts (R65): SEAL 10, space 7,
permissions R, X and G, bounds 0x7_8000 to 0x7_C000, cursor 0x7_8000 (log 2 for the permissions). -/
def Cap.rom : Cap := ⟨0x8001e15f0001e0000000000000078000, true⟩

/-- The capability for the whole of space 7 in the boot fibre's k0 (R135): every permission but O and M. -/
def Cap.space7 : Cap := ⟨0x1e7c0000000002500000000000000, true⟩

/-- The root core's boot fibre at reset (R65, R66, R135, R254). -/
def Fibre.boot : Fibre :=
  { status := .ready, pc := 0x78000, k := [.space7, .null, .null, .null], code := .rom, tdie := 6, pl := 3 }

/-- The machine right after reset (R65, R135, R351): the root's boot fibre at the ROM's first word, the
primal capabilities in the first 128 bytes of space 7, PHASE RESET, WHEEL 0, and every table empty. -/
def State.reset : State :=
  { clock := 0, inputs := [], agenda := [], todo := [.root], opened := 0, cur := ⟨.root, 0⟩, fresh := 0, nextId := 0,
    fibres := [(⟨.root, 0⟩, .boot)], cores := [(.root, {})], tiles := [], gangs := [], clusters := [],
    dies := [], parts := [], mem := [],
    tags := [7 * 2 ^ 72, 7 * 2 ^ 72 + 16, 7 * 2 ^ 72 + 32, 7 * 2 ^ 72 + 48, 7 * 2 ^ 72 + 64,
      7 * 2 ^ 72 + 80, 7 * 2 ^ 72 + 112],
    poison := [], errors := [], flight := [], messages := [], moves := [], subs := [], queries := [],
    walkers := [], semWork := [], semOld := [], pkg := {} }

end Sys2Proof.Machine
end

