-- ==== Sys2Proof/Machine/Caps.lean ====
section
/-! DEFINITION. Capabilities: their fields, bounds and derivations (05 R134 to R141). -/

namespace Sys2Proof.Machine

namespace Cap

/-- Fields of R134. -/
def cursor (c : Cap) : Nat := field c.bits 55 0
def e (c : Cap) : Nat := field c.bits 61 56
def base20 (c : Cap) : Nat := field c.bits 81 62
def top20 (c : Cap) : Nat := field c.bits 101 82
def perms (c : Cap) : Nat := field c.bits 109 102
def space (c : Cap) : Nat := field c.bits 113 110
def meter (c : Cap) : Nat := field c.bits 125 114
def sealOf (c : Cap) : Nat := field c.bits 127 126

/-- Permission bits of R134, by their place in PERMS. -/
def has (c : Cap) (p : Nat) : Bool := bitN c.perms p
def permR : Nat := 0
def permW : Nat := 1
def permX : Nat := 2
def permK : Nat := 3
def permA : Nat := 4
def permM : Nat := 5
def permO : Nat := 6
def permG : Nat := 7

/-- A capability from its fields (R134). -/
def make (sl meter space perms t b e cur : Nat) (tag : Bool) : Cap :=
  ⟨BitVec.ofNat 128 (sl % 4 * 2 ^ 126 + meter % 2 ^ 12 * 2 ^ 114 + space % 16 * 2 ^ 110 + perms % 256 * 2 ^ 102
    + t % 2 ^ 20 * 2 ^ 82 + b % 2 ^ 20 * 2 ^ 62 + e % 64 * 2 ^ 56 + cur % 2 ^ 56), tag⟩

/-- Corr of R136. -/
def corr (m x edge : Nat) : Int :=
  if m < edge ∧ edge ≤ x then -1 else if edge ≤ m ∧ x < edge then 1 else 0

/-- KBounds of R136, for bounds fields and a cursor: the base and the exclusive top. -/
def boundsAt (e b t a : Nat) : Int × Int :=
  if 37 ≤ e then (0, 2 ^ 56)
  else
    let mid := a / 2 ^ e % 2 ^ 20
    let hi : Int := (a / 2 ^ (e + 20) : Nat)
    let edge := (b + 2 ^ 20 - 2 ^ 18) % 2 ^ 20
    ((hi + corr mid b edge) * 2 ^ (e + 20) + (b * 2 ^ e : Nat),
     (hi + corr mid t edge) * 2 ^ (e + 20) + (t * 2 ^ e : Nat))

/-- KBounds of R136. -/
def bounds (c : Cap) : Int × Int := boundsAt c.e c.base20 c.top20 c.cursor

/-- R137: the cursor lies in the representable range. -/
def representable (e : Nat) (base : Int) (cur : Nat) : Bool :=
  decide (37 ≤ e) || (decide (base - 2 ^ (e + 18) ≤ cur) && decide ((cur : Int) < base + 3 * 2 ^ (e + 18)))

/-- The capability with another cursor. -/
def withCursor (c : Cap) (cur : Nat) (tag : Bool) : Cap :=
  make c.sealOf c.meter c.space c.perms c.top20 c.base20 c.e cur tag

/-- The smallest exponent from e, of at most fuel tries, that represents n bytes from a (R138 step 1). -/
def fitExp (a n : Nat) : Nat → Nat → Nat
  | 0, e => e
  | fuel + 1, e => if ceilDiv (a + n) (2 ^ e) - a / 2 ^ e < 3 * 2 ^ 18 then e else fitExp a n fuel (e + 1)

/-- KBND of R138 for a cursor and a length: exponent, base, top; exponent 37 where none fits, with the top that R403 compares in
unbounded integers. -/
def fit (a n : Nat) : Nat × Nat × Nat :=
  let e := fitExp a n 37 0
  if 37 ≤ e then (37, 0, max (2 ^ 56) (a + n))
  else (e, a / 2 ^ e * 2 ^ e, ceilDiv (a + n) (2 ^ e) * 2 ^ e)

/-- A capability over a span (R138), with the first byte as its cursor. -/
def spanning (sl meter space perms lo n : Nat) : Cap :=
  let (e, b, t) := fit lo n
  if 37 ≤ e then make sl meter space perms 0 0 37 lo true
  else make sl meter space perms (t / 2 ^ e) (b / 2 ^ e) e lo true

end Cap

end Sys2Proof.Machine
end

