-- ==== Sys2Proof/Machine/Table.lean ====
section
/-! DEFINITION. Sparse tables: a list of key and value, where a key that is not listed has a default value. -/

namespace Sys2Proof.Machine

variable {α β : Type} [DecidableEq α]

/-- The value at a key, or the default. -/
def tget (d : β) : List (α × β) → α → β
  | [], _ => d
  | (k, v) :: t, x => if k = x then v else tget d t x

/-- The value at a key, if listed. -/
def tfind : List (α × β) → α → Option β
  | [], _ => none
  | (k, v) :: t, x => if k = x then some v else tfind t x

/-- Set the value at a key: in place where it is listed, else at the end. -/
def tset : List (α × β) → α → β → List (α × β)
  | [], x, y => [(x, y)]
  | (k, v) :: t, x, y => if k = x then (k, y) :: t else (k, v) :: tset t x y

/-- Remove a key. -/
def tdel : List (α × β) → α → List (α × β)
  | [], _ => []
  | (k, v) :: t, x => if k = x then tdel t x else (k, v) :: tdel t x

/-- Change the value at a key. -/
def tmod (d : β) (t : List (α × β)) (x : α) (f : β → β) : List (α × β) := tset t x (f (tget d t x))

/-- Replace the n-th entry of a list, if it is there. -/
def lset {γ : Type} : List γ → Nat → γ → List γ
  | [], _, _ => []
  | _ :: t, 0, y => y :: t
  | x :: t, n + 1, y => x :: lset t n y

/-- The n-th entry of a list, or a default. -/
def lget {γ : Type} (d : γ) : List γ → Nat → γ
  | [], _ => d
  | x :: _, 0 => x
  | _ :: t, n + 1 => lget d t n

end Sys2Proof.Machine
end

