-- ==== Sys2Proof/Machine/Memory.lean ====
section
/-! DEFINITION. Memory. One flat list of bytes over physical addresses (log 3): kind 1 a tile store and kind
2 a cluster slice (by tile 48 y + x), 3 a die store, 4 HBM, 5 far and 6 host memory, 7 a private store (0
root, 1 management), as kind × 2^72 + index × 2^56 + offset. Tags stand per 16-byte granule (R145), poison
and fresh errors per granule or line (R268, R269). -/

namespace Sys2Proof.Machine

/-- The physical address of an offset in a unit of a kind (log 3). -/
def paOf (kind idx off : Nat) : Nat := kind * 2 ^ 72 + idx * 2 ^ 56 + off

/-- The kind of unit that a physical address lies in. -/
def paKind (a : Nat) : Nat := a / 2 ^ 72

/-- The number of the unit that a physical address lies in. -/
def paIdx (a : Nat) : Nat := a / 2 ^ 56 % 2 ^ 16

/-- The offset of a physical address in its unit. -/
def paOff (a : Nat) : Nat := a % 2 ^ 56

/-- The primal capability of a space (R135): the whole space, every permission but O and M. -/
def primalBits (space : Nat) : Nat := space * 2 ^ 110 + 0x9F * 2 ^ 102 + 37 * 2 ^ 56

/-- What an unlisted byte reads as: the primal capabilities in the first 128 bytes of the root's private
store (R135), and zero everywhere else (R353; log 1). -/
def initByte (a : Nat) : Byte :=
  if 7 * 2 ^ 72 ≤ a ∧ a < 7 * 2 ^ 72 + 128 then
    let o := a - 7 * 2 ^ 72
    let sp := o / 16 + 1
    if sp = 7 then 0 else BitVec.ofNat 8 (primalBits sp / 256 ^ (o % 16))
  else 0

/-- The byte at an address (R221). -/
def getByte : List Host.Cell → Nat → Byte
  | [], a => initByte a
  | (x, y) :: m, a => if a = x then y else getByte m a

/-- Set the byte at an address, keeping the canonical form: rising addresses, no entry that equals what an
unlisted address reads as. -/
def setByte : List Host.Cell → Nat → Byte → List Host.Cell
  | [], a, b => if b = initByte a then [] else [(a, b)]
  | (x, y) :: m, a, b =>
    if a < x then (if b = initByte a then (x, y) :: m else (a, b) :: (x, y) :: m)
    else if a = x then (if b = initByte a then m else (a, b) :: m)
    else (x, y) :: setByte m a b

/-- The n bytes from an address, rising. -/
def getBytes (m : List Host.Cell) (a : Nat) : Nat → List Byte
  | 0 => []
  | n + 1 => getByte m a :: getBytes m (a + 1) n

/-- Set the bytes from an address, rising. -/
def setBytes : List Host.Cell → Nat → List Byte → List Host.Cell
  | m, _, [] => m
  | m, a, b :: bs => setBytes (setByte m a b) (a + 1) bs

/-- The addresses rise strictly from a lower bound, and no entry equals what an unlisted address reads as. -/
def cellsFrom : Nat → List Host.Cell → Bool
  | _, [] => true
  | lo, (a, b) :: m => decide (lo ≤ a) && (b != initByte a) && cellsFrom (a + 1) m

/-- The canonical form of memory: equal memories are equal lists. -/
def Memory.wf (m : List Host.Cell) : Bool := cellsFrom 0 m

/-- Forget every byte from lo up to hi: each then reads as its reset content, which is zero outside space 7. -/
def dropCells (m : List Host.Cell) (lo hi : Nat) : List Host.Cell := m.filter fun c => !(decide (lo ≤ c.1) && decide (c.1 < hi))

/-- Insert a number in a strictly rising list. -/
def setIn : List Nat → Nat → List Nat
  | [], a => [a]
  | x :: l, a => if a < x then a :: x :: l else if a = x then x :: l else x :: setIn l a

/-- Remove a number from a list. -/
def setOut (l : List Nat) (a : Nat) : List Nat := l.filter (· != a)

/-- The unit of poison: 16 bytes, or a 64-byte line in spaces 4 to 6 (R269). -/
def granSize (a : Nat) : Nat := if 4 ≤ paKind a ∧ paKind a ≤ 6 then 64 else 16

/-- The first addresses of the units of size g that n bytes from a touch. -/
def touched (g a n : Nat) : List Nat :=
  if n = 0 then [] else (List.range ((a + n - 1) / g - a / g + 1)).map fun i => (a / g + i) * g

/-- The unit from b of size g lies whole inside the n bytes from a. -/
def covers (g b a n : Nat) : Bool := decide (a ≤ b) && decide (b + g ≤ a + n)

namespace State

/-- The n bytes at a physical address. -/
def readBytes (s : State) (a n : Nat) : List Byte := getBytes s.mem a n

/-- The little-endian value of n bytes at a physical address (R2). -/
def readNat (s : State) (a n : Nat) : Nat := leNat (s.readBytes a n)

/-- A write finds a fresh error in a unit that it does not cover whole (R268). -/
def writeMeetsError (s : State) (a n : Nat) : Bool :=
  (touched (granSize a) a n).any fun b => s.errors.contains b && !covers (granSize a) b a n

/-- Perform a write: the bytes change, the tag of every touched granule clears (R145), a unit covered whole
loses its poison, a unit with a fresh error that is not becomes poisoned (R268, R269). -/
def writeBytes (s : State) (a : Nat) (bs : List Byte) : State :=
  let us := touched (granSize a) a bs.length
  let whole := us.filter fun b => covers (granSize a) b a bs.length
  let bad := us.filter fun b => s.errors.contains b && !covers (granSize a) b a bs.length
  { s with
    mem := setBytes s.mem a bs
    tags := s.tags.filter fun t => !(touched 16 a bs.length).contains t
    poison := bad.foldl setIn (s.poison.filter fun b => !whole.contains b)
    errors := s.errors.filter fun b => !us.contains b }

/-- Perform the write of a capability and its tag as one unit (R145). -/
def writeCap (s : State) (a : Nat) (c : Cap) : State :=
  let t := s.writeBytes a (leBytes 16 c.bits.toNat)
  if c.tag then { t with tags := setIn t.tags a } else t

/-- The capability at a 16-byte granule, with its tag (R145). -/
def readCap (s : State) (a : Nat) : Cap := ⟨BitVec.ofNat 128 (s.readNat a 16), s.tags.contains a⟩

/-- What a read of n bytes meets: poison, or a fresh error (R268, R269); EINFO `[63]` is true for poison. -/
def readError (s : State) (a n : Nat) : Option Bool :=
  let us := touched (granSize a) a n
  if us.any fun b => s.poison.contains b then some true
  else if us.any fun b => s.errors.contains b then some false
  else none

/-- Poison the units that n bytes touch (R153, R268). -/
def poisonAt (s : State) (a n : Nat) : State :=
  let us := touched (granSize a) a n
  { s with poison := us.foldl setIn s.poison, errors := s.errors.filter fun b => !us.contains b }

/-- Write zero with tags clear to a whole region, which also clears its poison (R290, R353). -/
def wipe (s : State) (lo n : Nat) : State :=
  { s with
    mem := dropCells s.mem lo (lo + n)
    tags := s.tags.filter fun t => !(decide (lo ≤ t) && decide (t < lo + n))
    poison := s.poison.filter fun t => !(decide (lo ≤ t) && decide (t < lo + n))
    errors := s.errors.filter fun t => !(decide (lo ≤ t) && decide (t < lo + n)) }

end State

end Sys2Proof.Machine
end

