-- ==== Sys2Proof/Machine/Ops.lean ====
section
/-! DEFINITION. The named operations over the state: coordinates, accessors, scheduling, parking and
resuming, reports, event latches, gang breaks, taking a trap and returning from one. -/

namespace Sys2Proof.Machine

/-- The outcome of a meaning. -/
abbrev Out := Host.Outcome State Fault Refusal

/-! ## Coordinates and identities (R4, R5, R17) -/

/-- The number 48 y + x of the tile of a die (R4). -/
def tileNo (die t : Nat) : Nat := 48 * (16 * (die / 3) + t / 16) + 16 * (die % 3) + t % 16

/-- Global coordinates of a tile number. -/
def tileX (n : Nat) : Nat := n % 48
def tileY (n : Nat) : Nat := n / 48

/-- The die, tile-in-die, cluster-in-die and package-wide cluster of a tile number (R4). -/
def tileDie (n : Nat) : Nat := tileX n / 16 + 3 * (tileY n / 16)
def tileInDie (n : Nat) : Nat := tileY n % 16 * 16 + tileX n % 16
def tileCluster (n : Nat) : Nat := tileDie n * 16 + tileY n % 16 / 4 * 4 + tileX n % 16 / 4

/-- The package-wide gang of a tile number, and the position in it (R4, R17). -/
def tileGang (n : Nat) : Nat := tileCluster n * 4 + tileY n % 4
def tilePos (n : Nat) : Nat := tileX n % 4

/-- The tile at a position of a cluster: q = 4 (y mod 4) + x mod 4 (R122). -/
def clusterTile (cl q : Nat) : Nat :=
  tileNo (cl / 16) ((cl % 16 / 4 * 4 + q / 4) * 16 + cl % 4 * 4 + q % 4)

/-- The tile at a position of a gang. -/
def gangTile (gang pos : Nat) : Nat := clusterTile (gang / 4) (gang % 4 * 4 + pos)

/-- A service core (R21). -/
def isService (c : CoreId) : Bool := c.die == 6

/-- The tile number of a compute core. -/
def coreTile (c : CoreId) : Nat := tileNo c.die c.tile

/-- The core of a kind on a tile. -/
def coreOf (tile kind : Nat) : CoreId := ⟨tileDie tile, tileInDie tile, kind⟩

/-- The 21-bit fibre id (R5). -/
def fibreId (f : FibreRef) : Nat := f.core.die * 2 ^ 18 + f.core.tile * 2 ^ 10 + f.core.kind * 2 ^ 8 + f.slot

/-- The fibre slot that a 21-bit id names (R5). -/
def fibreOf (n : Nat) : FibreRef := ⟨⟨bits n 20 18, bits n 17 10, bits n 9 8⟩, bits n 7 0⟩

/-- The node of the residue network at which a core sits: its tile, or the I/O die (R12). -/
def ioNode : Nat := 1536
def coreNode (c : CoreId) : Nat := if (isService c) then ioNode else coreTile c

namespace State

/-! ## Accessors -/

def fib (s : State) (f : FibreRef) : Fibre := tget {} s.fibres f
def setFib (s : State) (f : FibreRef) (x : Fibre) : State := { s with fibres := tset s.fibres f x }
def modFib (s : State) (f : FibreRef) (h : Fibre → Fibre) : State := s.setFib f (h (s.fib f))
def core (s : State) (c : CoreId) : Core := tget {} s.cores c
def setCore (s : State) (c : CoreId) (x : Core) : State := { s with cores := tset s.cores c x }
def modCore (s : State) (c : CoreId) (h : Core → Core) : State := s.setCore c (h (s.core c))
def tile (s : State) (n : Nat) : Tile := tget {} s.tiles n
def setTile (s : State) (n : Nat) (x : Tile) : State := { s with tiles := tset s.tiles n x }
def modTile (s : State) (n : Nat) (h : Tile → Tile) : State := s.setTile n (h (s.tile n))
def gang (s : State) (n : Nat) : Gang := tget {} s.gangs n
def setGang (s : State) (n : Nat) (x : Gang) : State := { s with gangs := tset s.gangs n x }
def modGang (s : State) (n : Nat) (h : Gang → Gang) : State := s.setGang n (h (s.gang n))
def cluster (s : State) (n : Nat) : Cluster := tget {} s.clusters n
def modCluster (s : State) (n : Nat) (h : Cluster → Cluster) : State :=
  { s with clusters := tset s.clusters n (h (s.cluster n)) }
def die (s : State) (n : Nat) : Die := tget {} s.dies n
def setDie (s : State) (n : Nat) (x : Die) : State := { s with dies := tset s.dies n x }
def modDie (s : State) (n : Nat) (h : Die → Die) : State := s.setDie n (h (s.die n))
def part (s : State) (n : Nat) : Part := tget {} s.parts n
def setPart (s : State) (n : Nat) (x : Part) : State := { s with parts := tset s.parts n x }
def modPart (s : State) (n : Nat) (h : Part → Part) : State := s.setPart n (h (s.part n))
def vf (s : State) (n : Nat) : Vf := (s.part n).vf
def modVf (s : State) (n : Nat) (h : Vf → Vf) : State := s.modPart n fun p => { p with vf := h p.vf }
def modPkg (s : State) (h : Package → Package) : State := { s with pkg := h s.pkg }
def modGw (s : State) (n : Nat) (h : Gateway → Gateway) : State := s.modDie n fun d => { d with gw := h d.gw }
def meter (s : State) (n : Nat) : Meter := tget {} s.pkg.meters n
def modMeter (s : State) (n : Nat) (h : Meter → Meter) : State :=
  s.modPkg fun p => { p with meters := tset p.meters n (h (tget {} p.meters n)) }
def access (s : State) (id : Nat) : Option Access := tfind s.flight id
def setAccess (s : State) (id : Nat) (a : Access) : State := { s with flight := tset s.flight id a }
def modAccess (s : State) (id : Nat) (h : Access → Access) : State :=
  match tfind s.flight id with
  | some a => { s with flight := tset s.flight id (h a) }
  | none => s
def dropAccess (s : State) (id : Nat) : State := { s with flight := tdel s.flight id }

/-- A meter that a read may use: OPEN, and no close of it has reached its snapshot wheel (R323, R325). -/
def meterOpen (s : State) (n : Nat) : Bool :=
  let m := s.meter n
  let w := s.clock / 1024
  m.isOpen && !m.shut.any fun x => decide (x.1 ≤ w) && x.2.all fun e => decide (w < e)

/-- A die carries circuits (R300). -/
def dieOpen (s : State) (d : Nat) : Bool := (s.die d).trust.state == 4

/-- The wheel and the slot of the clock (R3). -/
def wheel (s : State) : Nat := s.clock / 1024
def slotNo (s : State) : Nat := s.clock % 1024

/-- The executing fibre. -/
def me (s : State) : Fibre := s.fib s.cur
def modMe (s : State) (h : Fibre → Fibre) : State := s.modFib s.cur h

/-- The partition of a core: its tile's tag, 63 for a service core (R281, R373). -/
def partOf (s : State) (c : CoreId) : Nat := if (isService c) then 63 else (s.tile (coreTile c)).ptag
def myPart (s : State) : Nat := s.partOf s.cur.core

/-- General and capability registers of the executing fibre. -/
def gN (s : State) (n : Nat) : Word := lget 0 s.me.g n
def g (s : State) (r : BitVec 3) : Word := s.gN r.toNat
def k (s : State) (r : BitVec 2) : Cap := lget .null s.me.k r.toNat
def setG (s : State) (r : BitVec 3) (v : Word) : State := s.modMe fun f => { f with g := lset f.g r.toNat v }
def setK (s : State) (r : BitVec 2) (c : Cap) : State := s.modMe fun f => { f with k := lset f.k r.toNat c }

/-- Write a g register of a fibre. -/
def setGOf (s : State) (f : FibreRef) (r : BitVec 3) (v : Word) : State :=
  s.modFib f fun x => { x with g := lset x.g r.toNat v }

/-! ## Scheduling (log 4, 5) -/

/-- An event that is due at a time. -/
def sched (s : State) (t : Nat) (e : Instr) : State := { s with agenda := s.agenda ++ [(t, e)] }

/-- An event later in this cycle, after what is already due (R524). -/
def now (s : State) (e : Instr) : State := s.sched s.clock e

/-- A free latency of at least one cycle (R222), and the state after the draw. -/
def draw (s : State) : Nat × State := (1 + Config.delay s.fresh, { s with fresh := s.fresh + 1 })

/-- An event after a free latency (R222). -/
def later (s : State) (e : Instr) : State :=
  let (d, t) := s.draw
  t.sched (s.clock + d) e

/-- A fresh id. -/
def newId (s : State) : Nat × State := (s.nextId, { s with nextId := s.nextId + 1 })

/-- An event is already due. -/
def isDue (s : State) (e : Instr) : Bool := s.agenda.any fun x => x.2 == e

/-- An event that is due at a time, unless it is due already. -/
def schedOnce (s : State) (t : Nat) (e : Instr) : State := if s.isDue e then s else s.sched t e

/-! ## Parking, resuming, retiring (R67 to R70) -/

/-- Park a fibre with a reason code of R70. -/
def parkF (s : State) (f : FibreRef) (reason : Nat) (c : Cont) : State :=
  s.modFib f fun x => { x with status := .parked, park := reason, cont := c, counted := c == .retry || c == .lease }

/-- Park the executing fibre. -/
def parkMe (s : State) (reason : Nat) (c : Cont) : State := s.parkF s.cur reason c

/-- Make a fibre READY: eligible from the next cycle (R68). -/
def ready (s : State) (f : FibreRef) : State :=
  s.modFib f fun x => { x with status := .ready, park := 0, cont := .none, buf := [], readyFrom := s.clock + 1 }

/-- A parked instruction completes: the fibre is READY behind it. -/
def complete (s : State) (f : FibreRef) : State :=
  (s.ready f).modFib f fun x => { x with pc := x.pc + 4 }

/-- The executing instruction is done with busy time b; the PC takes a value (R69). -/
def retireTo (s : State) (b : Nat) (pc : Word) : State :=
  if b ≤ 1 then s.modMe fun f => { f with pc := pc, status := .ready, park := 0, cont := .none, buf := [], readyFrom := s.clock + 1 }
  else (s.modMe fun f => { f with pc := pc, status := .busy, park := 0, cont := .none, buf := [] }).sched (s.clock + b) (.busyExpiry s.cur)

/-- The executing instruction is done with busy time b; the PC moves past it. -/
def retire (s : State) (b : Nat) : State := s.retireTo b (s.me.pc + 4)

/-- The instruction does not proceed in this cycle; it issues again in the next (R225). A debug STEP is not spent on it
(R341). -/
def hold (s : State) : State :=
  let s := s.modMe fun f => { f with readyFrom := s.clock + 1, counted := true }
  if (s.core s.cur.core).halted then s.modCore s.cur.core fun c => { c with step1 := some s.cur.slot } else s

/-! ## Event latches (R499, R500) -/

/-- Event kinds of R499. -/
def evSem : Nat := 0
def evStrm : Nat := 1
def evMsg : Nat := 2
def evBar : Nat := 3
def evTask : Nat := 4
def evReport : Nat := 5
def evWheel : Nat := 6

/-- Set a bit of one fibre's latch; a WFE that selects it returns (R500). -/
def latchOne (clock kind : Nat) (f : Fibre) : Fibre :=
  if f.status = .free then f else
  let l := f.latch ||| 2 ^ kind
  match f.cont with
  | .wfe d sel =>
    if l &&& sel = 0 then { f with latch := l }
    else { f with latch := l &&& (127 - sel % 128), g := lset f.g d.toNat (word (l &&& sel)), pc := f.pc + 4,
                  status := .ready, park := 0, cont := .none, readyFrom := clock + 1 }
  | _ => { f with latch := l }

/-- The partition is stopped: it issues nothing and its network holds still, from the first of slot 0 of W on (R271, R272). -/
def stopped (s : State) (p : Nat) : Bool :=
  let x := s.part p
  decide (2 ≤ x.gs) || (x.gs == 1 && decide (x.stopW * 1024 ≤ s.clock))

/-- How long something has waited since a cycle; a stop of its partition adds nothing (R349). -/
def waitedSince (s : State) (p since : Nat) : Nat := (if s.stopped p then (s.part p).stopW * 1024 else s.clock) - since

/-- An event of a kind at the fibres that the table of R499 gives it to. A fibre of a stopped partition keeps the state in which it was
saved: the resume sets its whole latch (R73, R500). -/
def latch (s : State) (kind : Nat) (who : FibreRef → Bool) : State :=
  { s with fibres := s.fibres.map fun x =>
      if who x.1 && !x.2.stopped && !s.stopped (s.partOf x.1.core) then (x.1, latchOne s.clock kind x.2) else x }

/-! ## Reports (R265) -/

/-- Write an entry of a partition's report ring on a die, which is an event for WFE (R499), or count it as lost where the ring is
full. -/
def report (s : State) (die p : Nat) (r : Report) : State :=
  let q := tget {} (s.die die).rings p
  let put (q : Ring) : State := s.modDie die fun d => { d with rings := tset d.rings p q }
  if (q.tail + 1) % 64 = q.head then put { q with lost := min (q.lost + 1) 0xFFFFFFFF }
  else
    (put { q with entries := tset q.entries q.tail { r with wheel := s.wheel }, tail := (q.tail + 1) % 64 }).latch evReport fun f =>
      if (isService f.core) then f.core == .mgmt else f.core.die == die && s.partOf f.core == p

/-- A report about a fibre, to the ring of the die it runs on. -/
def reportFibre (s : State) (f : FibreRef) (kind cause : Nat) (addr einfo : Word) : State :=
  if (isService f.core) then s else
  s.report f.core.die (s.partOf f.core) { kind, cause, fibre := fibreId f, addr, einfo }

/-! ## Pending imprecise faults and STOP (R263, R264) -/

/-- A park that a pending imprecise fault or STOP abandons (R263): BAR, SEM, STRM, LEASE, TASK, WFE, ENG. -/
def abandons (reason : Nat) : Bool := [4, 5, 6, 8, 9, 10, 11].contains reason

/-- The fibre leaves the waiting lists of semaphores, streams and the lease, and gives up a move that waits for the
move queue. -/
def leaveWaits (s : State) (f : FibreRef) : State :=
  let s := { s with moves := s.moves.filter fun m => !(m.2.who == f && m.2.checking) }
  let s := s.modCore f.core fun c =>
    { c with leaseWait := c.leaseWait.filter (· != f.slot), strmWait := c.strmWait.filter (·.2 != f.slot), semWait := c.semWait.filter (·.2 != f) }
  if (isService f.core) then s
  else s.modTile (coreTile f.core) fun t => { t with semWait := t.semWait.filter (·.2 != f) }

/-- Wake a fibre for what is pending: the parking instruction, a release of the lease that is under way among them, is abandoned
without effect and issues again after the handler's RFT (R84, R263). -/
def wakePending (s : State) (f : FibreRef) : State :=
  let x := s.fib f
  if x.status = .parked ∧ abandons x.park ∧ !x.trap ∧ !x.ending then (s.leaveWaits f).ready f else s

/-- Report a VEC_FAULT (0x10) or MAT_FAULT (0x11) to a fibre (R198, R264). -/
def imprecise (s : State) (f : FibreRef) (cause : Nat) (einfo : Word) (seq : Nat) : State :=
  let x := s.fib f
  if x.status = .free then s.reportFibre f 2 cause (word seq) einfo
  else if x.pendFault.isSome then s.modFib f fun x => { x with lostf := true }
  else (s.modFib f fun x => { x with pendFault := some ⟨cause, einfo, seq⟩ }).wakePending f

/-- A STOP becomes pending for a fibre (R127, R256). -/
def postStop (s : State) (f : FibreRef) : State :=
  if (s.fib f).status = .free then s
  else (s.modFib f fun x => { x with pendStop := true }).wakePending f

/-- A fibre that parks again while a fault or a STOP is pending for it is woken for it where R263 has no exception. -/
def abandonPending (s : State) (f : FibreRef) : State :=
  if (s.fib f).pendFault.isSome ∨ (s.fib f).pendStop then s.wakePending f else s

/-! ## Gangs: the break of R207 -/

/-- Set the state of a dispatch in its core's ring (R262). -/
def ringState (s : State) (c : CoreId) (seq st : Nat) : State :=
  s.modCore c fun x =>
    { x with ring := tmod {} x.ring (seq % 64) fun e => if e.seq = seq then { e with state := st } else e }

/-- EINFO of R199: an address for subcodes 1 to 9, a slot, a subcode. -/
def vecInfo (addr slot sub : Nat) : Word :=
  word ((if sub ≤ 9 then addr % 2 ^ 56 * 256 else 0) + slot % 16 * 16 + sub % 16)

/-- The slot that a gang operation names, or zero. -/
def gangOpSlot : Instr → Nat
  | .mma s _ _ _ _ => s.toNat
  | .mmaHold s _ _ _ _ => s.toNat
  | .mmaHb s _ _ _ => s.toNat
  | .mzero s _ => s.toNat
  | _ => 0

/-- A gang operation is discarded with a subcode; its fibre receives MAT_FAULT (R198). -/
def discardGangOp (s : State) (o : GangOp) (addr sub : Nat) : State :=
  (s.ringState o.fibre.core o.d.seq 3).imprecise o.fibre 0x11 (vecInfo addr (gangOpSlot o.d.i) sub) o.d.seq

/-- A fibre that waits for an entry of the core's dispatch queue issues again (R70, R524). -/
def wakeEng (s : State) (c : CoreId) : State :=
  (s.fibres.filter fun f => f.1.core == c && f.2.park == 11 && f.2.cont == .retry).foldl (fun s f => s.ready f.1) s

/-- Everything that a fibre has dispatched and that has not started is discarded (R198); a fibre parked for the
result of such an instruction issues it again, a fibre that waits for an entry may have one, and what waits for the discarded is
tested again in this cycle (R227, R229, R524). -/
def discardQueued (s : State) (f : FibreRef) : State :=
  let mine := (s.core f.core).disp.filter fun d => d.slot == f.slot
  let s := s.modCore f.core fun c => { c with disp := c.disp.filter fun d => d.slot != f.slot }
  let s := mine.foldl (fun s d => s.ringState f.core d.seq 3) s
  let s := if mine.isEmpty then s else (s.wakeEng f.core).schedOnce s.clock (.dispatchRetire f.core)
  match (s.fib f).cont with
  | .dispatch _ seq => if mine.any (fun d => d.seq == seq) then s.ready f else s
  | _ => s

/-- A gang operation faults (R198): it, every later gang operation of its fibre that has not joined, and what the
fibre has dispatched and has not started are discarded; the fibre receives one MAT_FAULT. -/
def gangFault (s : State) (n : Nat) (o : GangOp) (addr sub : Nat) : State :=
  let later := ((s.gang n).queues.flatMap (·.2)).filter fun x => x.fibre == o.fibre
  let s := s.modGang n fun g => { g with queues := g.queues.map fun q => (q.1, q.2.filter fun x => x.fibre != o.fibre) }
  let s := later.foldl (fun s x => s.ringState x.fibre.core x.d.seq 3) s
  (s.discardQueued o.fibre).discardGangOp o addr sub

/-- An OPEN slot becomes ORPHAN, at once or after its joined operations have written it (R207). -/
def orphan (mmas : List Mma) (n : Nat) (a : AccSlot) : AccSlot :=
  if a.state = 1 then
    if mmas.any (fun m => m.slot == n) then { a with dying := true } else { a with state := 2, dying := false }
  else a

/-- A gang breaks (R207): each fibre with unjoined gang operations receives MAT_FAULT for its first one (R198). -/
def gangBreak (s : State) (n : Nat) : State :=
  let gg := s.gang n
  let s := s.setGang n { gg with
    formed := false, valid := false, hbv := false, slots := gg.slots.map fun x => (x.1, orphan gg.mmas x.1 x.2) }
  (gg.queues.filterMap fun q => q.2.head?).foldl (fun s o => s.gangFault n o 0 15) s

/-- Break the gang of which a fibre is a member (R207). -/
def breakFor (s : State) (f : FibreRef) : State :=
  if (isService f.core) ∨ f.core.kind ≠ 2 then s else
  let n := tileGang (coreTile f.core)
  if (s.gang n).formed ∧ (s.gang n).members.contains f then s.gangBreak n else s

/-! ## Trace records (R348) -/

/-- A 32-byte trace record of a taken branch (1), a trap entry (2) or an RFT (3) of a fibre, when its core is
the one that the cluster's trace unit follows (the layout of the record is log 14). -/
def trace (s : State) (f : FibreRef) (kind : Nat) (pc target : Word) : State :=
  if (isService f.core) then s else
  let n := coreTile f.core
  let c := s.cluster (tileCluster n)
  if c.trOwner ≠ 0 ∧ field c.trSel 34 32 = f.core.kind ∧ field c.trSel 19 16 = tileY n % 4 * 4 + tileX n % 4 then
    let dst := paOf 3 f.core.die (field c.trSel 46 40 * 2 ^ 20 + c.trPos)
    let s := s.writeBytes dst (leBytes 8 s.wheel ++ leBytes 2 s.slotNo ++ leBytes 2 kind ++ leBytes 4 (fibreId f)
      ++ leBytes 8 pc.toNat ++ leBytes 8 target.toNat)
    s.modCluster (tileCluster n) fun c => { c with trPos := (c.trPos + 32) % 2 ^ 20 }
  else s

/-! ## Ending a fibre (R77) -/

/-- The tile moves that a fibre issued and that have not incremented their semaphore (R77). -/
def movesOf (s : State) (f : FibreRef) : Bool := s.moves.any fun m => m.2.who == f && !m.2.checking

/-- Vector and SHAPE lane writes of a fibre that are not acknowledged (R224). -/
def laneWritesOf (s : State) (f : FibreRef) : Bool :=
  s.flight.any fun a => a.2.who == f && (match a.2.op with | .laneWrite _ _ => true | _ => false)

/-- Dispatched instructions of a slot that have not retired (R84). -/
def dispatchedOf (s : State) (f : FibreRef) : Bool :=
  let c := s.core f.core
  c.disp.any (·.slot == f.slot) || c.running.any (·.slot == f.slot) ||
    (f.core.kind == 2 && !(isService f.core) && (s.gang (tileGang (coreTile f.core))).queues.any (fun q => q.2.any (·.fibre == f)) ||
     f.core.kind == 2 && !(isService f.core) && (s.gang (tileGang (coreTile f.core))).mmas.any (fun m => m.ops.any (·.fibre == f)))

/-- What FEXIT still waits for has ended or the next of its waits begins (R77). -/
def exitCheck (s : State) (f : FibreRef) : State :=
  let x := s.fib f
  match x.cont with
  | .exit =>
    if x.outs ≠ 0 ∨ s.movesOf f then s
    else if x.vl then ((s.parkF f 8 (.leaseDrop true)).schedOnce s.clock (.leaseRelease f.core)).abandonPending f
    else if s.laneWritesOf f then s
    else s.schedOnce s.clock (.exitComplete f)
  | _ => s

/-- FEXIT begins its waits (R77). -/
def beginExit (s : State) (f : FibreRef) : State :=
  ((s.leaveWaits f).parkF f 2 .exit).exitCheck f

/-- Mark a fibre's task as ended by a fault (R110). -/
def markFault (s : State) (f : FibreRef) : State :=
  let x := s.fib f
  if x.inTask then
    s.modDie x.tdie fun d => { d with tasks := tmod {} d.tasks x.taskix fun t => { t with faulted := true } }
  else s

/-! ## Taking a trap and returning from one (R256 to R259) -/

/-- The level of a cause (R256), before it is raised to the fibre's own. -/
def causeLevel (cause pl : Nat) : Nat :=
  if cause = 0x15 then min (pl + 1) 3 else if cause = 0x1B then 2 else 1

/-- The trap code capability of a level on a core (R255). Those of Root, and that of H on the management core, are the ones that firmware
has installed once it runs there, and on a die once it is OPEN (log 87). -/
def trapCap (s : State) (c : CoreId) (l : Nat) : Cap :=
  if l = 3 ∨ (c = .mgmt ∧ l = 2) then
    if (if c = .root then s.pkg.start.phase != 0 else if c = .mgmt then s.pkg.mgrun else (s.die c.die).trust.state == 4) then
      ⟨(Config.rootTrap (4 * fibreId ⟨c, 0⟩ + l) &&& BitVec.ofNat 128 (2 ^ 126 - 1)) ||| BitVec.ofNat 128 (2 ^ 127), true⟩
    else .null
  else lget .null (s.core c).tcap (l - 1)

/-- TrapEntry of R258. The PC is always a multiple of 4 (R362): a target that a cursor makes no multiple is rounded down (DESIGN CHOICE,
log 102). -/
def trapEntry (s : State) (f : FibreRef) (cause : Nat) (info : Word) (imp : Bool) (pc : Word) : State :=
  let x := s.fib f
  let l := max (causeLevel cause x.pl) x.pl
  let c := s.core f.core
  let kc := s.trapCap f.core l
  if x.trap || !kc.tag then
    (((s.reportFibre f 3 cause pc info).markFault f).modFib f fun x => { x with ending := true }).beginExit f
  else
    let target := (word kc.cursor + lget 0 c.tvec (l - 1)) &&& ~~~3#64
    let s := s.modFib f fun x => { x with
      status := .ready, readyFrom := s.clock + 1, park := 0, cont := .none, buf := []
      ppl := x.pl, imp := imp, epc := pc, cause := word cause, einfo := info
      savedCode := x.code, pl := l, trap := true, code := kc, pc := target, fbuf := none, counted := false, again := false, measured := false }
    (s.trace f 2 pc target).breakFor f

/-- Raise a precise trap at the executing instruction (R382): no effect of the instruction remains. -/
def raise (s : State) (cause : Nat) (info : Word) : Out := .next (s.trapEntry s.cur cause info false s.me.pc)

/-- RFT of R259. -/
def returnTrap (s : State) (f : FibreRef) : State :=
  let x := s.fib f
  let s := s.modFib f fun x => { x with
    pc := x.epc, pl := x.ppl, trap := false, code := x.savedCode, fbuf := none, counted := false
    status := .ready, park := 0, cont := .none, readyFrom := s.clock + 1 }
  s.trace f 3 x.pc x.epc

/-! ## Event counters (R343 to R346) -/

/-- The ids of R345 that this device counts; the vendor ids count nothing it names (log 9). -/
def evKnown (id : Nat) : Bool :=
  [1, 2, 3, 0x20, 0x21, 0x30, 0x40, 0x41, 0x50, 0x60].contains id || (decide (0x11 ≤ id) && decide (id ≤ 0x1D))

/-- Add to a bank: it wraps and sets OVF when it does (R343). -/
def bankAdd (b : EvBank) (n : Nat) : EvBank :=
  let t := b.cnt.toNat + n
  { b with cnt := word t, ctl := if 2 ^ 64 ≤ t then b.ctl ||| (1#64 <<< 61) else b.ctl }

/-- A partition is stopped in this cycle: from slot 0 of W until slot 0 of W'' (R271, R347). -/
def stopCycle (s : State) (p : Nat) : Bool :=
  let x := s.part p
  decide (p < 48) && (if x.gs = 0 then false else if x.gs = 1 then decide (x.stopW * 1024 ≤ s.clock)
    else if x.gs = 5 then decide (s.clock < x.resumeW * 1024) else true)

/-- The banks of a tile that count events of an id, at core kinds of a mask: a guest bank does not while its partition is stopped
(R345, R347). -/
def bankCounts (s : State) (t : Tile) (kinds id : Nat) (b : Nat × EvBank) : Bool :=
  bitN b.2.ctl.toNat 31 && field b.2.ctl 34 32 &&& kinds != 0 && field b.2.ctl 15 0 == id && evKnown id
    && !(decide (b.1 < 4) && !bitN t.seize b.1 && s.stopCycle t.ptag)

/-- Count n events of an id at a core kind of a tile (R345). -/
def count (s : State) (tile kind id n : Nat) : State :=
  if n = 0 then s else
  let t := s.tile tile
  s.setTile tile { t with banks := t.banks.map fun b => if s.bankCounts t (2 ^ kind) id b then (b.1, bankAdd b.2 n) else b }

/-- Count n events of an id that a tile, not a core of it, meets: banks of any kind add them (R345). -/
def countTile (s : State) (tile id n : Nat) : State :=
  let t := s.tile tile
  if t.banks.isEmpty then s
  else s.setTile tile { t with banks := t.banks.map fun b => if s.bankCounts t 7 id b then (b.1, bankAdd b.2 n) else b }

/-- Count events of a compute core. -/
def countCore (s : State) (c : CoreId) (id n : Nat) : State :=
  if (isService c) then s else s.count (coreTile c) c.kind id n

/-! ## Delay accounts (R349, R350) -/

/-- Add a delay to an account of a core; both parts saturate. -/
def addDelay (s : State) (c : CoreId) (cls wait : Nat) : State :=
  s.modCore c fun x => { x with dly := tmod (0, 0) x.dly cls fun (sum, n) =>
    (min (sum + min wait 65535) (2 ^ 40 - 1), min (n + 1) (2 ^ 24 - 1)) }

/-! ## Power (R359) -/

/-- A die spends the tokens that its activity coefficient gives an event; below its matrix reserve of a tenth of its
allotment, and at zero, its gates close. -/
def spend (s : State) (die grp : Nat) : State :=
  let d := s.die die
  let t := d.spentTok + Config.activity grp
  let s := s.modDie die fun d => { d with spentTok := t }
  let left := d.allot - t
  if ((left < d.allot / 10 ∨ left = 0) ∧ !d.mgate) ∨ (left = 0 ∧ !d.vgate) then s.schedOnce s.clock (.issueGate die) else s

end State

end Sys2Proof.Machine
end

