-- ==== Sys2Proof/Machine/Operands.lean ====
section
/-! DEFINITION. Operand forms: effective addresses, the home of an address, the checks on a capability, the
windows, and the map of the device registers (05 R121 to R147; 16 R364, R382). -/

namespace Sys2Proof.Machine

/-! ## Homes (R121, R122, R132) -/

/-- An address as the 56 bits that an access carries. -/
def va56 (a : Nat) : Nat := a % 2 ^ 56

/-- The word FST of a fibre (R66). -/
def fstWord (x : Fibre) : Word :=
  word (x.tdie % 8 * 2 ^ 48 + x.taskix % 4096 * 2 ^ 36 + x.pl % 4 * 2 ^ 34 + b2n x.trap * 2 ^ 33 + b2n x.vl * 2 ^ 32
    + b2n x.msg * 2 ^ 31 + b2n x.rpl * 2 ^ 30 + x.outs % 256 * 2 ^ 16 + x.park % 16 * 2 ^ 12 + x.walks % 4096)

/-- The block exists on the die (R125, R126). -/
def blockExists (die block : Nat) : Bool :=
  if block = 1 then decide (die ≤ 6)
  else if block = 4 then decide (die = 6)
  else (block = 0 ∨ block = 2 ∨ block = 3 ∨ (0x40 ≤ block ∧ block ≤ 0x6F)) && decide (die ≤ 5)

namespace State

/-- The tile that a logical number names: the alias 4,095, the partition's table, or the tile number itself
for a service core (R122). -/
def logicalTile (s : State) (p : Nat) (c : CoreId) (l : Nat) : Option Nat :=
  if isService c then (if l < 1536 then some l else none)
  else if l = 4095 then some (coreTile c)
  else if l < 1536 then tfind (s.part p).tab l
  else none

/-- Home of R132 for a core of a partition, with the alias of R122. -/
def homeIn (s : State) (p : Nat) (c : CoreId) (space a : Nat) : Option Home :=
  if space = 1 ∨ space = 2 then
    if bits a 63 32 ≠ 0 then none else
    (s.logicalTile p c (bits a 31 20)).map fun t => .mem (paOf space t (bits a 19 0))
  else if space = 3 then
    if bits a 63 30 ≠ 0 ∨ 5 < bits a 29 27 ∨ 79 < bits a 26 20 then none
    else some (.mem (paOf 3 (bits a 29 27) (bits a 26 0)))
  else if space = 4 then
    if 5 < bits a 55 53 then none else some (.gateway (bits a 55 53) (bits a 52 0))
  else if space = 5 ∨ space = 6 then some (.gateway 6 (bits a 55 0))
  else if space = 7 then
    if isService c ∧ bits a 63 19 = 0 ∧ (c = .root ∨ bits a 18 18 = 0) then
      some (.mem (paOf 7 c.tile (bits a 18 0)))
    else none
  else if space = 8 then
    if bits a 63 32 = 0 ∧ blockExists (bits a 31 28) (bits a 27 20) ∧ (isService c ∨ bits a 27 20 < 0x40) then
      some (.reg (bits a 31 28) (bits a 27 20) (bits a 19 0))
    else none
  else none

/-- Home of R132 for a core. -/
def home (s : State) (c : CoreId) (space a : Nat) : Option Home := s.homeIn (s.partOf c) c space a

/-! ## Windows (R129, R147, R313) -/

/-- A metered window as bytes: its meter, first byte and length, and whether it covers the cluster slice. -/
def winOf (w : Word × Word) : Nat × Nat × Nat × Bool :=
  (field w.1 63 52, field w.1 44 12 * 4096, field w.2 24 0 * 4096, bitN w.1.toNat 48)

/-- Two spans share a byte. -/
def meets (a n b m : Nat) : Bool := decide (a < b + m) && decide (b < a + n)

/-- The meters of the active windows that n bytes at a physical address touch (R147). -/
def metersAt (s : State) (pa n : Nat) : List Nat :=
  let i := paIdx pa
  let o := paOff pa
  let ws : List (Nat × Nat × Nat × Bool) :=
    match paKind pa with
    | 1 => ((s.tile i).mwin.map fun w : Nat × Word × Word => winOf w.2).filter fun w : Nat × Nat × Nat × Bool => !w.2.2.2
    | 2 => ((s.tile i).mwin.map fun w : Nat × Word × Word => winOf w.2).filter fun w : Nat × Nat × Nat × Bool => w.2.2.2
    | 3 => (s.die i).mwinDie.map fun w : Nat × Word × Word => winOf w.2
    | 4 => (s.die i).mwinHbm.map fun w : Nat × Word × Word => winOf w.2
    | _ => []
  (ws.filter fun w => w.1 != 0 && meets o n w.2.1 w.2.2.1).map (·.1)

/-- R147 refuses an access below Root: some window it touches has another meter. -/
def windowBad (s : State) (pa n meter : Nat) : Bool := (s.metersAt pa n).any (· != meter)

/-- A code window as bytes: active, first byte, length, cluster slice (R313). -/
def codeWinOf (w : Word) : Bool × Nat × Nat × Bool :=
  (bitN w.toNat 63, field w 31 12 * 4096, field w 52 32 * 4096, bitN w.toNat 53)

/-- The active code windows over the unit of a physical address. -/
def codeWins (s : State) (pa : Nat) : List (Bool × Nat × Nat × Bool) :=
  let i := paIdx pa
  let ws :=
    match paKind pa with
    | 1 => ((s.tile i).cwin.map fun w : Nat × Word => codeWinOf w.2).filter fun w : Bool × Nat × Nat × Bool => !w.2.2.2
    | 2 => ((s.tile i).cwin.map fun w : Nat × Word => codeWinOf w.2).filter fun w : Bool × Nat × Nat × Bool => w.2.2.2
    | 3 => (s.die i).cwin.map fun w : Nat × Word => codeWinOf w.2
    | _ => []
  ws.filter (·.1)

/-- An active code window covers a byte of the span (R313). -/
def codeTouched (s : State) (pa n : Nat) : Bool :=
  (s.codeWins pa).any fun w => meets (paOff pa) n w.2.1 w.2.2.1

/-- Active code windows cover every byte of a word (R260 step 4, R313). -/
def codeCovered (s : State) (pa : Nat) : Bool :=
  (List.range 4).all fun i => (s.codeWins pa).any fun w => meets (paOff pa + i) 1 w.2.1 w.2.2.1

/-- The window checks of CheckCap at a physical address (R147, R313, R421, R65). -/
def windowFault (s : State) (pa n meter : Nat) (root write : Bool) : Bool :=
  (!root && s.windowBad pa n meter) || (write && !root && s.codeTouched pa n) ||
    (write && paKind pa == 7 && paIdx pa == 0 &&
      (meets (paOff pa) n 0x78000 0x4000 || meets (paOff pa) n 0x7FE00 0x200))

/-! ## Checking a capability (R144, R382) -/

/-- EINFO of R144: the address and the capability register. -/
def capInfo (a kn : Nat) : Word := word (a % 2 ^ 56 + kn % 4 * 2 ^ 56)

/-- Steps 1 to 4 of R144: tag, seal and permissions, space, bounds. -/
def capSteps (c : Cap) (svc : Bool) (a n perm : Nat) (allowO : Bool) : Option Nat :=
  if !c.tag then some 4
  else if c.sealOf ≠ 0 ∨ c.perms &&& perm ≠ perm ∨ (c.has Cap.permO ∧ !allowO) then some 5
  else if c.space = 0 ∨ 9 ≤ c.space ∨ (c.space = 7 ∧ !svc) then some 6
  else if (a : Int) < c.bounds.1 ∨ c.bounds.2 < (a + n : Nat) then some 7
  else none

/-- The permission sets of CheckCap, as masks of PERMS. -/
def pR : Nat := 1
def pW : Nat := 2
def pRWA : Nat := 19
def pWA : Nat := 18
def pRW : Nat := 3

/-- The units in which a span is checked: no home of R132 begins or ends inside one, but at a die of space 4. -/
def homeUnit : Nat := 2 ^ 18

/-- CheckCap of R382 for a fibre's core: the home of the first byte, or the cause. Every piece of the span
has a home and passes the windows. -/
def checkCapAt (s : State) (core : CoreId) (root : Bool) (c : Cap) (a n perm : Nat) (write allowO : Bool) :
    Except Nat Home :=
  match capSteps c (isService core) a n perm allowO with
  | some e => .error e
  | none =>
    let homes := (pieces homeUnit (n / homeUnit + 2) a n).map fun p => (s.home core c.space p.1, p.2)
    if homes.any (fun h => h.1.isNone) then .error 6
    else if homes.any (fun h => match h.1 with
        | some (.mem pa) => s.windowFault pa h.2 c.meter root write
        | _ => false) then .error 5
    else match s.home core c.space a with
      | some h => .ok h
      | none => .error 6

/-- The lowest byte of a span for which a check of CheckCap fails with a cause: the first of the span for the tag, the seal, the
permissions and the space; the first outside KBounds; the first without a home; the first in a window (R144, R267). -/
def failingByte (s : State) (core : CoreId) (root : Bool) (c : Cap) (a n : Nat) (write : Bool) (cause : Nat) : Nat :=
  let ps := pieces homeUnit (n / homeUnit + 2) a n
  if cause = 7 then (if (a : Int) < c.bounds.1 then a else max a c.bounds.2.toNat)
  else if cause = 6 then ((ps.find? fun p => (s.home core c.space p.1).isNone).map (·.1)).getD a
  else if cause = 5 then
    let bad (p : Nat × Nat) : Bool := match s.home core c.space p.1 with
      | some (.mem pa) => s.windowFault pa p.2 c.meter root write
      | _ => false
    match ps.find? bad with
    | some p => ((pieces 512 (p.2 / 512 + 2) p.1 p.2).find? bad).elim a (·.1)
    | none => a
  else a

/-- CheckCap for a span (R382): the home of its first byte, or the cause and the lowest failing byte. -/
def checkSpanAt (s : State) (core : CoreId) (root : Bool) (c : Cap) (a n perm : Nat) (write allowO : Bool) :
    Except (Nat × Nat) Home :=
  match s.checkCapAt core root c a n perm write allowO with
  | .ok h => .ok h
  | .error e =>
    .error (e, match capSteps c (isService core) a n perm allowO with
      | some 5 => a
      | some 6 => a
      | _ => s.failingByte core root c a n write e)

/-- CheckCap for the executing fibre (R382). -/
def checkCap (s : State) (c : Cap) (a n perm : Nat) (write : Bool) : Except Nat Home :=
  s.checkCapAt s.cur.core (s.me.pl == 3) c a n perm write false

/-- CheckCap of a block for the executing fibre: the cause and the lowest failing byte (R144, R382). -/
def checkBlock (s : State) (c : Cap) (a n perm : Nat) (write : Bool) : Except (Nat × Nat) Home :=
  s.checkSpanAt s.cur.core (s.me.pl == 3) c a n perm write false

/-- EINFO of PAGE_FAULT and PAGE_PERM at a gateway (R157): the virtual address, which in space 4 is `[52:0]` (R121); on a service
core the address (R124). -/
def pageInfo (core : CoreId) (space a : Nat) : Word := word (if space = 4 ∧ !isService core then a % 2 ^ 53 else va56 a)

/-- The granule of a die-store address belongs to the executing partition, or the core is a service core
(R123). -/
def granuleOk (s : State) (core : CoreId) (pa : Nat) : Bool :=
  isService core || paKind pa != 3 ||
    tfind (s.die (paIdx pa)).granules (paOff pa / 2 ^ 20) == some (s.partOf core)

/-! ## Effective addresses (R364, R418, R446) -/

/-- kb.cursor + (IX = 1 ? g[gi] : 0) + an offset, modulo 2^64. -/
def memAddr (s : State) (k : BitVec 2) (x : BitVec 1) (gi : BitVec 3) (off : Int) : Nat :=
  wrap 64 ((s.k k).cursor + (if x = 1#1 then ((s.g gi).toNat : Int) else 0) + off)

/-- A capability's cursor plus a signed 32-bit half of a g register (R368, R370, R418). -/
def halfAddr (c : Cap) (g : Word) (hi : Bool) : Nat :=
  wrap 64 (c.cursor + sext (if hi then field g 63 32 else field g 31 0) 32)

/-! ## Device registers (R125 to R131) -/

/-- A register of space 8: a 16-byte table entry, or an 8-byte register; the privileges for reading and
writing. -/
def regRow (die block off : Nat) : Option (Bool × Nat × Nat) :=
  let blk := if 0x40 ≤ block then 0 else block
  let pl := if 0x40 ≤ block then 2 else 1
  let r8 (lo hi : Nat) : Bool := decide (lo ≤ off) && decide (off ≤ hi) && off % 8 == 0
  let r16 (lo hi : Nat) : Bool := decide (lo ≤ off) && decide (off ≤ hi)
  if blk = 0 then
    if r16 0 0x13FF || r16 0x2000 0x7FFF then some (true, pl, pl)
    else if r8 0x1400 0x1400 || r8 0x40000 0x40810 || r8 0x41000 0x41408 || r8 0x41800 0x41840 || r8 0x50000 0x50008
      || r8 0x50100 0x501B8 || r8 0x51000 0x51BF8 || r8 0x60000 0x60078 then some (false, pl, pl)
    else none
  else if block = 1 then
    if r8 0 0x2FF || r8 0x1000 0x1008 || r8 0x2000 (0x2000 + (if die = 6 then 431 else 47) * 8) || r8 0x3000 0x3000 then
      some (false, 2, 2)
    else none
  else if block = 2 then
    if r8 0 0x40FF || r8 0x5000 0x53FF || r8 0x60000 0x6207F then some (false, 1, 3) else none
  else if block = 3 then
    if r16 0 0x2FFF then some (true, 2, 2)
    else if r8 0x4000 0x47FF || r8 0x10000 0x10178 || r8 0x20000 0x287FF || r8 0x30000 0x30078 then some (false, 2, 2)
    else none
  else
    if r8 0x10000 0x10000 || r8 0x10100 0x10278 || r8 0x20000 0x20028 || r8 0x20040 0x20040 || r8 0x31000 0x31028
      || r8 0x31100 0x31100 || r8 0x40000 0x40178 || r8 0x50000 0x50038 || r8 0x50100 0x50100 || r8 0x60000 0x60000
      || r8 0x60100 0x60278 then some (false, 2, 2)
    else if r8 0x80000 0xBFFF8 || r8 0xC0010 0xC0010 then some (false, 3, 3)
    else if r16 0xC0000 0xC000F then some (true, 3, 3)
    else none

/-- The partition in whose view a block-0x00 register is read or written (R126). A service core, which belongs to no partition,
has at block 0x00 the view of partition 63: its registers read zero and ignore writes (DESIGN CHOICE, log 85). -/
def regPart (s : State) (core : CoreId) (block : Nat) : Nat := if 0x40 ≤ block then block - 0x40 else s.partOf core

/-- The precise trap of a space-8 access at issue, after R144 (R125, R126, R131, R411): an address that is no
register of this width, a privilege too low, or a write while the management core runs. -/
def regTrap (s : State) (die block off a kn : Nat) (wide write : Bool) : Option (Nat × Word) :=
  match regRow die block off with
  | none => some (8, word a)
  | some (table, r, w) =>
    if table != wide then some (8, word a)
    else if s.me.pl < (if write then w else r) then some (3, 0)
    else if write && s.pkg.mgrun && block == 4 && decide (0x80000 ≤ off) && decide (off < 0xC0010) then some (5, capInfo a kn)
    else none

end State

end Sys2Proof.Machine
end

