-- ==== Sys2Proof/Machine/Merge.lean ====
section
/-! DEFINITION. Atomics (17 R385) and their merging in residue buffers (02 R39). -/

namespace Sys2Proof.Machine

/-- The new value of an atomic (R385) from the old one, the operand and the comparand, at n bytes; none
where an ACAS does not match. -/
def atomicNew (op n old x cmp : Nat) : Option Nat :=
  let w := 8 * n
  let x := x % 2 ^ w
  let sgn (v : Nat) : Int := sext v w
  match op with
  | 0 => some ((old + x) % 2 ^ w)
  | 1 => some (if sgn x < sgn old then x else old)
  | 2 => some (if sgn old < sgn x then x else old)
  | 3 => some (min old x)
  | 4 => some (max old x)
  | 5 => some (old &&& x)
  | 6 => some (old ||| x)
  | 7 => some (old ^^^ x)
  | 8 => some x
  | 9 => some (fpAddCodes fmt32 0 old x).1
  | 10 => some (fpAddCodes fmt64 0 old x).1
  | _ => if old = cmp % 2 ^ w then some x else none

/-- Two atomics merge when their operation does (R39). -/
def mergeable (op : Nat) : Bool := decide (op ≤ 7) || op == 9 || op == 10

/-- The operand of two merged atomics (R39). -/
def mergedOperand (op n x y : Nat) : Nat := (atomicNew op n (x % 2 ^ (8 * n)) y 0).getD x

namespace State

/-- A non-returning atomic that has been sent to be merged (R39): its access. -/
def mergeAccess (s : State) (f : RFlit) : Option (Nat × Access × Nat × Nat) :=
  match f.ev with
  | some (.homeAccess id) =>
    (match s.access id with
     | some a => if a.router then (match a.op with | .atomic none op v _ => some (id, a, op, v) | _ => none) else none
     | none => none)
  | _ => none

/-- The access of a buffered flit into which another merges (R39): the same partition, home, address, op and
width. -/
def mergeInto (s : State) (b : RBuf) (f : RFlit) : Option (Nat × Nat) :=
  match s.mergeAccess f with
  | none => none
  | some (_, a, op, _) =>
    if !mergeable op then none else
    (b.flits.filterMap fun g => match s.mergeAccess g with
      | some (id, c, op', v) =>
        if c.part == a.part && c.space == a.space && c.va == a.va && c.size == a.size && op' == op && g.dst == f.dst then some (id, v) else none
      | none => none).head?

/-- The state after a flit has merged into one of a buffer, if it merges (R39). -/
def mergeFlit (s : State) (b : RBuf) (f : RFlit) : Option State :=
  match s.mergeInto b f, s.mergeAccess f with
  | some (into, v), some (id, a, op, x) =>
    let s := s.modAccess into fun c => { c with op := .atomic none op (mergedOperand op a.size v x) 0, merged := c.merged ++ id :: a.merged }
    some (s.modAccess id fun c => { c with router := false, stage := .queued })
  | _, _ => none

end State

end Sys2Proof.Machine
end

