-- ==== Sys2Proof/Machine/Lanes.lean ====
section
/-! DEFINITION. Vector, accumulator and mask registers, their lanes and masks (07 R192 to R194), the registers that an instruction
writes, and the lanes of a VMEM instruction (20 R491, R492). -/

namespace Sys2Proof.Machine

/-! ## Lanes and masks -/

/-- Lane l of width w of a register (R192). -/
def laneOf {n : Nat} (v : BitVec n) (w l : Nat) : Nat := field v (w * (l + 1) - 1) (w * l)

/-- A register of n bits from lanes of width w, lane 0 first. -/
def ofLanes (n w : Nat) (ls : List Nat) : BitVec n := BitVec.ofNat n (ls.foldr (fun x acc => x % 2 ^ w + 2 ^ w * acc) 0)

/-- The mask bit that governs lane l of width w (R194). -/
def laneOn (mask : BitVec 32) (w l : Nat) : Bool := bitN mask.toNat (l * w / 32)

/-- The mask register that a mod field names (R366). -/
def maskNo (m : BitVec 4) : Nat := m.toNat % 8

/-! ## Registers (R193) -/

/-- A register by its key: v n, 32 + a n, 40 + m n. -/
def fileReg (c : Core) (key : Nat) : BitVec 2048 :=
  if key < 32 then (tget 0 c.v key).setWidth 2048
  else if key < 40 then tget 0 c.a (key - 32) else (tget 0 c.m (key - 40)).setWidth 2048

def setFileReg (c : Core) (key : Nat) (x : BitVec 2048) : Core :=
  if key < 32 then { c with v := tset c.v key (x.setWidth 1024) }
  else if key < 40 then { c with a := tset c.a (key - 32) x } else { c with m := tset c.m (key - 40) (x.setWidth 32) }

/-- The space of the capability of a vector memory form, and the size of its lanes (R491). -/
def vmemOf : Instr → Option (BitVec 2 × Nat)
  | .vld _ k _ _ _ _ => some (k, 4)
  | .vst _ k _ _ _ _ => some (k, 4)
  | .vgth _ k _ _ w => some (k, if w = 1#1 then 8 else 4)
  | .vsct _ k _ _ w => some (k, if w = 1#1 then 8 else 4)
  | _ => none

/-- The name of an address in a dispatched instruction's buffer. -/
def vaKey (space a : Nat) : Nat := space * 2 ^ 56 + va56 a

/-- What a started instruction writes to registers: for VLD and VGTH the lanes that have been read, in the
destination's old value (R492). -/
def dispWr (d : Disp) : List (Nat × BitVec 2048) :=
  let load (k : BitVec 2) (n : Nat) : List (Nat × BitVec 2048) :=
    d.wr.map fun w =>
      let ls := (List.range (128 / n)).map fun l =>
        match tfind d.lanes l with
        | some a => leNat (tget [] d.buf (vaKey (lget .null d.k k.toNat).space a))
        | none => laneOf w.2 (8 * n) l
      (w.1, (ofLanes 1024 (8 * n) ls).setWidth 2048)
  match d.i with
  | .vld _ k _ _ _ _ => load k 4
  | .vgth _ k _ _ w => load k (if w = 1#1 then 8 else 4)
  | _ => d.wr

/-- The latest value of a register in dispatch order: from the last started instruction that writes it, else from
the file (R195). -/
def regOf (c : Core) (key : Nat) : BitVec 2048 :=
  match (c.running.filterMap fun d => tfind (dispWr d) key).getLast? with
  | some x => x
  | none => fileReg c key

def vOf (c : Core) (n : BitVec 5) : BitVec 1024 := (regOf c n.toNat).setWidth 1024
def aOf (c : Core) (n : BitVec 3) : BitVec 2048 := regOf c (32 + n.toNat)
def mOf (c : Core) (n : Nat) : BitVec 32 := (regOf c (40 + n)).setWidth 32

/-- The mask of a mod field (R194, R366). -/
def maskOf (c : Core) (m : BitVec 4) : BitVec 32 := if Instr.masked m then mOf c (maskNo m) else BitVec.allOnes 32

/-- The active lanes of a VMEM instruction and their addresses (R492). -/
def vmemLanes (c : Core) (d : Disp) : List (Nat × Nat) :=
  let cap (k : BitVec 2) : Cap := lget .null d.k k.toNat
  let linear (k : BitVec 2) (m : BitVec 4) (x : BitVec 1) (gi : BitVec 3) (o : BitVec 9) : List (Nat × Nat) :=
    let ix : Int := if x = 1#1 then ((lget 0 d.g gi.toNat).toNat : Int) else 0
    ((List.range 32).filter fun l => laneOn (maskOf c m) 32 l).map fun l =>
      (l, wrap 64 ((cap k).cursor + ix + sext o.toNat 9 * 128 + 4 * l))
  let indexed (k : BitVec 2) (m : BitVec 4) (v : BitVec 5) (w : BitVec 1) : List (Nat × Nat) :=
    let n := if w = 1#1 then 8 else 4
    ((List.range (128 / n)).filter fun l => laneOn (maskOf c m) (8 * n) l).map fun l =>
      (l, wrap 64 ((cap k).cursor + sext (laneOf (vOf c v) 32 (l * n / 4)) 32))
  match d.i with
  | .vld _ k m x gi o => linear k m x gi o
  | .vst _ k m x gi o => linear k m x gi o
  | .vgth _ k m v w => indexed k m v w
  | .vsct _ k m v w => indexed k m v w
  | _ => []

/-- The registers that an instruction writes, by key. -/
def regsDest : Instr → List Nat
  | .vadd d _ _ _ _ => [d.toNat]
  | .vsub d _ _ _ _ => [d.toNat]
  | .vmul d _ _ _ _ => [d.toNat]
  | .vmin d _ _ _ _ => [d.toNat]
  | .vmax d _ _ _ _ => [d.toNat]
  | .vand d _ _ _ _ => [d.toNat]
  | .vor d _ _ _ _ => [d.toNat]
  | .vxor d _ _ _ _ => [d.toNat]
  | .vsh d _ _ _ _ => [d.toNat]
  | .vclz d _ _ _ => [d.toNat]
  | .vffs d _ _ _ => [d.toNat]
  | .vpopc d _ _ _ => [d.toNat]
  | .vfadd d _ _ _ _ => [d.toNat]
  | .vfsub d _ _ _ _ => [d.toNat]
  | .vfmul d _ _ _ _ => [d.toNat]
  | .vfma d _ _ _ _ => [d.toNat]
  | .vfmin d _ _ _ _ => [d.toNat]
  | .vfmax d _ _ _ _ => [d.toNat]
  | .vexp2 d _ _ _ => [d.toNat]
  | .vlog2 d _ _ _ => [d.toNat]
  | .vrcp d _ _ _ => [d.toNat]
  | .vrsq d _ _ _ => [d.toNat]
  | .vtanh d _ _ _ => [d.toNat]
  | .vcmp d _ _ _ _ => [40 + d.toNat]
  | .vsel d _ _ _ _ => [d.toNat]
  | .vperm d _ _ _ _ => [d.toNat]
  | .vbcst d _ _ _ => [d.toNat]
  | .vcvt d _ _ _ _ _ => [d.toNat]
  | .vins d _ _ _ _ => [d.toNat]
  | .vred d _ _ _ _ => [d.toNat]
  | .vld d _ _ _ _ _ => [d.toNat]
  | .vgth d _ _ _ _ => [d.toNat]
  | .vmac d _ _ _ _ => [32 + d.toNat]
  | .vaclr d => [32 + d.toNat]
  | .vnrw d _ _ _ => [d.toNat]
  | .mrd _ d => [d.toNat]
  | .mrdRel _ d => [d.toNat]
  | _ => []

/-- The value of a register changes no more before an instruction behind others in the dispatch queue: none of them writes it, and no
started load of it is out. -/
def regFixed (c : Core) (ahead : List Disp) (key : Nat) : Bool :=
  !(ahead.any fun d => (regsDest d.i).contains key) && !c.running.any fun d => d.reads != 0 && (regsDest d.i).contains key

/-- The registers that decide which bytes a VMEM instruction touches: its mask, and the index of a gather or scatter. -/
def laneRegs : Instr → List Nat
  | .vld _ _ m _ _ _ => if Instr.masked m then [40 + maskNo m] else []
  | .vst _ _ m _ _ _ => if Instr.masked m then [40 + maskNo m] else []
  | .vgth _ _ m v _ => v.toNat :: if Instr.masked m then [40 + maskNo m] else []
  | .vsct _ _ m v _ => v.toNat :: if Instr.masked m then [40 + maskNo m] else []
  | _ => []

/-- The cycles from the last answer of another home to the result of a VMEM instruction, and from the start when no home answers
(R219). -/
def vmemTail (d : Disp) : Nat :=
  match d.i with
  | .vgth _ _ _ _ _ => 8 + ceilDiv d.lanes.length 4
  | .vsct _ _ _ _ _ => 8 + ceilDiv d.lanes.length 4
  | _ => 6

end Sys2Proof.Machine
end

