-- ==== Sys2Proof/Machine/Walk.lean ====
section
/-! DEFINITION. Translation (05 R124, R131, R154 to R158): the walk of a page table, the translation of an
address, the physical pieces of a span, and where the bytes of a span lie (08 R225). -/

namespace Sys2Proof.Machine

/-- The memory behind a compute die's gateway (R124). -/
def hbmBytes : Nat := 96 * 2 ^ 30

/-- The bytes of a page of a size code (R156). -/
def pageBytes (sz : Nat) : Nat :=
  match sz with
  | 0 => 2 ^ 12 | 1 => 2 ^ 14 | 2 => 2 ^ 16 | 3 => 2 ^ 18 | 4 => 2 ^ 20
  | 5 => 2 ^ 21 | 6 => 2 ^ 24 | 7 => 2 ^ 26 | 8 => 2 ^ 29 | _ => 2 ^ 30

/-- The level at which a leaf of a size may stand (R156). -/
def pageLevel (sz : Nat) : Nat := if sz ≤ 4 then 0 else if sz ≤ 8 then 1 else 2

/-- The kind of unit that a space's gateway holds: 4, 5 or 6 (log 3). -/
def gwUnit (gw space : Nat) : Nat × Nat := if gw = 6 then (space, 0) else (4, gw)

namespace State

/-- A far physical address lies in installed far memory (R131). A service core's address has 56 bits; with a bit of [55:52] set
it lies outside too (DEDUCED, log 84). -/
def farInstalled (s : State) (a : Nat) : Bool :=
  let p : Port := tget {} s.pkg.ports (bits a 41 39)
  bits a 55 42 == 0 && p.up && decide (a % 2 ^ 39 < p.mib * 2 ^ 20)

/-- A physical address lies in the memory that the gateway holds (R157, R124). -/
def paHeld (s : State) (gw space a : Nat) : Bool :=
  if gw ≠ 6 then decide (a < hbmBytes) else if space = 5 then s.farInstalled a else true

/-- A leaf entry as a translation, when R157 finds no fault in it. -/
def leafXlat (s : State) (gw part space va level e : Nat) : Option Xlat :=
  let sz := bits e 61 58
  let attr := bits e 57 56
  let pa := bits e 51 12 * 4096
  if 10 ≤ sz ∨ attr = 3 ∨ bitN e 52 ∨ bits e 11 0 ≠ 0 ∨ level ≠ pageLevel sz ∨ pa % pageBytes sz ≠ 0
    ∨ !s.paHeld gw space pa then none
  else some { part, space, va := va / pageBytes sz * pageBytes sz, sz, attr, pr := bitN e 55, pw := bitN e 54, pa }

/-- The walk from a table at a level (R154, R155, R157), in the HBM of a die. -/
def walkFrom (s : State) (gw part space va die : Nat) : Nat → Nat → Option Xlat
  | level, table =>
    if hbmBytes ≤ table then none else
    let e := s.readNat (paOf 4 die (table + 8 * (va / 2 ^ (12 + 9 * level) % 512))) 8
    if !bitN e 63 then none
    else if bitN e 62 then
      match level with
      | 0 => none
      | n + 1 => if bits e 61 52 ≠ 0 ∨ bits e 11 0 ≠ 0 then none else s.walkFrom gw part space va die n (bits e 51 12 * 4096)
    else s.leafXlat gw part space va level e

/-- The translation root of a partition at a gateway (R128, R154). -/
def rootOf (s : State) (gw part space : Nat) : Word :=
  let g := (s.die gw).gw
  if gw = 6 ∧ space = 6 then tget 0 g.rootsB part else tget 0 g.roots part

/-- The walk of an address under a root (R154). -/
def walkUnder (s : State) (r : Word) (gw part space va : Nat) : Option Xlat :=
  if !bitN r.toNat 63 then none
  else s.walkFrom gw part space va (field r 55 53) 4 (field r 52 12 * 4096)

/-- The tables of a root can be read from a gateway: they lie behind it, or on a die that is OPEN (R13, R154). -/
def tablesOpen (s : State) (gw : Nat) (r : Word) : Bool := field r 55 53 == gw || s.dieOpen (field r 55 53)

/-- The walk of an address under its partition's root (R154). -/
def walk (s : State) (gw part space va : Nat) : Option Xlat :=
  let r := s.rootOf gw part space
  if s.tablesOpen gw r then s.walkUnder r gw part space va else none

/-- The page-table reads of a walk from a table at a level (R158, R162). -/
def walkReads (s : State) (va die : Nat) : Nat → Nat → Nat
  | level, table =>
    if hbmBytes ≤ table then 0 else
    let e := s.readNat (paOf 4 die (table + 8 * (va / 2 ^ (12 + 9 * level) % 512))) 8
    if bitN e 63 ∧ bitN e 62 ∧ bits e 61 52 = 0 ∧ bits e 11 0 = 0 then
      match level with
      | 0 => 1
      | n + 1 => 1 + s.walkReads va die n (bits e 51 12 * 4096)
    else 1

/-- The page-table reads of the walk of an address (R162): the die of its tables, and how many. -/
def walkCost (s : State) (gw part space va : Nat) : Nat × Nat :=
  let r := s.rootOf gw part space
  (field r 55 53, if bitN r.toNat 63 && s.tablesOpen gw r then s.walkReads va (field r 55 53) 4 (field r 52 12 * 4096) else 0)

/-- A cached translation of an address (R158). -/
def cached (s : State) (gw part space va : Nat) : Option Xlat :=
  (s.die gw).gw.cache.find? fun x =>
    x.part == part && x.space == space && decide (x.va ≤ va) && decide (va < x.va + pageBytes x.sz)

/-- The physical address of an address under a translation (log 3). -/
def xlatPa (gw space : Nat) (x : Xlat) (va : Nat) : Nat :=
  let u := gwUnit gw space
  paOf u.1 u.2 (x.pa + (va - x.va))

/-- The walk of an agent that does not wait takes service units of its partition, too (R158, R162, R163; log 35). -/
def chargeWalk (s : State) (gw part space va : Nat) : State :=
  if (s.cached gw part space va).isSome then s
  else
    let c := s.walkCost gw part space va
    if c.2 = 0 then s else s.modGw c.1 fun g => { g with spent := tmod 0 g.spent (0, part) (· + c.2) }

/-- Put a translation in a gateway's cache of 8,192 (R158). -/
def cacheXlat (s : State) (gw : Nat) (x : Xlat) : State :=
  s.modGw gw fun g => { g with cache := (x :: g.cache).take 8192 }

/-- A translation covers an address, and its byte lies in the memory that the gateway holds (R131, R157). -/
def xlatHeld (s : State) (gw space va : Nat) (x : Xlat) : Bool := s.paHeld gw space (x.pa + (va - x.va))

/-- How the gateways translate an address for an agent that does not wait: from the cache, or by a walk now (log 35). -/
def lookNow (s : State) (part space gw va : Nat) : Option Xlat :=
  match s.cached gw part space va with
  | some x => some x
  | none => s.walk gw part space va

/-- A home on another die is out of reach while that die is not OPEN (R13). -/
def homeShut (s : State) (core : CoreId) (h : Option Home) : Bool :=
  match h with
  | some (.mem pa) => decide (1 ≤ paKind pa) && decide (paKind pa ≤ 3) &&
      (let d := if paKind pa = 3 then paIdx pa else tileDie (paIdx pa); d != core.die && !s.dieOpen d)
  | some (.gateway gw _) => gw != 6 && gw != core.die && !s.dieOpen gw
  | _ => false

/-- The physical address of a byte of a span and how many bytes from it lie in one piece: a home of spaces 1 to
3 and 7, a physical address of a service core, or a page of a translation. The fault is a cause and the address. -/
def physPiece (s : State) (core : CoreId) (look : Nat → Nat → Option Xlat) (space a : Nat) (write : Bool) : Except (Nat × Nat) (Nat × Nat) :=
  let h := s.home core space a
  if s.homeShut core h then .error (0xB, a) else
  match h with
  | some (.mem pa) =>
    if s.granuleOk core pa then .ok (pa, 2 ^ 20 - a % 2 ^ 20) else .error (0xA, a)
  | some (.gateway gw va) =>
    if isService core then
      if s.paHeld gw space va then
        let u := gwUnit gw space
        .ok (paOf u.1 u.2 va, 2 ^ 20 - a % 2 ^ 20)
      else .error (9, a)
    else
      match look gw va with
      | none => .error (9, a)
      | some x =>
        if !s.xlatHeld gw space va x then .error (9, a)
        else if (write ∧ !x.pw) ∨ (!write ∧ !x.pr) then .error (0xA, a)
        else .ok (xlatPa gw space x va, min (2 ^ 20 - va % 2 ^ 20) (pageBytes x.sz - va % pageBytes x.sz))
  | _ => .error (6, a)

/-- The physical pieces of a span, or its lowest fault (R150, R267). -/
def physSpan (s : State) (core : CoreId) (look : Nat → Nat → Option Xlat) (space : Nat) (write : Bool) :
    Nat → Nat → Nat → Except (Nat × Nat) (List (Nat × Nat))
  | 0, _, _ => .ok []
  | fuel + 1, a, n =>
    if n = 0 then .ok [] else
    match s.physPiece core look space a write with
    | .error e => .error e
    | .ok (pa, m) =>
      let k := min (max m 1) n
      match s.physSpan core look space write fuel (a + k) (n - k) with
      | .error e => .error e
      | .ok l => .ok ((pa, k) :: l)

/-- The pieces of a span of n bytes. -/
def physPieces (s : State) (core : CoreId) (part space a n : Nat) (write : Bool) : Except (Nat × Nat) (List (Nat × Nat)) :=
  s.physSpan core (s.lookNow part space) space write (n / 4096 + 2) a n

/-- A translation among those that an instruction or a move has taken, each with its gateway (R150, R158). -/
def lookIn (xs : List (Nat × Xlat)) (space gw va : Nat) : Option Xlat :=
  (xs.find? fun x => x.1 == gw && x.2.space == space && decide (x.2.va ≤ va) && decide (va < x.2.va + pageBytes x.2.sz)).map (·.2)

/-- The pages of 4 KiB of gateways that a span of a compute core touches: space, gateway and page. -/
def gatePages (s : State) (core : CoreId) (space a n : Nat) : List (Nat × Nat × Nat) :=
  if isService core then [] else
  (pieces 4096 (n / 4096 + 2) a n).filterMap fun p => match s.home core space p.1 with
    | some (.gateway gw va) => some (space, gw, va / 4096)
    | _ => none

/-- Where the bytes of a span of a core lie (R225): physical pieces, by the translations in force now; what has none stands under
its own address. -/
def locs (s : State) (core : CoreId) (part space a n : Nat) : List (Nat × Nat) :=
  (pieces 4096 (n / 4096 + 2) a n).map fun p => match s.homeIn part core space p.1 with
    | some (.mem pa) => (pa, p.2)
    | some (.gateway gw va) =>
      let u := gwUnit gw space
      if isService core then (paOf u.1 u.2 va, p.2)
      else match s.lookNow part space gw va with
        | some x => (xlatPa gw space x va, p.2)
        | none => (paOf (16 + space) gw va, p.2)
    | _ => (paOf (16 + space) 0 p.1, p.2)

/-- Where the bytes of an access under way lie. -/
def accLocs (s : State) (a : Access) : List (Nat × Nat) :=
  if !a.pieces.isEmpty then a.pieces
  else match a.pa with
    | some pa => [(pa, a.size)]
    | none => s.locs a.who.core a.part a.space a.va a.size

/-- Two sets of pieces share a byte. -/
def piecesMeet (ps qs : List (Nat × Nat)) : Bool := ps.any fun p => qs.any fun q => meets p.1 p.2 q.1 q.2

end State

end Sys2Proof.Machine
end

