-- ==== Sys2Proof/Machine/Spans.lean ====
section
/-! DEFINITION. The bytes that a dispatched instruction reads and writes in memory (18 R439 to R444; 20 R491; 08 R224,
R225). -/

namespace Sys2Proof.Machine

/-- The bytes of a block of an element format (R174). -/
def codeBytes (code : Nat) : Nat := if code = 3 ∨ code = 5 then 544 else 1056

/-- A SHAPE instruction with its captured operands: source and destination, each with capability, address, size and
alignment; the size of an element of the source and of the destination when it is moved element by element (R440);
the form of its block. -/
structure ShapeOp where
  sc : Cap
  sa : Nat
  sn : Nat
  salign : Nat
  dc : Cap
  da : Nat
  dn : Nat
  dalign : Nat
  form : Nat
  deriving Repr

/-- The operands of a SHAPE instruction (R439 to R444). -/
def shapeOp (d : Disp) : Option ShapeOp :=
  let mk (ga gb : BitVec 3) (ks kd : BitVec 2) (f : Nat → Nat × Nat × Nat × Nat × Nat) : ShapeOp :=
    let a := lget 0 d.g ga.toNat
    let (sn, salign, dn, dalign, form) := f (lget 0 d.g gb.toNat).toNat
    let sc := lget .null d.k ks.toNat
    let dc := lget .null d.k kd.toNat
    { sc, sa := State.halfAddr sc a false, sn, salign, dc, da := State.halfAddr dc a true, dn, dalign, form }
  let block (four : Bool) : Nat × Nat := if four then (544, 2) else (1056, 1)
  match d.i with
  | .qenc a b s k _ => some (mk a b s k fun v => (4096, 4, codeBytes (v % 256), 32, if codeBytes (v % 256) = 544 then 2 else 1))
  | .qdec a b s k _ _ => some (mk a b s k fun v =>
      let (n, f) := block (bitN v 3)
      (n, 32, if v % 8 = 0 then 4096 else 2048, if v % 8 = 0 then 4 else 2, f))
  | .qtrn a b s k => some (mk a b s k fun v => let (n, f) := block (bitN v 0); (n, 32, n, 32, f))
  | .qscl a b s k _ => some (mk a b s k fun v => let (n, f) := block (bitN v 9); (n, 32, n, 32, f))
  | _ => none

/-- The first address of a VLD or VST (R491). -/
def vmemStart (d : Disp) (k : BitVec 2) (x : BitVec 1) (gi : BitVec 3) (o : BitVec 9) : Nat :=
  wrap 64 (((lget .null d.k k.toNat).cursor : Int) + (if x = 1#1 then ((lget 0 d.g gi.toNat).toNat : Int) else 0) + sext o.toNat 9 * 128)

/-- The bytes that an instruction in the dispatch queue behind others may touch, as spans of a space: those of its active lanes, once
its mask and its index change no more; before that the whole span of VLD or VST, and for a gather or scatter none in the second
place, which means any byte of the space (log 13). -/
def queuedSpans (c : Core) (ahead : List Disp) (d : Disp) : List (Nat × Option (Nat × Nat)) :=
  let lanes (k : BitVec 2) (n : Nat) (open' : Option (Nat × Nat)) : List (Nat × Option (Nat × Nat)) :=
    let sp := (lget .null d.k k.toNat).space
    if (laneRegs d.i).all (regFixed c ahead) then (vmemLanes c d).map fun l => (sp, some (l.2, n)) else [(sp, open')]
  match d.i with
  | .vld _ k _ x gi o => lanes k 4 (some (vmemStart d k x gi o, 128))
  | .vst _ k _ x gi o => lanes k 4 (some (vmemStart d k x gi o, 128))
  | .vgth _ k _ _ w => lanes k (if w = 1#1 then 8 else 4) none
  | .vsct _ k _ _ w => lanes k (if w = 1#1 then 8 else 4) none
  | _ => match shapeOp d with
    | some o => [(o.sc.space, some (o.sa, o.sn)), (o.dc.space, some (o.da, o.dn))]
    | none => []

/-- Some entry of a queue, with what stands before it, meets a condition. -/
def anyAhead (p : List Disp → Disp → Bool) : List Disp → List Disp → Bool
  | _, [] => false
  | before, d :: l => p before d || anyAhead p (before ++ [d]) l

end Sys2Proof.Machine
end

