-- ==== Sys2Proof/Machine/Paths.lean ====
section
/-! DEFINITION. The paths of accesses, replies and messages: injection into the residue (R37, R38), the
cluster store port, and the launch of an access (R133, R224; latencies that the spec leaves open are log 5). -/

namespace Sys2Proof.Machine

/-- The node of a die's gateway, task unit and register blocks (R133; log 11). -/
def blockNode (die : Nat) : Nat := if die = 6 then ioNode else tileNo die (Config.blockTile die % 256)

/-- The node of a home. -/
def homeNode : Home → Nat
  | .mem pa =>
    match paKind pa with
    | 1 => paIdx pa
    | 2 => paIdx pa
    | 3 => blockNode (paIdx pa)
    | _ => ioNode
  | .gateway gw _ => blockNode gw
  | .reg die _ _ => blockNode die

/-- The die of a home; 6 for the I/O die (R87). -/
def homeDie : Home → Nat
  | .mem pa =>
    match paKind pa with
    | 1 => tileDie (paIdx pa)
    | 2 => tileDie (paIdx pa)
    | 3 => paIdx pa
    | _ => 6
  | .gateway gw _ => gw
  | .reg die _ _ => die

/-- The output port that a residue flit at a node takes: X first, then Y; over the bridge channel of its
column into and out of the I/O die, whose ports are 5 + x to the north and 53 + x to the south (R37). -/
def residueOut (n dst : Nat) : Nat :=
  if dst = n then 4
  else if n = ioNode then (if tileY dst < 16 then 5 + tileX dst else 53 + tileX dst)
  else if dst = ioNode then (if tileY n < 16 then 2 else 0)
  else if tileX n < tileX dst then 1
  else if tileX dst < tileX n then 3
  else if tileY n < tileY dst then 2 else 0

/-- Where an output port of a node leads: the node, its input port, and the link's slots (R25). -/
def residueNext (n port dst : Nat) : Nat × Nat × Nat :=
  if n = ioNode then (if port < 53 then (48 * 15 + (port - 5), 2, 12) else (48 * 16 + (port - 53), 0, 12))
  else match port with
    | 0 => if tileY n = 16 then (if dst = ioNode then (ioNode, 53 + tileX n, 12) else (n - 48, 2, 12)) else (n - 48, 2, 1)
    | 1 => (n + 1, 3, if tileX n % 16 = 15 then 8 else 1)
    | 2 => if tileY n = 15 then (if dst = ioNode then (ioNode, 5 + tileX n, 12) else (n + 48, 0, 12)) else (n + 48, 0, 1)
    | _ => (n - 1, 1, if tileX n % 16 = 0 then 8 else 1)

namespace State

/-- The flits of a partition in a buffer (R38). -/
def partFlits (b : RBuf) (p : Nat) : Nat := (b.flits.filter (·.part == p)).length

/-- A flit may enter a residue buffer: 8 entries, at most 4 of one partition (R37, R38). -/
def roomIn (b : RBuf) (p : Nat) : Bool := decide (b.flits.length < 8) && decide (partFlits b p < 4)

/-- Move the flits that wait at a tile into its local buffers, in order, as far as the caps and the
partition's share per wheel allow (R38), but none of a stopped partition (R272); there an atomic merges as in any buffer (R39). -/
def letIn (s : State) (n : Nat) : State :=
  let step (acc : State × List RFlit) (fl : RFlit) : State × List RFlit :=
    let (s, left) := acc
    let b := tget {} (s.tile n).rbuf (4, fl.reply)
    let spent := tget 0 (s.tile n).rspent fl.part
    if roomIn b fl.part ∧ !s.stopped fl.part ∧ (48 ≤ fl.part ∨ spent < (s.part fl.part).residue) then
      (((s.mergeFlit b fl).getD (s.modTile n fun t => { t with
          rbuf := tset t.rbuf (4, fl.reply) { flits := b.flits ++ [{ fl with since := max fl.since (s.clock + 1) }] } })).modTile n
        fun t => { t with rspent := tset t.rspent fl.part (spent + 1) }, left)
    else (s, left ++ [fl])
  let (s', left) := (s.tile n).rwait.foldl step (s, [])
  s'.modTile n fun t => { t with rwait := left }

/-- The same for the I/O die, which has no share per wheel. -/
def letInIo (s : State) : State :=
  let step (acc : State × List RFlit) (fl : RFlit) : State × List RFlit :=
    let (s, left) := acc
    let b := tget {} s.pkg.rbuf (4, fl.reply)
    if roomIn b fl.part ∧ !s.stopped fl.part then
      ((s.mergeFlit b fl).getD (s.modPkg fun p => { p with
          rbuf := tset p.rbuf (4, fl.reply) { flits := b.flits ++ [{ fl with since := max fl.since (s.clock + 1) }] } }), left)
    else (s, left ++ [fl])
  let (s', left) := s.pkg.rwait.foldl step (s, [])
  s'.modPkg fun p => { p with rwait := left }

/-- Inject a flit at a node (R37, R38). -/
def inject (s : State) (node : Nat) (fl : RFlit) : State :=
  if node = ioNode then (s.modPkg fun p => { p with rwait := p.rwait ++ [fl] }).letInIo
  else (s.modTile node fun t => { t with rwait := t.rwait ++ [fl] }).letIn node

/-- Send an event from a node to a node over a residue network; within a node after a free latency. -/
def sendEv (s : State) (src dst : Nat) (reply : Bool) (p : Nat) (e : Instr) : State :=
  if src = dst then s.later e
  else s.inject src { reply, part := p, dst, ev := some e, since := s.clock + 1 }

/-! ## The attestation channel (R13, R297) -/

/-- The partition number that flits of a die's attestation channel carry, beyond every partition's. -/
def attPart (d : Nat) : Nat := 64 + d

/-- The flit runs on an attestation channel: it uses no link key, and links that are closed to other traffic are open to it (R297). -/
def isAtt (f : RFlit) : Bool := decide (64 ≤ f.part)

/-- The bridge-row tile of channel 0 of a die, where its security controller joins the residue (R297). -/
def attNode (d : Nat) : Nat := 48 * (if d < 3 then 15 else 16) + 16 * (d % 3)

/-- Send a message of some bytes over a die's attestation channel, in flits of 64 bytes; the last brings what the die is to hear (R297). -/
def sendAtt (s : State) (d : Nat) (toDie : Bool) (bytes : Nat) (msg : List Byte) : State :=
  let k := max 1 (ceilDiv bytes 64)
  (List.range k).foldl (fun s i =>
    s.inject (if toDie then ioNode else attNode d)
      { reply := !toDie, part := attPart d, dst := if toDie then attNode d else ioNode, ev := none,
        since := s.clock + 1, msg := if i + 1 = k then msg else [] }) s

/-- VENDOR_DEFINED_REQUEST of an operation (R304): StandardID of PCI-SIG, the vendor ID, and the payload (in the layout of the standard,
log 16). -/
def vendorRequest (op : Nat) (payload : List Byte) : List Byte :=
  [0x12, 0xFE, 0, 0, 3, 0, 2] ++ leBytes 2 Config.vendorId.toNat ++ leBytes 2 (payload.length + 1) ++ [BitVec.ofNat 8 op] ++ payload

/-- The root forms a vendor-defined request and sends it to a die in the session (R304); its effect is taken in the cycle in which it is
sent, and its flits load the channel (DESIGN CHOICE, log 114). -/
def askVendor (s : State) (d op : Nat) (payload : List Byte) : State :=
  let bs := vendorRequest op payload
  (s.modDie d fun x => { x with trust := { x.trust with sent := bs } }).sendAtt d true bs.length []

/-- The home lies on the tile's own cluster, reached over the cluster store port (R133). -/
def byClusterPort (c : CoreId) (h : Home) : Bool :=
  match h with
  | .mem pa => !isService c && (paKind pa == 1 || paKind pa == 2) && tileCluster (paIdx pa) == tileCluster (coreTile c)
  | _ => false

/-- The class of an access for DLYACC (R349). -/
def delayClass (c : CoreId) (space : Nat) (h : Home) : Nat :=
  if byClusterPort c h then 0
  else if space = 5 then 6
  else if space = 6 then 7
  else if space = 7 ∨ space = 8 then 8
  else if space = 4 then (if homeDie h = c.die then 4 else 5)
  else if homeDie h ≠ c.die then 3
  else if space = 3 then 2 else 1

/-- Send an access that stands in `flight` to its home, or its reply back, by its path (R133). -/
def sendAccess (s : State) (c : CoreId) (h : Home) (p : Nat) (reply : Bool) (e : Instr) : State :=
  if byClusterPort c h then s.later e
  else if reply then s.sendEv (homeNode h) (coreNode c) true p e
  else s.sendEv (coreNode c) (homeNode h) false p e

/-- Launch an access of a fibre towards its home: its id and the state. -/
def launch (s : State) (who : FibreRef) (op : AccOp) (c : Cap) (a n : Nat) (h : Home) (posted : Bool) : Nat × State :=
  let (id, s) := s.newId
  let x : Access :=
    { who, part := s.partOf who.core, op, space := c.space, va := a % 2 ^ 56, size := n,
      pa := (match h with | .mem pa => some pa | _ => none), meter := c.meter, atRoot := (s.fib who).pl == 3,
      posted, stage := .sent, due := 0, reply := [], replyTag := false, fault := none, wait := 0,
      dclass := delayClass who.core c.space h, router := false }
  (id, (s.setAccess id x).sendAccess who.core h x.part false (.homeAccess id))

/-- The home lies in the fibre's own tile store (R69, R224). -/
def ownTile (c : CoreId) (h : Home) : Bool :=
  match h with
  | .mem pa => !isService c && paKind pa == 1 && paIdx pa == coreTile c
  | _ => false

/-- A flight entry that R225 orders before a later access of its fibre: not a fetch and not a move's. -/
def ordersBytes : AccOp → Bool
  | .fetch => false
  | .moveRead _ _ => false
  | .moveWrite _ _ _ => false
  | .moveCheck _ _ => false
  | .laneCheck _ => false
  | _ => true

/-- An earlier scalar or lane access of the fibre to bytes in these places is under way and not performed (R225). -/
def flightMeets (s : State) (f : FibreRef) (ps : List (Nat × Nat)) : Bool :=
  s.flight.any fun x => x.2.who == f && x.2.stage != .performed && ordersBytes x.2.op && piecesMeet (s.accLocs x.2) ps

/-- An instruction of the fibre that has started will write bytes in these places when it retires (R225). -/
def outMeets (s : State) (f : FibreRef) (ps : List (Nat × Nat)) : Bool :=
  (s.core f.core).running.any fun d => d.slot == f.slot && d.out.any fun o => piecesMeet o.2.1 ps

/-- An instruction of the fibre that has not started may touch bytes in these places; of a gather or scatter whose index is not
fixed yet, any bytes of its space (R225; log 13). -/
def queueMeets (s : State) (f : FibreRef) (space : Nat) (ps : List (Nat × Nat)) : Bool :=
  let c := s.core f.core
  anyAhead (fun before d => d.slot == f.slot && (queuedSpans c before d).any fun q =>
    match q.2 with
    | some (a, n) => piecesMeet (s.locs f.core (s.partOf f.core) q.1 a n) ps
    | none => q.1 == space) [] c.disp

/-- An earlier access of the fibre to the same bytes has not been performed (R225). -/
def mustHold (s : State) (f : FibreRef) (space va n : Nat) : Bool :=
  let ps := s.locs f.core (s.partOf f.core) space va n
  s.flightMeets f ps || s.outMeets f ps || s.queueMeets f space ps

end State

end Sys2Proof.Machine
end

