-- ==== Sys2Proof/Machine/Perform.lean ====
section
/-! DEFINITION. What an access does at its home, in one cycle (08 R221): loads, stores, nibbles,
capabilities, atomics (17 R385). -/

namespace Sys2Proof.Machine

/-- The value that LD writes for a size code (R411). -/
def loadValue (size : Nat) (bs : List Byte) : Word :=
  let n := bs.length
  if size ≤ 3 then signExt (leNat bs) (8 * n) else word (leNat bs)

/-- The number of bytes of a size code of LD (R411) and of ST (R471). -/
def ldBytes (size : Nat) : Nat :=
  match size with
  | 0 => 1 | 1 => 2 | 2 => 4 | 3 => 8 | 4 => 1 | 5 => 2 | _ => 4
def stBytes (size : Nat) : Nat :=
  match size with
  | 0 => 1 | 1 => 2 | 2 => 4 | 3 => 8 | _ => 1

/-- What an access found: the state after it, the bytes and the tag read, an error met by a read (true for
poison), and whether a write met an uncorrectable error (R268). -/
structure Done where
  s : State
  bytes : List Byte
  tag : Bool
  err : Option Bool
  ue : Bool
  deriving Repr

namespace State

/-- Write bytes at a physical address (R145, R268). -/
def doWrite (s : State) (pa : Nat) (bs : List Byte) : Done :=
  { s := s.writeBytes pa bs, bytes := [], tag := false, err := none, ue := s.writeMeetsError pa bs.length }

/-- Read bytes from a physical address (R268, R269). -/
def doRead (s : State) (pa n : Nat) : Done :=
  { s, bytes := s.readBytes pa n, tag := false, err := s.readError pa n, ue := false }

/-- Perform an operation of n bytes at a physical address, in one cycle (R221). -/
def perform (s : State) (op : AccOp) (pa n : Nat) : Done :=
  match op with
  | .load _ _ => s.doRead pa n
  | .loadCap _ keep => { s.doRead pa 16 with tag := keep && s.tags.contains pa }
  | .store bs => s.doWrite pa bs
  | .nibble hi v =>
    let old := (getByte s.mem pa).toNat
    let new := if hi then old % 16 + v % 16 * 16 else old / 16 * 16 + v % 16
    s.doWrite pa [BitVec.ofNat 8 new]
  | .storeCap c =>
    { s := s.writeCap pa c, bytes := [], tag := false, err := none, ue := s.writeMeetsError pa 16 }
  | .atomic d op v cmp =>
    let r := s.doRead pa n
    if d.isSome && r.err.isSome then r
    else match atomicNew op n (leNat r.bytes) v cmp with
      | some x => { r with s := s.writeBytes pa (leBytes n x), err := none, ue := s.writeMeetsError pa n }
      | none => r
  | .piece => s.doRead pa n
  | .fetch => s.doRead pa n
  | .laneRead _ => s.doRead pa n
  | .laneWrite _ bs => s.doWrite pa bs
  | .moveRead _ _ => s.doRead pa n
  | .moveWrite _ _ bs => s.doWrite pa bs
  | .moveCheck _ _ => s.doRead pa 0
  | .laneCheck _ => s.doRead pa 0

/-- EINFO of MEM_UE (R269) for an address. -/
def ueInfo (a : Nat) (poison : Bool) : Word := word (a % 2 ^ 56 + b2n poison * 2 ^ 63)

/-- The report of an uncorrectable error at the home of a posted access (R72, R268). -/
def reportUe (s : State) (f : FibreRef) (a : Nat) : State := s.reportFibre f 5 0x0B (word a) 0

/-- Perform an own-tile access of the executing fibre in its issue cycle (R224): trap MEM_UE where its read
meets an error, else pass on what it read. -/
def performOwn (s : State) (op : AccOp) (pa va n : Nat) (k : State → List Byte → Bool → Out) : Out :=
  let r := s.perform op pa n
  match r.err with
  | some poison => s.raise 0x0B (ueInfo va poison)
  | none => k (if r.ue then r.s.reportUe s.cur va else r.s) r.bytes r.tag

end State

end Sys2Proof.Machine
end

