-- ==== Sys2Proof/Machine/Issue.lean ====
section
/-! DEFINITION. The issue of an instruction: which fibre a core picks (03 R68), the order of the causes
before its effect (10 R260), the fetch and its buffer (R64, R70, R230), and the checks that every meaning
begins with (R18, R365). -/

namespace Sys2Proof.Machine

/-- The core runs the group (R18). -/
def groupRuns (g : Group) (c : CoreId) : Bool :=
  match g with
  | .scalar => true
  | .link => !isService c && c.kind == 0
  | .root => c == .root
  | .mtrq => c != .mgmt
  | .vec => !isService c && (c.kind == 1 || c.kind == 2)
  | .math => !isService c && c.kind == 2
  | .shape => !isService c && c.kind == 1

/-- The group of a word by its major opcode and, in ROOT and VMISC, its function code (R18, R369): a malformed word of a member
belongs to the member's group. A reserved code of ROOT belongs to no member, and so to no row that a core lacks (DEDUCED,
log 88). -/
def wordGroup (w : Nat) : Group :=
  match fldN w 26 6 with
  | 0x17 => .link
  | 0x19 => .link
  | 0x1A => .link
  | 0x1C => if fldN w 14 6 < 5 then .root else .mtrq
  | 0x20 => .vec
  | 0x21 => .math
  | 0x22 => .math
  | 0x23 => if fldN w 7 4 < 2 then .math else .vec
  | 0x24 => .vec
  | 0x25 => .math
  | 0x26 => .math
  | 0x27 => .shape
  | _ => .scalar

/-- EINFO of an ILLEGAL trap: the word, but zero in the FENCE and SYNC groups (R229, R242, R365). -/
def illegalInfo (i : Instr) : Word :=
  match i with
  | .bara _ _ => 0
  | .barw _ _ _ => 0
  | .semp _ _ => 0
  | .sempTry _ _ => 0
  | .semv _ => 0
  | .fenceRel _ => 0
  | .fenceX => 0
  | .ifence => 0
  | _ => word (wordOf i).toNat

/-- The request word of COPEN is refused (R49): the checks before the endpoint word, for all classes. -/
def copenBad (v : Word) : Bool :=
  let cls := field v 63 61
  let op := field v 60 57
  decide (4 < cls) || field v 56 54 != 0 || field v 32 0 != 0 || ((cls == 2 || cls == 3) && decide (10 < op)) ||
    (cls != 2 && cls != 3 && op != 0)

namespace State

/-- Raise ILLEGAL with the instruction word (R365). -/
def illegal (s : State) (i : Instr) : Out := s.raise 1 (illegalInfo i)

/-- Steps 6 and 7 of R260, then the instruction's own part. -/
def guard (s : State) (grp : Group) (i : Instr) (body : State → Out) : Out :=
  if !groupRuns grp s.cur.core then s.raise 2 (word (wordOf i).toNat)
  else if !i.wellFormed then s.illegal i
  else body s

/-! ## Picking a fibre (R68) -/

/-- A fibre may issue in this cycle (R68). -/
def eligible (s : State) (f : Fibre) : Bool :=
  f.status == .ready && !f.stopped && decide (f.readyFrom ≤ s.clock)

/-- How far a slot stands behind the one that issued last. -/
def distance (last slot : Nat) : Nat := (slot + 256 - (last + 1) % 256) % 256

/-- The first eligible slot of a core from the one past the last that issued (R68). -/
def pick (s : State) (c : CoreId) : Option Nat :=
  let last := (s.core c).last
  let x := s.core c
  (s.fibres.filter fun p => p.1.core == c && s.eligible p.2
      && (!x.halted || x.step1 == some p.1.slot)).foldl (fun best p =>
    match best with
    | none => some p.1.slot
    | some b => if distance last p.1.slot < distance last b then some p.1.slot else some b) none

/-! ## Debug halts (R338, R339) -/

/-- The bit of a core in its cluster's masks (R338). -/
def coreBit (c : CoreId) : Nat :=
  let n := coreTile c
  3 * (tileY n % 4 * 4 + tileX n % 4) + c.kind

/-- The core's cluster has it armed (R338). -/
def armed (s : State) (c : CoreId) : Bool :=
  !isService c && bitN (s.cluster (tileCluster (coreTile c))).armed (coreBit c)

/-- A breakpoint of a core matches a fetch address (R338). -/
def breakpoint (s : State) (c : CoreId) (pc : Nat) : Bool :=
  !isService c && (s.cluster (tileCluster (coreTile c))).bkpts.any fun b =>
    b.2.1 != 0 && b.2.1 == pc && bitN b.2.2 (coreBit c)

/-- A halt trigger in this cycle: the cluster's armed cores halt 3 cycles later, and with XO set those of
every XI cluster 67 cycles later (R339). -/
def haltTrigger (s : State) (c : CoreId) : State :=
  if (s.core c).halted then s else
  let n := tileCluster (coreTile c)
  let s := s.modCluster n fun x => { x with haltAt := x.haltAt ++ [s.clock + 3] }
  if (s.cluster n).xo then s.sched (s.clock + 67) .crossHalt else s

/-- A halt trigger of the executing fibre: it issues nothing before the halt (R338, R391, R398). A halted core has no trigger. -/
def triggerMe (s : State) : State :=
  if (s.core s.cur.core).halted then s
  else (s.haltTrigger s.cur.core).modMe fun f => { f with readyFrom := s.clock + 3 }

/-! ## Fetch (R64, R260 step 4) -/

/-- The fetch faults of R260 step 4 but the uncorrectable error: cause and EINFO, or the home of the word. Code windows exist in spaces
1 to 3 (R313); a sealed capability of another space meets the space check (R64). -/
def fetchCheck (s : State) (f : FibreRef) : Except (Nat × Word) Home :=
  let x := s.fib f
  let c := x.code
  let pc := x.pc.toNat
  let svc := isService f.core
  let h := s.home f.core c.space pc
  let covered := match h with | some (.mem pa) => s.codeCovered pa | _ => false
  let windowed := decide (1 ≤ c.space) && decide (c.space ≤ 3)
  let info := word (pc % 2 ^ 56)
  if !c.tag then .error (4, info)
  else if c.sealOf ≠ 2 ∨ (!svc ∧ windowed ∧ !covered) then .error (0x1A, x.pc)
  else if !c.has Cap.permX then .error (5, info)
  else if (svc ∧ c.space ≠ 7) ∨ (!svc ∧ (c.space = 0 ∨ 3 < c.space)) then .error (6, info)
  else if (pc : Int) < c.bounds.1 ∨ c.bounds.2 < (pc + 4 : Nat) then .error (7, info)
  else match h with
    | some h => .ok h
    | none => .error (6, info)

/-- The line of the fetch buffer that holds an address. -/
def lineOf (a : Nat) : Nat := a / 64 * 64

/-- The fetch buffer holds the word at an address. -/
def inBuffer (x : Fibre) (a : Nat) : Bool :=
  match x.fbuf with
  | some (l, bs) => decide (l ≤ a) && decide (a + 4 ≤ l + bs.length)
  | none => false

/-- The part of a line that a refill for a word brings: the line, or the word's granule when an error stands
elsewhere in the line, so that a later fetch meets it (R268): its offset and size. -/
def refillSpan (s : State) (linePa off : Nat) : Nat × Nat :=
  if (s.readError linePa 64).isNone then (0, 64) else (off / 16 * 16, 16)

/-- The word at an address in a fetch buffer. -/
def bufWord (x : Fibre) (a : Nat) : List Byte :=
  match x.fbuf with
  | some (l, bs) => slice bs (a - l) 4
  | none => []

/-- The home serves a refill without parking: the own tile store, or a service core's private store (R70; log
13). -/
def localCode (c : CoreId) (h : Home) : Bool :=
  ownTile c h || (isService c && (match h with | .mem pa => paKind pa == 7 | _ => false))

/-- Fill the fetch buffer from memory at a physical address of the word at pc. -/
def refill (s : State) (f : FibreRef) (pa : Nat) : State :=
  s.modFib f fun x =>
    let off := x.pc.toNat - lineOf x.pc.toNat
    let (o, n) := s.refillSpan (pa - off) off
    { x with fbuf := some (lineOf x.pc.toNat + o, s.readBytes (pa - off + o) n) }

/-- The instruction or the reserved word in a fetch buffer at PC (R362, R365). -/
def fetched (s : State) (f : FibreRef) : Except DecodeError Instr :=
  let x := s.fib f
  match decode (bufWord x x.pc.toNat) with
  | .ok (i, _) => .ok i
  | .error e => .error e

/-- A COPEN with a bit of mod[10:2] set, whose entry makes that check among its own: the cause and its EINFO (R49). -/
def copenMod (s : State) (w : Nat) : Nat × Word :=
  let v := s.gN (fldN w 20 3)
  if !copenBad v ∧ field v 63 61 = 4 ∧ s.me.pl = 0 then (3, 0) else (1, v)

/-- The trap of a word that is no instruction: steps 5 to 7 of R260, or the check of its entry. -/
def badWord (s : State) (e : DecodeError) : State :=
  let n := leNat (bufWord s.me s.me.pc.toNat)
  let w := word n
  match e with
  | .reservedEncoding m =>
    if !groupRuns (wordGroup n) s.cur.core then s.trapEntry s.cur 2 w false s.me.pc
    else if m = 0x17 ∧ fldN n 11 6 = 0 then
      let r := s.copenMod n
      s.trapEntry s.cur r.1 r.2 false s.me.pc
    else s.trapEntry s.cur 1 (if m = 0x14 ∨ m = 0x15 then 0 else w) false s.me.pc
  | _ => s.trapEntry s.cur 1 w false s.me.pc

/-- The instruction of the core issues: a debug STEP is spent on it (R341), and it counts once (R345). -/
def issued (s : State) : State :=
  let s := if (s.core s.cur.core).step1.isSome then s.modCore s.cur.core fun c => { c with step1 := none } else s
  let t := if s.me.counted then s else s.countCore s.cur.core 2 1
  t.modMe fun x => { x with counted := false, again := false }

/-- Decode the word at PC of the executing fibre, which stands in its fetch buffer. -/
def runFetched (s : State) : Action :=
  match s.fetched s.cur with
  | .ok i => .run i s.issued
  | .error e => .done (s.issued.badWord e)

/-- Fetch at the executing fibre's PC: a trap, a refill that parks, or the instruction (R260 steps 4 to 7). -/
def fetch (s : State) : Action :=
  match s.fetchCheck s.cur with
  | .error (c, info) => .done (s.trapEntry s.cur c info false s.me.pc)
  | .ok h =>
    if inBuffer s.me s.me.pc.toNat then s.runFetched
    else match h with
      | .mem pa =>
        if localCode s.cur.core h then
          match s.readError pa 4 with
          | some poison => .done (s.trapEntry s.cur 0x0B (ueInfo s.me.pc.toNat poison) false s.me.pc)
          | none => (s.refill s.cur pa).runFetched
        else
          let pc := s.me.pc.toNat
          let (_, t) := s.launch s.cur .fetch s.me.code (lineOf pc) 64 (.mem (pa - (pc - lineOf pc))) false
          .done (t.parkMe 3 .fetch)
      | _ => .done (s.trapEntry s.cur 6 (word (s.me.pc.toNat % 2 ^ 56)) false s.me.pc)

/-- The issue opportunity of a fibre: what R260 puts before the fetch, then the fetch. A breakpoint halts an armed core, and is a DEBUG
trap on another (R338, R376). -/
def issueFibre (s : State) : Action :=
  let x := s.me
  if (x.pendFault.isSome ∨ x.pendStop) ∧ !x.trap ∧ !x.again then .run (.impreciseDelivery s.cur) s
  else if x.pendUe then
    .done ((s.modMe fun x => { x with pendUe := false, ueSaved := false }).trapEntry s.cur 0x0B
      (word (b2n x.ueSaved * 2 ^ 63 + 2 ^ 62)) false x.pc)
  else if s.breakpoint s.cur.core x.pc.toNat ∧ !(s.core s.cur.core).halted then
    .done (if s.armed s.cur.core then s.triggerMe else s.trapEntry s.cur 0x14 0 false x.pc)
  else s.fetch

/-- The state in which a core's picked slot executes: it becomes the last that issued (R68), also where its opportunity goes to a fetch
refill, a fetch trap, the delivery of a fault or a hold (DESIGN CHOICE, log 4). -/
def issueState (s : State) (c : CoreId) (slot : Nat) : State :=
  { s.modCore c (fun x => { x with last := slot }) with cur := ⟨c, slot⟩ }

/-- The issue opportunity of a core (R68). -/
def issueCore (s : State) (c : CoreId) : Action :=
  match s.pick c with
  | none => .done s
  | some slot => (s.issueState c slot).issueFibre

end State

end Sys2Proof.Machine
end

