-- ==== Sys2Proof/Machine/Mem.lean ====
section
/-! DEFINITION. The scalar accesses LD, ST, LDK and STK (18 R410 to R414; 19 R470 to R473), with the path of an
access from its checks to its launch (05 R133, R144; 03 R70, R71, R87), which the atomics share. -/

namespace Sys2Proof.Machine

/-- What an access asks of space 8: the width its registers must have, or no access at all (R125). -/
inductive RegForm where
  | dword | cap | none
  deriving DecidableEq, Repr, Inhabited

/-- A scalar access, as its entry gives it. -/
structure ScalarAccess where
  /-- the capability register that names the address -/
  kb : BitVec 2
  addr : Nat
  size : Nat
  perm : Nat
  write : Bool
  form : RegForm
  /-- EINFO of its ALIGN trap -/
  alignInfo : Word
  /-- the entry's own check after alignment: a cause and its EINFO -/
  own : Option (Nat × Word)
  op : AccOp
  deriving Repr

namespace State

/-- The partition has a core of the kind on a die (R87). -/
def partHasCore (s : State) (p die : Nat) : Bool :=
  (s.part p).tab.any fun t : Nat × Nat => tileDie t.2 == die && (s.tile t.2).ptag == p

/-- The access makes its fibre walk (R87). -/
def walks (s : State) (f : FibreRef) (c : Cap) (h : Home) : Bool :=
  let x := s.fib f
  let d := homeDie h
  c.has Cap.permM && decide (d < 6) && d != f.core.die && !isService f.core && !x.vl && x.pl == 0 && !x.trap && !x.rpl
    && s.partHasCore (s.partOf f.core) d

/-- What a walk waits for before its departure has ended (R88 step 1): its lane writes too, since R237 has every earlier access
performed before the first after the walk. -/
def walkCheck (s : State) (f : FibreRef) : State :=
  match (s.fib f).cont with
  | .walkWait _ _ => if (s.fib f).outs = 0 ∧ !s.movesOf f ∧ !s.laneWritesOf f then s.schedOnce s.clock (.walkDeparture f) else s
  | _ => s

/-- The executing fibre begins a walk (R88). -/
def beginWalk (s : State) (space : Nat) (h : Home) : State := (s.parkMe 2 (.walkWait space h)).walkCheck s.cur

/-- The traps of space 8 that an access meets at issue (R125, R126, R131); its ALIGN has the EINFO of the entry (R411, R473). -/
def regCheck (s : State) (x : ScalarAccess) (h : Home) : Option (Nat × Word) :=
  match h with
  | .reg die block off =>
    match x.form with
    | .none => some (8, word x.addr)
    | f => s.regTrap die block off x.addr x.kb.toNat (f == .cap) x.write
  | _ => none

/-- Launch an access that parks its fibre with reason MEM until its reply (R70). -/
def launchParked (s : State) (x : ScalarAccess) (c : Cap) (h : Home) : State :=
  let (id, t) := s.launch s.cur x.op c x.addr x.size h false
  (t.modAccess id fun a => { a with kn := x.kb.toNat }).parkMe 1 (.access id)

/-- Post an access: at once, or in spaces 4 to 6 once the gateway has accepted it; with OUTS = 16 the fibre
parks until an acknowledgement and then goes on, before a fault that became pending meanwhile (R71, R263). -/
def launchPosted (s : State) (x : ScalarAccess) (c : Cap) (h : Home) : State :=
  if 16 ≤ s.me.outs then (s.parkMe 2 .retry).modMe fun f => { f with again := true }
  else
    let (id, t) := s.launch s.cur x.op c x.addr x.size h true
    let t := t.modAccess id fun a => { a with kn := x.kb.toNat }
    match h with
    | .gateway _ _ => t.parkMe 1 (.accept id)
    | _ => (t.modMe fun f => { f with outs := f.outs + 1 }).retire 1

/-- A load of a measurement register finds a MEXT that has not extended its register yet, and has not waited for those that it found
before (R421). -/
def measWait (s : State) (h : Home) (n : Nat) : Bool :=
  match h with
  | .mem pa => paKind pa == 7 && paIdx pa == 0 && meets (paOff pa) n 0x7FE00 0x200 && !s.me.measured && s.pkg.work.any fun w => w.meas.isSome
  | _ => false

/-- The executing load waits for the extensions that have issued before it (R421). -/
def parkMeas (s : State) : State :=
  let f := s.cur
  (s.modPkg fun k => { k with work := k.work.map fun w => if w.meas.isSome then { w with waiters := w.waiters ++ [f] } else w }).parkMe 1 .retry

/-- The path of an access that has passed its checks (R133, R224): in the own tile store at once, else parked
or posted. It is held back while an earlier access of the fibre to its bytes is outstanding (R225). -/
def path (s : State) (x : ScalarAccess) (c : Cap) (h : Home) (posted : Bool)
    (now : State → List Byte → Bool → State) : Out :=
  if s.mustHold s.cur c.space (va56 x.addr) x.size then .next s.hold
  else if s.measWait h x.size then .next s.parkMeas
  else match ownTile s.cur.core h, h with
    | true, .mem pa => s.performOwn x.op pa (va56 x.addr) x.size fun s bs t => .next ((now s bs t).retire 3)
    | _, _ =>
      let s := if s.me.measured then s.modMe fun f => { f with measured := false } else s
      if posted then .next (s.launchPosted x c h) else .next (s.launchParked x c h)

/-- A scalar access from CheckCap to its path: R144, alignment, the entry's own checks, the walk of R87, and
granule ownership (R123). -/
def scalarAccess (s : State) (x : ScalarAccess) (posted : Bool) (now : State → List Byte → Bool → State) : Out :=
  let c := s.k x.kb
  match s.checkCap c x.addr x.size x.perm x.write with
  | .error e => s.raise e (capInfo x.addr x.kb.toNat)
  | .ok h =>
    if x.addr % x.size ≠ 0 then s.raise 8 x.alignInfo
    else match s.regCheck x h, x.own with
      | some (e, info), _ => s.raise e (if e = 8 then x.alignInfo else info)
      | none, some (e, info) => s.raise e info
      | none, none =>
        if s.walks s.cur c h then .next (s.beginWalk c.space h)
        else
          let granted := match h with
            | .mem pa => s.granuleOk s.cur.core pa
            | _ => true
          if !granted then s.raise 0xA (word (va56 x.addr))
          else s.path x c h posted now

end State

/-- The offset of the M and A forms, signed and scaled (R364). -/
def offOf {w : Nat} (o : BitVec w) (scale : Nat) : Int := sext o.toNat w * scale

/-- LD (R411). -/
def execLd (d : BitVec 3) (k : BitVec 2) (x : BitVec 1) (g z : BitVec 3) (o : BitVec 14) (s : State) : Out :=
  s.guard .scalar (.ld d k x g z o) fun s =>
    let n := ldBytes z.toNat
    let a := s.memAddr k x g (offOf o n)
    s.scalarAccess { kb := k, addr := a, size := n, perm := State.pR, write := false,
                     form := if z = 3#3 then .dword else .none, alignInfo := word a, own := none,
                     op := .load d z.toNat } false
      fun s bs _ => s.setG d (loadValue z.toNat bs)

/-- ST (R471). -/
def execSt (d : BitVec 3) (k : BitVec 2) (x : BitVec 1) (g z : BitVec 3) (o : BitVec 14) (s : State) : Out :=
  s.guard .scalar (.st d k x g z o) fun s =>
    let n := stBytes z.toNat
    let a := s.memAddr k x g (offOf o n)
    let v := (s.g d).toNat
    s.scalarAccess { kb := k, addr := a, size := n, perm := State.pW, write := true,
                     form := if z = 3#3 then .dword else .none, alignInfo := word a, own := none,
                     op := if z.toNat ≤ 3 then .store (leBytes n v) else .nibble (z == 5#3) (v % 16) } true
      fun s _ _ => s

/-- LDK (R414). -/
def execLdk (c k : BitVec 2) (x : BitVec 1) (g : BitVec 3) (o : BitVec 14) (s : State) : Out :=
  s.guard .scalar (.ldk c k x g o) fun s =>
    let a := s.memAddr k x g (offOf o 16)
    let kk := s.k k
    s.scalarAccess { kb := k, addr := a, size := 16, perm := State.pR, write := false, form := .cap,
                     alignInfo := word a, own := none,
                     op := .loadCap c (kk.has Cap.permK && kk.space != 5 && kk.space != 6) } false
      fun s bs t => s.setK c ⟨BitVec.ofNat 128 (leNat bs), t⟩

/-- The tests of STK on the stored capability (R473, R127, R130); MGCODE takes any (R131). -/
def stkCheck (h : Option Home) (kk c : Cap) (info : Word) : Option (Nat × Word) :=
  if !c.tag then none
  else if kk.space = 5 ∨ kk.space = 6 then some (6, info)
  else if !c.has Cap.permG ∧ kk.space ≠ 1 then some (5, info)
  else match h with
    | some (.reg _ block off) =>
      let atab := (block = 0 ∨ 0x40 ≤ block) ∧ 0x1000 ≤ off ∧ off < 0x1400
      let mgcode := block = 4 ∧ 0xC0000 ≤ off
      if atab then (if c.sealOf ≠ 0 ∨ !c.has Cap.permG then some (5, info) else none)
      else if c.sealOf ≠ 2 ∧ !mgcode then some (5, info) else none
    | _ => none

/-- STK (R473). -/
def execStk (c k : BitVec 2) (x : BitVec 1) (g : BitVec 3) (o : BitVec 14) (s : State) : Out :=
  s.guard .scalar (.stk c k x g o) fun s =>
    let a := s.memAddr k x g (offOf o 16)
    let kk := s.k k
    let v := s.k c
    s.scalarAccess { kb := k, addr := a, size := 16, perm := State.pW, write := true, form := .cap,
                     alignInfo := State.capInfo a k.toNat,
                     own := stkCheck (s.home s.cur.core kk.space a) kk v (State.capInfo a k.toNat),
                     op := .storeCap ⟨v.bits, v.tag && kk.has Cap.permK⟩ } true
      fun s _ _ => s

end Sys2Proof.Machine
end

