-- ==== Sys2Proof/Machine/Atomic.lean ====
section
/-! DEFINITION. The atomics AMO and ACAS (17 R384 to R387; 05 R159). -/

namespace Sys2Proof.Machine

/-- The width of an atomic in bytes (R384). -/
def amoBytes (w : BitVec 2) : Nat := if w = 0#2 then 4 else 8

/-- An atomic from CheckCap to its path (R385, R386). -/
def State.atomic (s : State) (k : BitVec 2) (o : BitVec 8) (w : BitVec 2) (d : Option (BitVec 3)) (op : Nat)
    (v cmp : Word) : Out :=
  let n := amoBytes w
  let a := s.memAddr k 0#1 0#3 (offOf o 8)
  s.scalarAccess { kb := k, addr := a, size := n, perm := if d.isSome then State.pRWA else State.pWA, write := true,
                   form := .none, alignInfo := word a, own := none, op := .atomic d op v.toNat cmp.toNat }
    d.isNone fun s bs _ =>
      match d with
      | some r => s.setG r (word (leNat bs))
      | none => s

/-- AMO, returning (R385). -/
def execAmo (d : BitVec 3) (k : BitVec 2) (a : BitVec 3) (p : BitVec 4) (w : BitVec 2) (o : BitVec 8) (s : State) : Out :=
  s.guard .scalar (.amo d k a p w o) fun s => s.atomic k o w (some d) p.toNat (s.g a) 0

/-- AMO, non-returning (R385). -/
def execAmoRed (k : BitVec 2) (a : BitVec 3) (p : BitVec 4) (w : BitVec 2) (o : BitVec 8) (s : State) : Out :=
  s.guard .scalar (.amoRed k a p w o) fun s => s.atomic k o w none p.toNat (s.g a) 0

/-- ACAS (R385). -/
def execAcas (d : BitVec 3) (k : BitVec 2) (a b : BitVec 3) (w : BitVec 2) (o : BitVec 8) (s : State) : Out :=
  s.guard .scalar (.acas d k a b w o) fun s => s.atomic k o w (some d) 15 (s.g a) (s.g b)

end Sys2Proof.Machine
end

