-- ==== Sys2Proof/Machine/Gather.lean ====
section
/-! DEFINITION. The operand blocks that scalar instructions read from memory in pieces (17 R382 Read; 18 R446). -/

namespace Sys2Proof.Machine

/-- A block to read: its capability and that capability's register, its address and its size. -/
structure Block where
  c : Cap
  kn : Nat
  a : Nat
  n : Nat
  deriving Repr

namespace State

/-- The accesses of the fibre that read pieces of its operand block. -/
def piecesOf (s : State) (f : FibreRef) : Bool :=
  s.flight.any fun a => a.2.who == f && a.2.op == .piece

/-- The pieces of a span with their homes; a piece without a home is left out (CheckCap has refused it). -/
def pieceHomes (s : State) (space a n : Nat) : List (Nat × Nat × Home) :=
  (linePieces a n).filterMap fun p => (s.home s.cur.core space p.1).map fun h => (p.1, p.2, h)

/-- The name of a piece in a fibre's buffer: its space, address and size. -/
def pieceKey (space a n : Nat) : Nat := (space * 2 ^ 56 + va56 a) * 2 ^ 12 + n

/-- The bytes of a span from the pieces that have been read. -/
def assemble (buf : List (Nat × List Byte)) (space a n : Nat) : List Byte :=
  (linePieces a n).flatMap fun p => tget (List.replicate p.2 0) buf (pieceKey space p.1 p.2)

/-- The bytes of blocks that have been read. -/
def assembleAll (buf : List (Nat × List Byte)) (bs : List Block) : List (List Byte) :=
  bs.map fun b => assemble buf b.c.space b.a b.n

/-- Read one piece in the issue cycle from the own tile store, else launch its read (R133). -/
def pieceStep (s : State) (b : Block) (p : Nat × Nat × Home) : State :=
  match ownTile s.cur.core p.2.2, p.2.2 with
  | true, .mem pa => s.modMe fun f => { f with buf := f.buf ++ [(pieceKey b.c.space p.1 p.2.1, s.readBytes pa p.2.1)] }
  | _, _ =>
    let (id, t) := s.launch s.cur .piece b.c p.1 p.2.1 p.2.2 false
    t.modAccess id fun a => { a with kn := b.kn }

/-- An uncorrectable error in the own-tile pieces: the address and whether it is poison. -/
def ownError (s : State) (ps : List (Nat × Nat × Home)) : Option (Nat × Bool) :=
  (ps.filterMap fun p => match ownTile s.cur.core p.2.2, p.2.2 with
    | true, .mem pa => (s.readError pa p.2.1).map fun e => (p.1, e)
    | _, _ => none).head?

/-- Read operand blocks whose capabilities have been checked, then go on with their bytes: at once when they lie
in the own tile store, else after parking with reason MEM (R446). -/
def readBlocks (s : State) (bs : List Block) (i : Instr) (k : State → List (List Byte) → Out) : Out :=
  let ps := bs.flatMap fun b => (s.pieceHomes b.c.space b.a b.n).map fun p => (b, p)
  if ps.any fun p => s.mustHold s.cur p.1.c.space (va56 p.2.1) p.2.2.1 then .next s.hold
  else match ps.find? fun p => (match p.2.2.2 with | .mem pa => !s.granuleOk s.cur.core pa | _ => false) with
  | some p => s.raise 0xA (word (va56 p.2.1))
  | none =>
    match s.ownError (ps.map (·.2)) with
    | some (e, poison) => s.raise 0x0B (ueInfo (va56 e) poison)
    | none =>
      let t := ps.foldl (fun s p => s.pieceStep p.1 p.2) (s.modMe fun f => { f with buf := [] })
      if t.piecesOf s.cur then .next (t.parkMe 1 (.gather i))
      else k (t.modMe fun f => { f with buf := [] }) (assembleAll t.me.buf bs)

/-- Read one operand block (R446). -/
def readBlock (s : State) (c : Cap) (kn a n : Nat) (i : Instr) (k : State → List Byte → Out) : Out :=
  s.readBlocks [⟨c, kn, a, n⟩] i fun t bs => k t (bs.headD [])

end State

end Sys2Proof.Machine
end

