-- ==== Sys2Proof/Machine/Scope.lean ====
section
/-! DEFINITION. Scopes (00 R6 to R8), what a scope covers, and the waits of releases (08 R227 to R230; 03 R77,
R88). -/

namespace Sys2Proof.Machine

/-- PART and SYS of a scope (R6). -/
def scopePart (v : Word) : Bool := bitN v.toNat 62
def scopeSys (v : Word) : Bool := bitN v.toNat 63

/-- The rectangle of a scope: x0, y0, x1, y1 (R6). -/
def scopeRect (v : Word) : Nat × Nat × Nat × Nat := (field v 5 0, field v 13 8, field v 21 16, field v 29 24)

/-- R8 refuses the scope. -/
def scopeBad (v : Word) : Bool :=
  let (x0, y0, x1, y1) := scopeRect v
  field v 61 30 != 0 || field v 23 22 != 0 || field v 15 14 != 0 || field v 7 6 != 0 ||
    (!scopePart v && (decide (x1 < x0) || decide (y1 < y0) || decide (47 < x1) || decide (31 < y1)))

/-- The tile lies inside the scope (R6). -/
def scopeInside (v : Word) (n : Nat) : Bool :=
  let (x0, y0, x1, y1) := scopeRect v
  scopePart v || (decide (x0 ≤ tileX n) && decide (tileX n ≤ x1) && decide (y0 ≤ tileY n) && decide (tileY n ≤ y1))

/-- The scope of a whole partition (R228). -/
def scopeWhole : Word := word (2 ^ 62)

/-- Barrier latency D over a rectangle (R245). -/
def rectDelay (r : Nat × Nat × Nat × Nat) : Nat :=
  let (x0, y0, x1, y1) := r
  let nd := b2n (x0 ≤ 15 && 16 ≤ x1) + b2n (x0 ≤ 31 && 32 ≤ x1)
  6 + (x1 - x0) + (y1 - y0) + 8 * nd + 12 * b2n (y0 ≤ 15 && 16 ≤ y1)

/-- An instruction of a vector or shape group that reads or writes memory (R224). -/
def vecMemory : Instr → Bool
  | .vld _ _ _ _ _ _ => true
  | .vst _ _ _ _ _ _ => true
  | .vgth _ _ _ _ _ => true
  | .vsct _ _ _ _ _ => true
  | .qenc _ _ _ _ _ => true
  | .qdec _ _ _ _ _ _ => true
  | .qtrn _ _ _ _ => true
  | .qscl _ _ _ _ _ => true
  | _ => false

namespace State

/-- The tiles of a partition, by tile number (R281). -/
def tilesOf (s : State) (p : Nat) : List Nat :=
  if 48 ≤ p then [] else (s.tiles.filter fun t : Nat × Tile => t.2.ptag == p).map fun t => t.1

/-- The tiles of a partition that a scope covers (R7). -/
def scopeTiles (s : State) (p : Nat) (v : Word) : List Nat := (s.tilesOf p).filter (scopeInside v)

/-- The rectangle over which a barrier of a partition runs (R245). -/
def barrierRect (s : State) (p : Nat) (v : Word) : Nat × Nat × Nat × Nat :=
  if scopePart v then
    (s.tilesOf p).foldl (fun r n => (min r.1 (tileX n), min r.2.1 (tileY n), max r.2.2.1 (tileX n), max r.2.2.2 (tileY n)))
      (47, 31, 0, 0)
  else scopeRect v

/-- The home of an access lies in a scope of a partition (R7, R227). -/
def scopeHolds (s : State) (p : Nat) (v : Word) (a : Access) : Bool :=
  let onDie (d : Nat) : Bool := (s.scopeTiles p v).any fun n => tileDie n == d
  match a.space with
  | 7 => true
  | 8 => true
  | 5 => scopeSys v
  | 6 => scopeSys v
  | 4 => onDie (bits a.va 55 53)
  | 3 => onDie (bits a.va 29 27)
  | _ =>
    match a.pa with
    | some pa => (s.scopeTiles p v).contains (paIdx pa)
    | none => false

/-- An earlier vector-path access of the fibre has not been performed (R224, R227). -/
def vecMemPending (s : State) (f : FibreRef) : Bool :=
  let c := s.core f.core
  let hit (d : Disp) : Bool := d.slot == f.slot && vecMemory d.i
  c.disp.any hit || c.running.any hit ||
    s.flight.any fun a => a.2.who == f && (match a.2.op with | .laneWrite _ _ => true | .laneRead _ => true | _ => false)

/-- A release with a scope may take effect (R227). -/
def releaseDone (s : State) (f : FibreRef) (v : Word) : Bool :=
  !s.vecMemPending f &&
    !s.flight.any fun a => a.2.who == f && a.2.posted && s.scopeHolds (s.partOf f.core) v a.2

/-- FENCE.X may end (R229). -/
def fenceXDone (s : State) (f : FibreRef) : Bool := (s.fib f).outs == 0 && !s.vecMemPending f && !s.movesOf f

/-- IFENCE may end (R230). -/
def ifenceDone (s : State) (f : FibreRef) : Bool := (s.fib f).outs == 0 && !s.laneWritesOf f

end State

end Sys2Proof.Machine
end

