-- ==== Sys2Proof/Machine/Strm.lean ====
section
/-! DEFINITION. The stream group (19 R454 to R458, R463, R467, R468) and what a flit's arrival or departure does
to the fibres that wait. -/

namespace Sys2Proof.Machine

/-- Fields of a slot-table entry (R26). -/
def entryV (e : Entry) : Bool := bitN e.toNat 31
def entrySrc (e : Entry) : Nat := field e 30 28
def entryPtag (e : Entry) : Nat := field e 27 22
def entryCmask (e : Entry) : Nat := field e 21 16
def entryCop (e : Entry) : Nat := field e 15 12
def entryCid (e : Entry) : Nat := field e 11 0

/-- Entry n of a slot table: entry 0 reads as zero, and one that is not listed has its reset value (R26). -/
def Tile.entry (t : Tile) (tbl n : Nat) : Entry := if n = 0 then 0 else tget Entry.reset t.slots (tbl, n)

/-- The entry takes an input from the local port (R457). -/
def entryLocal (e : Entry) : Bool := entrySrc e == 4 || (entrySrc e == 5 && bitN (entryCmask e) 1)

/-- Word i of a flit. -/
def flitWord (x : BitVec 512) (i : Nat) : Word := word (x.toNat / 2 ^ (64 * i))

/-- A flit from its words; the words that are not there are zero (R454). -/
def flitOf (ws : List Word) : BitVec 512 := BitVec.ofNat 512 (leNat (ws.flatMap fun w => leBytes 8 w.toNat))

/-- The word-count code of a word count (R457). -/
def nwCode (n : Nat) : Nat := Nat.log2 n

namespace State

def strm (s : State) (c : CoreId) (n : Nat) : Stream := tget {} (s.core c).streams n
def setStrm (s : State) (c : CoreId) (n : Nat) (r : Stream) : State :=
  s.modCore c fun x => { x with streams := tset x.streams n r }

/-- A stream register that the DOE mailbox serves (R456). -/
def fixedStrm (c : CoreId) (n : Nat) : Bool := c == .root && decide (n < 2)

/-- Move a held DOE object into s0 once there is room for all of it (R305, R456). -/
def doeRoom (s : State) : State :=
  match s.pkg.doe.held with
  | some o => if s.pkg.doe.s0.length + o.length ≤ 1024 then s.schedOnce s.clock .doeDeliver else s
  | none => s

/-- Take the next visible word of a receive register, and the state after it (R467, R456). -/
def popWord (s : State) (c : CoreId) (n : Nat) : Option (Word × State) :=
  if c = .root ∧ n = 0 then
    match s.pkg.doe.s0 with
    | d :: l => some (d.zeroExtend 64, (s.modPkg fun p => { p with doe := { p.doe with s0 := l } }).doeRoom)
    | [] => none
  else
    let r := s.strm c n
    match r.inj, r.fifo, r.seen with
    | false, x :: l, t :: ts =>
      if t ≤ s.clock then
        let w := flitWord x r.popped
        if r.popped + 1 < r.n then some (w, s.setStrm c n { r with popped := r.popped + 1 })
        else some (w, s.setStrm c n { r with popped := 0, fifo := l, seen := ts })
      else none
    | _, _, _ => none

/-- The trap of SPOP on a register that holds no word, if it traps (R467, R456). -/
def popTrap (s : State) (c : CoreId) (n : Nat) : Option (Nat × Word) :=
  let r := s.strm c n
  if c = .root ∧ n = 0 then none
  else if r.lost then some (0x12, word (r.cid + n * 2 ^ 16))
  else if !r.bound then some (0x0E, word n)
  else none

/-- The word enters the register (R468): the flit that n words complete may leave two cycles later (R29). -/
def pushWord (s : State) (c : CoreId) (n : Nat) (v : Word) : State :=
  if c = .root then s.modPkg fun p => { p with doe := { p.doe with s1 := p.doe.s1 ++ [v.truncate 32] } }
  else
    let r := s.strm c n
    let ws := r.part ++ [v]
    if ws.length < r.n then s.setStrm c n { r with part := ws }
    else s.setStrm c n { r with part := [], fifo := r.fifo ++ [flitOf ws], seen := r.seen ++ [s.clock + 2] }

/-- The injection queue is full (R468, R456). -/
def pushFull (s : State) (c : CoreId) (n : Nat) : Bool :=
  if c = .root then decide (1024 ≤ s.pkg.doe.s1.length) else decide (64 ≤ (s.strm c n).fifo.length)

/-- The traps of SPUSH before it waits (R468, R456). -/
def pushTrap (s : State) (c : CoreId) (n : Nat) (w : Word) : Option (Nat × Word) :=
  let r := s.strm c n
  if c = .root ∧ n = 1 then none
  else if c = .root ∧ n = 0 then some (1, w)
  else if !r.bound then some (0x0E, word n)
  else if !r.inj then some (1, w)
  else if r.lost then some (0x12, word (r.cid + n * 2 ^ 16))
  else none

/-- The fibre leaves the list of those that wait on stream registers. -/
def leaveStrm (s : State) (f : FibreRef) : State :=
  s.modCore f.core fun x => { x with strmWait := x.strmWait.filter (·.2 != f.slot) }

/-- A fibre that waits on a stream register tries again: it takes or writes its word, traps, or waits on. -/
def strmTry (s : State) (f : FibreRef) : State :=
  match (s.fib f).cont with
  | .spop a r =>
    let n := r.toNat
    match s.popWord f.core n with
    | some (v, t) => ((t.leaveStrm f).setGOf f a v).complete f
    | none =>
      match s.popTrap f.core n with
      | some (e, info) => ((s.leaveStrm f).ready f).trapEntry f e info false (s.fib f).pc
      | none => s
  | .spush a r =>
    let n := r.toNat
    match s.pushTrap f.core n 0 with
    | some (e, info) => ((s.leaveStrm f).ready f).trapEntry f e info false (s.fib f).pc
    | none =>
      if s.pushFull f.core n then s
      else ((s.leaveStrm f).pushWord f.core n (lget 0 (s.fib f).g a.toNat)).complete f
  | _ => s

/-- The waiters on a register try again in the order in which they parked (R467). -/
def strmWake (s : State) (c : CoreId) (n : Nat) : State :=
  ((s.core c).strmWait.filter (·.1 == n)).foldl (fun s w => s.strmTry ⟨c, w.2⟩) s

/-- The flits that become visible on a core in this cycle: waiting fibres go on, and WFE sees an event (R29, R499). -/
def visibleCore (s : State) (c : CoreId) : State :=
  (s.core c).streams.foldl (fun s x =>
    if !x.2.inj && x.2.seen.contains s.clock then (s.strmWake c x.1).latch evStrm fun f => f.core == c else s) s

/-- Flits that become visible in this cycle (R29): their waiters try again, and WFE sees the event (R499). -/
def visibleFlits (s : State) : State :=
  s.cores.foldl (fun s c => if s.stopped (s.partOf c.1) then s else s.visibleCore c.1) s

/-- Park on a stream register. -/
def parkStrm (s : State) (f : FibreRef) (n : Nat) (k : Cont) : State :=
  (s.modCore f.core fun x => { x with strmWait := x.strmWait ++ [(n, f.slot)] }).parkF f 6 k

/-- A circuit of a partition is LOST (R54). -/
def circuitLost (s : State) (p cid : Nat) : Bool := s.pkg.circuits.any fun c => c.part == p && c.cid == cid && c.state == 3

/-- A fibre waits on the register already. -/
def strmWaited (s : State) (c : CoreId) (n : Nat) : Bool := (s.core c).strmWait.any (·.1 == n)

/-- SPUSH after its release: wait for room, or write the word (R468). -/
def pushOrPark (s : State) (f : FibreRef) (a r : BitVec 3) (v : Word) : State :=
  if s.pushFull f.core r.toNat ∨ s.strmWaited f.core r.toNat then s.parkStrm f r.toNat (.spush a r)
  else (s.pushWord f.core r.toNat v).complete f

/-- The current and staged slot-table entries of a tile: table and entry (R457). -/
def tableEntries (s : State) (n : Nat) : List (Nat × Entry) :=
  let t := s.tile n
  (t.slots.map fun x : (Nat × Nat) × Entry => (x.1.1, x.2)) ++
    t.shadow.flatMap fun st : Staged => if st.action = 0 then
      (st.recs.filter fun r => r.x == tileX n && r.y == tileY n).map fun r => (r.tbl, r.entry) else []

/-- Discard what a register holds, as counted drops of its tile (R50, R463). -/
def countDrops (s : State) (c : CoreId) (k : Nat) : State :=
  if isService c then s
  else (s.modTile (coreTile c) fun t => { t with drops := t.drops + k }).countTile (coreTile c) 0x40 k

/-- Flits of an inject register that are lost with its binding, the incomplete one among them. -/
def heldFlits (r : Stream) : Nat := r.fifo.length + b2n (!r.part.isEmpty)

end State

/-- SBIND (R457). A register that is bound to a circuit already LOST says so at once, for R54 holds for every fibre that then uses it
(DEDUCED, log 103). -/
def execSbind (a b z : BitVec 3) (s : State) : Out :=
  s.guard .scalar (.sbind a b z) fun s =>
    let c := s.cur.core
    let n := z.toNat
    let r := s.strm c n
    let va := s.g a
    let vb := s.g b
    let cid := field va 11 0
    let inj := bitN vb.toNat 0
    let tile := coreTile c
    let own := (s.tableEntries tile).filter fun e : Nat × Entry =>
      entryV e.2 && entryCid e.2 == cid && entryPtag e.2 == s.myPart
    let taken := (List.range 3).any fun k => ((s.core (coreOf tile k)).streams).any fun x : Nat × Stream =>
      x.2.bound && x.2.cid == cid && x.2.inj == inj
    if va.toNat / 2 ^ 12 ≠ 0 ∨ vb.toNat / 8 ≠ 0 then s.illegal (.sbind a b z)
    else if isService c ∨ r.bound then s.illegal (.sbind a b z)
    else if own.isEmpty then s.raise 1 va
    else if inj ∧ !own.any (fun e : Nat × Entry => entryLocal e.2) then s.raise 1 va
    else if !inj ∧ !own.any (fun e : Nat × Entry => e.1 == 4) then s.raise 1 va
    else if taken then s.raise 1 va
    else .next ((s.setStrm c n { bound := true, inj, cid, n := 2 ^ bits vb.toNat 2 1, lost := s.circuitLost s.myPart cid }).retire 1)

/-- SFREE (R463). -/
def execSfree (z : BitVec 3) (s : State) : Out :=
  s.guard .scalar (.sfree z) fun s =>
    let c := s.cur.core
    let n := z.toNat
    let r := s.strm c n
    if State.fixedStrm c n then s.illegal (.sfree z)
    else if !r.bound then .next (s.retire 1)
    else
      let s := s.countDrops c (State.heldFlits r)
      let s := s.setStrm c n { bound := false, cid := r.cid, inj := r.inj, n := r.n }
      .next ((s.strmWake c n).retire 1)

/-- SPOP (R467). -/
def execSpop (a z : BitVec 3) (s : State) : Out :=
  s.guard .scalar (.spop a z) fun s =>
    let c := s.cur.core
    let n := z.toNat
    let r := s.strm c n
    if (r.bound && r.inj) || (c == .root && n == 1) then s.illegal (.spop a z)
    else match (if s.strmWaited c n then none else s.popWord c n) with
      | some (v, t) => .next ((t.setG a v).retire 1)
      | none =>
        match s.popTrap c n with
        | some (e, info) => s.raise e info
        | none => .next (s.parkStrm s.cur n (.spop a z))

/-- SPUSH and SPUSH.REL (R468). -/
def execSpush (a : BitVec 3) (r : BitVec 1) (z : BitVec 3) (s : State) : Out :=
  s.guard .scalar (.spush a r z) fun s =>
    let n := z.toNat
    match s.pushTrap s.cur.core n (word (wordOf (.spush a r z)).toNat) with
    | some (e, info) => s.raise e info
    | none =>
      if r = 1#1 ∧ !s.releaseDone s.cur scopeWhole then .next (s.parkMe 2 (.release (.spush a r z) []))
      else .next (s.pushOrPark s.cur a z (s.g a))

/-- The word that SCNT returns (R458). -/
def scntWord (s : State) (c : CoreId) (n : Nat) : Word :=
  let r := s.strm c n
  if State.fixedStrm c n then
    word (2 ^ 63 + n * 2 ^ 62 + (if n = 0 then s.pkg.doe.s0.length else s.pkg.doe.s1.length) % 2048 * 2 ^ 16)
  else
    let shown := if r.inj then r.fifo.length else (r.seen.filter fun t => decide (t ≤ s.clock)).length
    let part := if r.inj then r.part.length else r.popped
    word (b2n r.bound * 2 ^ 63 + b2n (r.bound && r.inj) * 2 ^ 62 + (if r.bound then nwCode r.n else 0) * 2 ^ 60 + b2n r.miss * 2 ^ 59 + b2n r.lost * 2 ^ 58
      + r.cid % 4096 * 2 ^ 32 + shown % 2048 * 2 ^ 16 + part % 8 * 2 ^ 8)

/-- SCNT (R458). -/
def execScnt (a z : BitVec 3) (s : State) : Out :=
  s.guard .scalar (.scnt a z) fun s =>
    let c := s.cur.core
    let n := z.toNat
    let v := scntWord s c n
    let s := s.setStrm c n { s.strm c n with miss := false }
    .next ((s.setG a v).retire 1)

end Sys2Proof.Machine
end

