-- ==== Sys2Proof/Machine/Route.lean ====
section
/-! DEFINITION. The routes of circuits (02 R25 to R32, R526): hops as tile, table, offset from the circuit's
slot modulo 1,024, and entry; the tree of a reduction; the choice of slots. -/

namespace Sys2Proof.Machine

/-- A hop: tile, table, offset, entry. -/
abbrev Hop := Nat × Nat × Nat × Entry

/-- A slot-table entry of R26. -/
def mkEntry (src part cmask cop cid : Nat) : Entry :=
  BitVec.ofNat 32 (2 ^ 31 + src % 8 * 2 ^ 28 + part % 64 * 2 ^ 22 + cmask % 64 * 2 ^ 16 + cop % 16 * 2 ^ 12 + cid % 4096)

/-- The entry with another circuit handle. -/
def entryWithCid (e : Entry) (cid : Nat) : Entry := BitVec.ofNat 32 (e.toNat / 4096 * 4096 + cid % 4096)

/-- The neighbour that an output port leads to, its input port and the slots of the link (R25). -/
def neighbour (n port : Nat) : Nat × Nat × Nat := residueNext n port 0

/-- The bit of an input port in CMASK (R26). -/
def maskBit (port : Nat) : Nat := 2 ^ (5 - port)

/-- X then Y from a tile to a tile, entered by an input port at an offset (R31). -/
def xyPath (part dst : Nat) : Nat → Nat → Nat → Nat → List Hop
  | 0, _, _, _ => []
  | fuel + 1, n, src, off =>
    let p := residueOut n dst
    let h : Hop := (n, p, off % 1024, mkEntry src part 0 0 0)
    if n = dst then [h]
    else
      let (m, q, d) := neighbour n p
      h :: xyPath part dst fuel m q (off + d)

/-- The latency of the X-then-Y route between two tiles (R29). -/
def xyLat (dst : Nat) : Nat → Nat → Nat
  | 0, _ => 0
  | fuel + 1, n =>
    if n = dst then 0
    else
      let (m, _, d) := neighbour n (residueOut n dst)
      d + xyLat dst fuel m

/-- The longest X-then-Y route has 78 links. -/
def pathFuel : Nat := 80

/-- Along a column from a tile onto its bridge channel (R31 class 4): hops, and the slots to the I/O die. -/
def bridgePath (part : Nat) : Nat → Nat → Nat → Nat → List Hop × Nat
  | 0, _, _, off => ([], off)
  | fuel + 1, n, src, off =>
    let p := residueOut n ioNode
    let h : Hop := (n, p, off % 1024, mkEntry src part 0 0 0)
    if tileY n = 15 ∨ tileY n = 16 then ([h], off + 12)
    else
      let (m, q, d) := neighbour n p
      let (hs, l) := bridgePath part fuel m q (off + d)
      (h :: hs, l)

/-! ## The canonical reduce tree (R32) -/

/-- Some participant lies in a row beyond a column, to the east or to the west. -/
def partEast (ps : List Nat) (x y : Nat) : Bool := ps.any fun n => tileY n == y && decide (x < tileX n)
def partWest (ps : List Nat) (x y : Nat) : Bool := ps.any fun n => tileY n == y && decide (tileX n < x)

/-- The inputs of a node of the tree with root r: input port and the tile behind it. -/
def treeKids (ps : List Nat) (r n : Nat) : List (Nat × Nat) :=
  let x := tileX n
  let y := tileY n
  let col := decide (x = tileX r)
  (if col ∧ y ≤ tileY r ∧ ps.any (fun m => decide (tileY m < y)) then [(0, n - 48)] else [])
  ++ (if tileX r ≤ x ∧ partEast ps x y then [(1, n + 1)] else [])
  ++ (if col ∧ tileY r ≤ y ∧ ps.any (fun m => decide (y < tileY m)) then [(2, n + 48)] else [])
  ++ (if x ≤ tileX r ∧ partWest ps x y then [(3, n - 1)] else [])

/-- The combine of a node: whether it takes two stages, the entry of its output, and the entry of its first
stage (R27, R32). -/
def nodeEntries (ps : List Nat) (r n part cop : Nat) : Bool × Entry × Entry :=
  let kids := treeKids ps r n
  let loc := ps.contains n
  let lm := if loc then 2 else 0
  let sum (l : List (Nat × Nat)) : Nat := (l.map fun k => maskBit k.1).foldl (· + ·) 0
  let cnt := kids.length + b2n loc
  if 4 ≤ cnt then
    let row := kids.filter fun k => k.1 == 1 || k.1 == 3
    let col := kids.filter fun k => k.1 == 0 || k.1 == 2
    (true, mkEntry 5 part (sum col + 1) cop 0, mkEntry 5 part (sum row + lm) cop 0)
  else if 2 ≤ cnt then (false, mkEntry 5 part (sum kids + lm) cop 0, 0)
  else (false, mkEntry (match kids with | k :: _ => k.1 | [] => 4) part 0 0 0, 0)

/-- The hops that feed the root: from a node that leaves l slots before the root's slot by an output port, and
the longest feed (R526). -/
def feedTree (ps : List Nat) (r part cop : Nat) : Nat → Nat → Nat → Nat → List Hop × Nat
  | 0, _, _, _ => ([], 0)
  | fuel + 1, n, out, l =>
    let (two, e, e1) := nodeEntries ps r n part cop
    let l1 := if two then l + 1 else l
    let here : List Hop := (n, out, (1024 - l % 1024) % 1024, e) :: (if two then [(n, 5, (1024 - l1 % 1024) % 1024, e1)] else [])
    (treeKids ps r n).foldl (fun (acc : List Hop × Nat) k =>
      let back := (k.1 + 2) % 4
      let d := (neighbour k.2 back).2.2
      let base := if two ∧ (k.1 = 1 ∨ k.1 = 3) then l1 else l
      let (hs, m) := feedTree ps r part cop fuel k.2 back (base + d)
      (acc.1 ++ hs, max acc.2 m)) (here, if ps.contains n then l1 else l)

/-- The hops of the reversed tree of an all-reduce from a node where the result arrives with an entry, and the
longest distribution (R31, R526). -/
def spreadTree (ps : List Nat) (r part : Nat) : Nat → Nat → Nat → Entry → List Hop × Nat
  | 0, _, _, _ => ([], 0)
  | fuel + 1, n, off, e =>
    let here : List Hop := if n ≠ r ∧ ps.contains n then [(n, 4, off % 1024, e)] else []
    (treeKids ps r n).foldl (fun (acc : List Hop × Nat) k =>
      let d := (neighbour n k.1).2.2
      let (hs, m) := spreadTree ps r part fuel k.2 (off + d) (mkEntry ((k.1 + 2) % 4) part 0 0 0)
      (acc.1 ++ (n, k.1, off % 1024, e) :: hs, max acc.2 m)) (here, if ps.contains n then off else 0)

/-- The hops on the I/O die's ports into the bridge-row channels, of the hops that cross the bridge row: port x to the north
and 48 + x to the south; the input is the other channel of the column (R12, R24; log 71). The slot of a channel is that in which a
flit enters it, 12 slots before it can leave the router behind it (R25). -/
def ioHops (hs : List Hop) : List Hop :=
  hs.filterMap fun h =>
    if tileY h.1 = 15 ∧ h.2.1 = 2 then
      some (ioNode, 48 + tileX h.1, h.2.2.1, mkEntry 0 (entryPtag h.2.2.2) 0 0 (entryCid h.2.2.2))
    else if tileY h.1 = 16 ∧ h.2.1 = 0 then
      some (ioNode, tileX h.1, h.2.2.1, mkEntry 2 (entryPtag h.2.2.2) 0 0 (entryCid h.2.2.2))
    else none

/-- The hops of a circuit of classes 0 to 3 from a tile to its endpoints, on the tiles alone, and L (R31, R29, R526). -/
def tileRoute (cls src part cop : Nat) (ends : List Nat) : List Hop × Nat :=
  if cls ≤ 1 then
    ((ends.flatMap fun d => xyPath part d pathFuel src 4 0).eraseDups,
     (ends.map fun d => xyLat d pathFuel src).foldl max 0)
  else
    let (hs, l) := feedTree ends src part cop pathFuel src 4 0
    if cls = 2 then (hs, l)
    else
      let (hs2, l2) := spreadTree ends src part pathFuel src 0 (nodeEntries ends src src part cop).2.1
      (hs ++ hs2, l + l2)

/-- The hops of a circuit of classes 0 to 3 and L, with those on the I/O die (R24, R31, R41). -/
def buildRoute (cls src part cop : Nat) (ends : List Nat) : List Hop × Nat :=
  let r := tileRoute cls src part cop ends
  (r.1 ++ ioHops r.1, r.2)

/-- The hops of a list that stand in a tile's router. -/
def tileHops (hs : List Hop) : List Hop := hs.filter fun h => decide (h.1 < ioNode)

/-- The dies whose tiles a list of hops crosses. -/
def hopDies (hs : List Hop) : List Nat := ((tileHops hs).map fun h => tileDie h.1).eraseDups

/-! ## Slots -/

/-- The slots that a circuit holds. -/
def circSlots (c : Circuit) : List Nat := c.slots ++ c.pend

/-- The slot-table entries of routers that a circuit holds (R26, R283; log 71). -/
def circEntries (c : Circuit) : Nat := (circSlots c).length * (tileHops c.hops).length

/-- A circuit holds the entry of a table of a tile in a slot. -/
def circHolds (c : Circuit) (n tbl slot : Nat) : Bool :=
  c.hops.any fun h => h.1 == n && h.2.1 == tbl && (circSlots c).any fun t => (t + h.2.2.1) % 1024 == slot

/-- The slots of a table of a tile that circuits hold (R24). -/
def portUse (cs : List Circuit) (n tbl : Nat) : Nat :=
  (cs.map fun c => (c.hops.filter fun h => h.1 == n && h.2.1 == tbl).length * (circSlots c).length).foldl (· + ·) 0

/-- A diagonal is free: no hop falls on slot 0 or on a held entry, and every port keeps its residue slots when
`more` slots of the circuit are taken already (R24, R30). -/
def diagonalFree (cs : List Circuit) (hs : List Hop) (more t : Nat) : Bool :=
  hs.all fun h =>
    let s := (t + h.2.2.1) % 1024
    s != 0 && !cs.any (fun c => circHolds c h.1 h.2.1 s) && ((h.2.1 == 5 && h.1 != ioNode) || decide (portUse cs h.1 h.2.1 + more < 959))

/-- The candidate slots from PHASE upward, wrapping and skipping slot 0 (R49). -/
def candidates (phase : Nat) : List Nat := (List.range 1023).map fun i => (phase - 1 + i) % 1023 + 1

/-- The first k slots with free diagonals; with `exact`, PHASE among them (R49). -/
def chooseSlots (cs : List Circuit) (hs : List Hop) (phase k : Nat) (exact : Bool) : Option (List Nat) :=
  let got := (candidates phase).foldl (fun acc t =>
    if acc.length < k ∧ !acc.contains t ∧ diagonalFree cs hs acc.length t then acc ++ [t] else acc) []
  if got.length < k ∨ (exact ∧ !got.contains phase) then none else some got

/-- Insert a number in a rising list, keeping repeats. -/
def sortIn (x : Nat) : List Nat → List Nat
  | [] => [x]
  | y :: l => if x ≤ y then x :: y :: l else y :: sortIn x l

/-- The numbers in rising order. -/
def sorted (l : List Nat) : List Nat := l.foldr sortIn []

/-- How many further elements of a rising list go on from x with a step. -/
def runLen (step : Nat) : Nat → List Nat → Nat
  | _, [] => 0
  | x, y :: l => if y = x + step then 1 + runLen step y l else 0

/-- The arithmetic progressions FIRST, COUNT, STRIDE of a rising list, each as long as it goes (R41). -/
def progressions : Nat → List Nat → List (Nat × Nat × Nat)
  | 0, _ => []
  | _, [] => []
  | _, [x] => [(x, 1, 1)]
  | fuel + 1, x :: y :: l =>
    let n := runLen (y - x) x (y :: l)
    (x, n + 1, y - x) :: progressions fuel ((y :: l).drop n)

/-- The records that write a circuit's entries for some slots (R41). -/
def recordsOf (hs : List Hop) (slots : List Nat) : List CRecord :=
  (tileHops hs).flatMap fun h =>
    (progressions 1024 (sorted (slots.map fun t => (t + h.2.2.1) % 1024))).map fun p =>
      { x := tileX h.1, y := tileY h.1, tbl := h.2.1, first := p.1, count := p.2.1, stride := p.2.2, entry := h.2.2.2 }

/-- The action of a record of a teardown: injection entries go at the commit wheel, every other entry a wheel later (R43). -/
def clearAction (r : CRecord) : Nat := if entrySrc r.entry = 4 then 1 else 2

/-- The entries of the I/O die's tables that a circuit holds in some slots: port, slot, entry (R41). -/
def ioEntries (hs : List Hop) (slots : List Nat) : List ((Nat × Nat) × Entry) :=
  (hs.filter fun h => h.1 == ioNode).flatMap fun h => slots.map fun t => ((h.2.1, (t + h.2.2.1) % 1024), h.2.2.2)

/-- A package link's position departs in this slot (R57). -/
def posnSlot (x : Nat) : Nat := 2 * x / 3

/-- The lowest position that departs in a slot and that a list does not hold (R57). -/
def posnOf (slot : Nat) (taken : List Nat) : Option Nat :=
  ([(3 * slot + 1) / 2, (3 * slot + 1) / 2 + 1].filter fun x => posnSlot x == slot && !taken.contains x).head?

/-- The slots that a record names (R41). -/
def recordSlots (r : CRecord) : List Nat := (List.range r.count).map fun j => (r.first + j * r.stride) % 1024

end Sys2Proof.Machine
end

