-- ==== Sys2Proof/Machine/Circ.lean ====
section
/-! DEFINITION. The circuit instructions (02 R45 to R53, R59; 17 R393). Each sends a request to the Intercalator
and parks with reason CIRC. -/

namespace Sys2Proof.Machine

/-- The endpoint word of class 0 is refused (R49). -/
def tileBad (v : Word) : Bool :=
  field v 63 14 != 0 || field v 7 6 != 0 || decide (47 < field v 5 0) || decide (31 < field v 13 8)

/-- The entries that an almanac's length stands for (R49). -/
def almanacLen (n : Nat) : Nat := if n = 0 ∨ 256 < n then 0 else n

namespace State

/-- Send a request to the Intercalator and park (R44, R49). -/
def circSend (s : State) (f : FibreRef) (fn : Nat) (d : BitVec 3) (a b : Word) (block : List Byte) : State :=
  let t := coreTile f.core
  let p := s.partOf f.core
  let r : CircReq := { who := f, part := p, fn, a, b, block, tile := t }
  (s.parkF f 7 (.circ d)).inject t
    { reply := false, part := p, dst := ioNode, ev := none, since := s.clock + 1, req := some r }

/-- The address of an almanac: the cursor plus gb (R49). -/
def almanacAddr (s : State) (b : BitVec 3) (c : BitVec 2) : Nat := wrap 64 (((s.k c).cursor : Int) + (s.g b).toNat)

/-- The almanac with its length known: its whole block is checked and read, then the request goes out (R49). -/
def copenBlock (s : State) (i : Instr) (d a b : BitVec 3) (c : BitVec 2) (n : Nat) : Out :=
  let kk := s.k c
  let addr := s.almanacAddr b c
  let size := 64 + 16 * almanacLen n
  match s.checkBlock kk addr size pR false with
  | .error (e, x) => s.raise e (capInfo x c.toNat)
  | .ok _ => s.readBlock kk c.toNat addr size i fun t bs => .next (t.circSend s.cur 0 d (s.g a) (s.g b) bs)

/-- COPEN goes on with what its reads have returned: the length, or the block (R49). -/
def copenNext (s : State) (i : Instr) (d a b : BitVec 3) (c : BitVec 2) : Out :=
  let addr := s.almanacAddr b c
  let buf := s.me.buf
  let sp := (s.k c).space
  match tfind buf (pieceKey sp (addr + 4) 2) with
  | some bs => s.copenBlock i d a b c (leNat bs)
  | none =>
    let size := (buf.map fun x : Nat × List Byte => x.2.length).foldl (· + ·) 0
    .next (s.circSend s.cur 0 d (s.g a) (s.g b) (assemble buf sp addr size))

end State

/-- COPEN (R49). -/
def execCopen (d a b : BitVec 3) (c : BitVec 2) (s : State) : Out :=
  s.guard .link (.copen d a b c) fun s =>
    let v := s.g a
    let w := s.g b
    let cls := field v 63 61
    if copenBad v then s.raise 1 v
    else if cls < 4 then
      let k := field v 53 44
      if k = 0 ∨ 959 < k ∨ c ≠ 0#2 then s.raise 1 v
      else if cls = 0 ∧ tileBad w then s.raise 1 w
      else if 0 < cls ∧ scopeBad w then s.raise 1 w
      else .next (s.circSend s.cur 0 d v w [])
    else if s.me.pl = 0 then s.raise 3 0
    else if field v 53 33 ≠ 0 then s.raise 1 v
    else
      let kk := s.k c
      let addr := s.almanacAddr b c
      match s.checkBlock kk addr 64 State.pR false with
      | .error (e, x) => s.raise e (State.capInfo x c.toNat)
      | .ok h =>
        if addr % 64 ≠ 0 then s.raise 8 (word addr)
        else match h with
          | .reg _ _ _ => s.raise 8 (word addr)
          | _ => s.readBlock kk c.toNat (addr + 4) 2 (.copen d a b c) fun t bs => t.copenBlock (.copen d a b c) d a b c (leNat bs)

/-- CSHUT (R50). -/
def execCshut (d a : BitVec 3) (s : State) : Out :=
  s.guard .link (.cshut d a) fun s =>
    let v := s.g a
    if v.toNat / 2 ^ 12 ≠ 0 then s.illegal (.cshut d a) else .next (s.circSend s.cur 1 d v 0 [])

/-- CRSZ (R51). -/
def execCrsz (d a b : BitVec 3) (s : State) : Out :=
  s.guard .link (.crsz d a b) fun s =>
    let v := s.g a
    let w := s.g b
    if v.toNat / 2 ^ 12 ≠ 0 then s.raise 1 v
    else if w.toNat = 0 ∨ 959 < w.toNat then s.raise 1 w
    else .next (s.circSend s.cur 2 d v w [])

/-- CRSZ.ARM (R51). -/
def execCrszArm (d a b : BitVec 3) (s : State) : Out :=
  s.guard .link (.crszArm d a b) fun s =>
    let v := s.g a
    if field v 63 32 ≠ 0 ∨ field v 15 12 ≠ 0 ∨ field v 31 16 = 0 then s.illegal (.crszArm d a b)
    else .next (s.circSend s.cur 3 d v (s.g b) [])

/-- CQRY (R52). -/
def execCqry (d a : BitVec 3) (s : State) : Out :=
  s.guard .link (.cqry d a) fun s => .next (s.circSend s.cur 4 d (s.g a) 0 [])

end Sys2Proof.Machine
end

