-- ==== Sys2Proof/Machine/Control.lean ====
section
/-! DEFINITION. Branches and jumps (17 R390, R399, R400; 03 R69, R70). -/

namespace Sys2Proof.Machine

namespace State

/-- A taken branch or jump to an address: busy time 1 when its line stands in the fetch buffer, 5 when the line
lies in the own tile store (it is then read), else 1 and the fetch parks (R69, R390). The branch itself never
traps. -/
def jump (s : State) (t : Word) : State :=
  let s := s.trace s.cur 1 s.me.pc t
  if inBuffer s.me t.toNat then s.retireTo 1 t
  else
    let u := s.retireTo 5 t
    match u.fetchCheck u.cur with
    | .ok h => if localCode u.cur.core h then u else s.retireTo 1 t
    | .error _ => s.retireTo 1 t

end State

/-- The condition of Bcc (R390). -/
def branchTaken (c : BitVec 3) (x y : Word) : Bool :=
  match c.toNat with
  | 0 => x == y
  | 1 => x != y
  | 2 => decide (x.toInt < y.toInt)
  | 3 => !decide (x.toInt < y.toInt)
  | 4 => decide (x.toNat < y.toNat)
  | _ => !decide (x.toNat < y.toNat)

/-- PC + 4 × SignExt of an offset field (R362). -/
def relTarget {w : Nat} (pc : Word) (o : BitVec w) : Word := pc + signExt o.toNat w * 4

/-- Bcc (R390). -/
def execBcc (a b c : BitVec 3) (o : BitVec 17) (s : State) : Out :=
  s.guard .scalar (.bcc a b c o) fun s =>
    if branchTaken c (s.g a) (s.g b) then .next (s.jump (relTarget s.me.pc o)) else .next (s.retire 1)

/-- JAL (R399). -/
def execJal (d : BitVec 3) (o : BitVec 23) (s : State) : Out :=
  s.guard .scalar (.jal d o) fun s => .next ((s.setG d (s.me.pc + 4)).jump (relTarget s.me.pc o))

/-- JALR, the plain form (R400). -/
def execJalr (d a : BitVec 3) (s : State) : Out :=
  s.guard .scalar (.jalr d a) fun s =>
    let t := s.g a
    if t.toNat % 4 ≠ 0 then s.raise 8 t else .next ((s.setG d (s.me.pc + 4)).jump t)

/-- The spaces that `jalr.k` enters: 1 to 3 (R400), and on a service core its private store (R65). -/
def jumpSpace (c : CoreId) (space : Nat) : Bool := (decide (1 ≤ space) && decide (space ≤ 3)) || (isService c && space == 7)

/-- JALR.K (R400, R65). -/
def execJalrK (d : BitVec 3) (n : BitVec 2) (s : State) : Out :=
  s.guard .scalar (.jalrK d n) fun s =>
    let e := s.k n
    let info := State.capInfo e.cursor n.toNat
    if !e.tag then s.raise 4 info
    else if e.sealOf ≠ 1 ∨ !e.has Cap.permX then s.raise 5 info
    else if !jumpSpace s.cur.core e.space then s.raise 6 info
    else if (e.cursor : Int) < e.bounds.1 ∨ e.bounds.2 < (e.cursor + 4 : Nat) then s.raise 7 info
    else if e.cursor % 4 ≠ 0 then s.raise 8 (word e.cursor)
    else
      let c := s.me.code
      let ret := s.me.pc + 4
      let link := Cap.make 1 c.meter c.space c.perms c.top20 c.base20 c.e ret.toNat true
      let code := Cap.make 2 e.meter e.space e.perms e.top20 e.base20 e.e e.cursor true
      let s := ((s.setK n link).setG d ret).modMe fun f => { f with code := code, fbuf := none }
      .next (s.jump (word e.cursor))

end Sys2Proof.Machine
end

