-- ==== Sys2Proof/Machine/Xlate.lean ====
section
/-! DEFINITION. Reads and writes of the physical pieces of a span, in one cycle (08 R223; 05 R153). -/

namespace Sys2Proof.Machine

namespace State

/-- Read the bytes of physical pieces, and the first error they hold (true for poison). -/
def readPieces (s : State) (ps : List (Nat × Nat)) : List Byte × Option Bool :=
  (ps.flatMap fun p => s.readBytes p.1 p.2, (ps.filterMap fun p => s.readError p.1 p.2).head?)

/-- Write bytes to physical pieces, in one cycle. -/
def writePieces : List (Nat × Nat) → List Byte → State → State
  | [], _, s => s
  | (pa, n) :: l, bs, s => writePieces l (bs.drop n) (s.writeBytes pa (bs.take n))

/-- Perform an operation at a physical address, or a block's read or write on its pieces, in one cycle (R223). -/
def performPieces (s : State) (op : AccOp) (pa n : Nat) (ps : List (Nat × Nat)) : Done :=
  match op with
  | .laneWrite _ bs =>
    if ps.isEmpty then s.perform op pa n
    else { s := writePieces ps bs s, bytes := [], tag := false, err := none, ue := ps.any fun p => s.writeMeetsError p.1 p.2 }
  | _ =>
    if ps.isEmpty then s.perform op pa n
    else
      let r := s.readPieces ps
      { s, bytes := r.1, tag := false, err := r.2, ue := false }

/-- Poison physical pieces (R153). -/
def poisonPieces (s : State) (ps : List (Nat × Nat)) : State := ps.foldl (fun s p => s.poisonAt p.1 p.2) s

end State

end Sys2Proof.Machine
end

