-- ==== Sys2Proof/Machine/Move.lean ====
section
/-! DEFINITION. Tile moves (19 R475 to R477; 05 R148 to R153; 06 R174): the instructions, the geometry of a
move's units, and its progress unit by unit. The units of a move go one after another, in row order (log 5). -/

namespace Sys2Proof.Machine

/-- Fields of a geometry register (R148). -/
def geomForm (g : Word) : Nat := field g 63 62
def geomRows (g : Word) : Nat := field g 59 48
def geomLen (g : Word) : Nat := field g 47 32
def geomSstr (g : Word) : Nat := field g 31 16 * 32
def geomDstr (g : Word) : Nat := field g 15 0 * 32

/-- The bytes of a block of a form (R148). -/
def blkBytes (form : Nat) : Nat := if form = 1 then 1056 else if form = 2 then 544 else 1

/-- The source and the destination span of a move (R149). -/
def srcSpan (trans : Bool) (g : Word) : Nat :=
  let _ := trans
  (geomRows g - 1) * geomSstr g + geomLen g * blkBytes (geomForm g)
def dstSpan (trans : Bool) (g : Word) : Nat :=
  if trans then (geomLen g - 1) * geomDstr g + geomRows g * blkBytes (geomForm g)
  else (geomRows g - 1) * geomDstr g + geomLen g * blkBytes (geomForm g)

/-- The positions of a move: bytes for BYTE, blocks for the SQ forms. -/
def movePositions (g : Word) : Nat := geomRows g * geomLen g

/-- The unit at a position: source address, destination address, bytes, positions (R151). -/
def moveUnit (trans : Bool) (g : Word) (sa da p : Nat) : Nat × Nat × Nat × Nat :=
  let i := p / geomLen g
  let j := p % geomLen g
  let blk := blkBytes (geomForm g)
  let s := sa + i * geomSstr g + j * blk
  let d := if trans then da + j * geomDstr g + i * blk else da + i * geomDstr g + j * blk
  if geomForm g = 0 then
    let n := min (geomLen g - j) (min (64 - s % 64) (64 - d % 64))
    (s, d, n, n)
  else (s, d, blk, 1)

/-- Element (i, j) of a payload of 8-bit or 4-bit elements (R174). -/
def payloadElem (four : Bool) (bs : List Byte) (i j : Nat) : Nat :=
  let n := 32 * i + j
  if four then
    let b := (lget 0 bs (n / 2)).toNat
    if n % 2 = 0 then b % 16 else b / 16
  else (lget 0 bs n).toNat

/-- The payload with rows and columns exchanged (R151). -/
def transposePayload (four : Bool) (bs : List Byte) : List Byte :=
  if four then
    (List.range 512).map fun m =>
      let at' (n : Nat) : Nat := payloadElem true bs (n % 32) (n / 32)
      BitVec.ofNat 8 (at' (2 * m) + 16 * at' (2 * m + 1))
  else (List.range 1024).map fun n => BitVec.ofNat 8 (payloadElem false bs (n % 32) (n / 32))

/-- The block whose format byte names a format of the form: SQ8 or SQ4 (R151, R174). -/
def formOk (form : Nat) (bs : List Byte) : Bool :=
  let t := (lget 0 bs 17).toNat
  if form = 1 then t == 1 || t == 2 || t == 4 else t == 3 || t == 5

/-- Transpose of R151. -/
def transposeBlock (form : Nat) (bs : List Byte) : List Byte :=
  slice bs 0 1 ++ slice bs 9 8 ++ slice bs 1 8 ++ slice bs 17 3 ++ List.replicate 12 0
    ++ transposePayload (form == 2) (bs.drop 32)

/-- The NaN tile that TLDT writes for a mismatch (R151). -/
def nanBlock (form : Nat) (bs : List Byte) : List Byte :=
  255 :: (List.replicate 16 0 ++ slice bs 17 3 ++ List.replicate 12 0 ++ List.replicate (blkBytes form - 32) 0)

/-- What a move writes for a unit that it has read (R151). -/
def moveData (trans : Bool) (g : Word) (bs : List Byte) : List Byte :=
  if !trans then bs
  else if formOk (geomForm g) bs then transposeBlock (geomForm g) bs else nanBlock (geomForm g) bs

namespace State

def move (s : State) (id : Nat) : Option Move := tfind s.moves id
def setMove (s : State) (id : Nat) (m : Move) : State := { s with moves := tset s.moves id m }

/-- Launch one access of a move, for the partition that issued it: with the register of its capability (R144), and the bytes of a
unit that met an error when they were read (R153). -/
def launchMove (s : State) (m : Move) (op : AccOp) (c : Cap) (kn a n : Nat) (holes : List Nat) : State :=
  match s.homeIn m.part m.who.core c.space a with
  | some h =>
    let (id, t) := s.launch m.who op c a n h false
    t.modAccess id fun x => { x with part := m.part, kn, holes, atRoot := m.atRoot }
  | none => s

/-- Launch the read of a move's next unit, or complete it (R151). -/
def moveNext (s : State) (id : Nat) (m : Move) : State :=
  if m.next < movePositions m.geom then
    let (a, _, n, _) := moveUnit m.trans m.geom m.sa m.da m.next
    s.launchMove m (.moveRead id m.next) m.src m.sk a n []
  else s.schedOnce s.clock (.moveCompletion id)

/-- A move enters its core's queue: its issue (R231). -/
def moveIssue (s : State) (id : Nat) (m : Move) : State :=
  let m := { m with checking := false }
  let s := s.setMove id m
  (s.modCore m.who.core fun c => { c with moves := c.moves ++ [id] }).moveNext id m

/-- The fibre goes on once its move is in the queue; while the queue is full it parks with reason ENG (R150). -/
def moveEnter (s : State) (id : Nat) (m : Move) : State :=
  if 32 ≤ (s.core m.who.core).moves.length then
    ((s.setMove id { m with checking := true }).parkF m.who 11 (.move id)).abandonPending m.who
  else (s.moveIssue id m).complete m.who

/-- A span that is checked or translated before the move is posted (R150). -/
def checkedSpace (n : Nat) : Bool := decide (3 ≤ n ∧ n ≤ 6)

/-- The destination's pages are checked next, or the move enters the queue. -/
def moveChecked (s : State) (id : Nat) (m : Move) (dst : Bool) : State :=
  if !dst ∧ checkedSpace m.dst.space then s.launchMove m (.moveCheck id true) m.dst m.dk m.da (dstSpan m.trans m.geom) []
  else s.moveEnter id m

/-- The checks of a move begin: the source span, then the destination span. -/
def moveBegin (s : State) (id : Nat) (m : Move) : State :=
  let s := s.setMove id m
  if checkedSpace m.src.space then
    (s.launchMove m (.moveCheck id false) m.src m.sk m.sa (srcSpan m.trans m.geom) []).parkF m.who 1 (.move id)
  else if checkedSpace m.dst.space then
    (s.launchMove m (.moveCheck id true) m.dst m.dk m.da (dstSpan m.trans m.geom) []).parkF m.who 1 (.move id)
  else s.moveEnter id m

/-- A tile move from its checks to its queue (R476); a capability's fault reports the lowest failing byte of its span (R267). -/
def tileMove (s : State) (ks kd : BitVec 2) (b : BitVec 3) (geom sem : BitVec 6) (trans sq : Bool) : Out :=
  let g := tget 0 (s.core s.cur.core).geom geom.toNat
  let form := geomForm g
  let c := s.k ks
  let d := s.k kd
  let sa := halfAddr c (s.g b) false
  let da := halfAddr d (s.g b) true
  let m : Move := { who := s.cur, part := s.myPart, trans, src := c, dst := d, sa, da, geom := g, sem := sem.toNat,
                    atRoot := s.me.pl == 3, checking := true, checks := 0, xs := [], next := 0,
                    left := movePositions g, lostUnit := false, wait := 0, sk := ks.toNat, dk := kd.toNat }
  if form = 3 ∨ geomRows g = 0 ∨ geomLen g = 0 ∨ (trans ∧ form = 0) ∨ (!trans ∧ sq ≠ (form ≠ 0)) then s.raise 1 g
  else match s.checkSpanAt s.cur.core m.atRoot c sa (srcSpan trans g) pR false true with
    | .error (e, x) => s.raise e (capInfo x ks.toNat)
    | .ok _ =>
      match s.checkSpanAt s.cur.core m.atRoot d da (dstSpan trans g) pW true true with
      | .error (e, x) => s.raise e (capInfo x kd.toNat)
      | .ok _ =>
        if c.space = 8 then s.raise 8 (word sa)
        else if d.space = 8 then s.raise 8 (word da)
        else if form ≠ 0 ∧ sa % 32 ≠ 0 then s.raise 8 (word sa)
        else if form ≠ 0 ∧ da % 32 ≠ 0 then s.raise 8 (word da)
        else if c.meter ≠ d.meter then s.raise 5 (capInfo sa ks.toNat)
        else if c.meter ≠ 0 ∧ !s.meterOpen c.meter then s.raise 0x19 (word c.meter)
        else
          let (id, t) := s.newId
          .next (t.moveBegin id m)

end State

/-- TMOV (R476). -/
def execTmov (z d : BitVec 2) (b : BitVec 3) (g e : BitVec 6) (s : State) : Out :=
  s.guard .link (.tmov z d b g e) fun s => s.tileMove z d b g e false false

/-- TMOV.SQ (R476). -/
def execTmovSq (z d : BitVec 2) (b : BitVec 3) (g e : BitVec 6) (s : State) : Out :=
  s.guard .link (.tmovSq z d b g e) fun s => s.tileMove z d b g e false true

/-- TLDT (R476). -/
def execTldt (z d : BitVec 2) (b : BitVec 3) (g e : BitVec 6) (s : State) : Out :=
  s.guard .link (.tldt z d b g e) fun s => s.tileMove z d b g e true true

end Sys2Proof.Machine
end

