-- ==== Sys2Proof/Machine/Sync.lean ====
section
/-! DEFINITION. Semaphores and named barriers (09 R242 to R252). -/

namespace Sys2Proof.Machine

/-- PART of a fibre's semaphores: those of its tile, or the service core's own (R251). -/
def semGet (sems : List (Nat × (Nat × Bool))) (n : Nat) : Nat × Bool := tget (0, false) sems n

namespace State

/-- A semaphore of a core: COUNT and OVF (R251). -/
def sem (s : State) (c : CoreId) (n : Nat) : Nat × Bool :=
  if isService c then semGet (s.core c).sems n else semGet (s.tile (coreTile c)).sems n

def setSem (s : State) (c : CoreId) (n : Nat) (v : Nat × Bool) : State :=
  if isService c then s.modCore c fun x => { x with sems := tset x.sems n v }
  else s.modTile (coreTile c) fun t => { t with sems := tset t.sems n v }

/-- The fibres that wait on a semaphore, in the order in which they parked (R252). -/
def semWaiters (s : State) (c : CoreId) : List (Nat × FibreRef) :=
  if isService c then (s.core c).semWait else (s.tile (coreTile c)).semWait

def setSemWaiters (s : State) (c : CoreId) (l : List (Nat × FibreRef)) : State :=
  if isService c then s.modCore c fun x => { x with semWait := l }
  else s.modTile (coreTile c) fun t => { t with semWait := l }

/-- A parked SEMP takes its unit (R252). -/
def semWake (s : State) (f : FibreRef) : State :=
  match (s.fib f).cont with
  | .sem d _ => (s.setGOf f d 0).complete f
  | _ => s

/-- Waiters take units while there are any, in the order in which they parked (R252 step 3). -/
def semServe (c : CoreId) (n : Nat) : List (Nat × FibreRef) → State → State
  | [], s => s
  | (m, f) :: l, s =>
    let (k, o) := s.sem c n
    if m = n ∧ 0 < k then
      semServe c n l (((s.setSem c n (k - 1, o)).setSemWaiters c ((s.semWaiters c).filter fun w => w.2 != f)).semWake f)
    else semServe c n l s

/-- The name of a core's semaphore: that of its tile's link core, or of the service core (R251). -/
def semName (c : CoreId) (n : Nat) : CoreId × Nat := (if isService c then c else ⟨c.die, c.tile, 0⟩, n)

/-- A semaphore as it stood at the start of this cycle, which an SRD reads (R252). -/
def semStart (s : State) (c : CoreId) (n : Nat) : Nat × Bool := (tfind s.semOld (semName c n)).getD (s.sem c n)

/-- A semaphore changes in steps 1 or 2 of a cycle; its waiters are served after them (R252). -/
def semChange (s : State) (c : CoreId) (n : Nat) (v : Nat × Bool) : State :=
  let k := semName c n
  let s := { s with
    semOld := if (tfind s.semOld k).isSome then s.semOld else s.semOld ++ [(k, s.sem c n)]
    semWork := if s.semWork.contains k then s.semWork else s.semWork ++ [k] }
  s.setSem c n v

/-- One increment of a semaphore (R252 step 1), an event for WFE (R499). -/
def semInc (s : State) (c : CoreId) (n : Nat) : State :=
  let (k, o) := s.sem c n
  let s := s.semChange c n (if k = 65535 then (k, true) else (k + 1, o))
  s.latch evSem fun f => if (isService c) then f.core == c else !isService f.core && coreTile f.core == coreTile c

/-- An SWR of a semaphore (R251, R252 step 2). -/
def semWrite (s : State) (c : CoreId) (n : Nat) (v : Word) : State :=
  s.semChange c n (field v 15 0, (s.sem c n).2 && !bitN v.toNat 16)

/-- Step 3 of R252 at every semaphore that changed in this cycle. -/
def serveSems (s : State) : State :=
  s.semWork.foldl (fun s k => semServe k.1 k.2 (s.semWaiters k.1) s) { s with semWork := [] }

/-! ## Barriers -/

def bar (s : State) (c : CoreId) (n : Nat) : Barrier := tget {} (s.core c).bars n
def setBar (s : State) (c : CoreId) (n : Nat) (b : Barrier) : State :=
  s.modCore c fun x => { x with bars := tset x.bars n b }

/-- Member(n) of R244. -/
def barMember (s : State) (c : CoreId) (n : Nat) : Bool :=
  let b := s.bar c n
  !isService c && b.en && bitN b.kinds c.kind && scopeInside b.scope (coreTile c) && decide (s.partOf c < 48)

/-- The required cores of a configuration (R244). -/
def barRequired (s : State) (p : Nat) (v : Word) (kinds : Nat) : List CoreId :=
  (s.scopeTiles p v).flatMap fun n => ((List.range 3).filter fun k => bitN kinds k).map fun k => coreOf n k

/-- The members that hold a configuration of barrier n (R244). -/
def barHolders (s : State) (p n : Nat) (v : Word) (kinds : Nat) : List CoreId :=
  (s.barRequired p v kinds).filter fun c =>
    (s.bar c n).en && (s.bar c n).scope == v && (s.bar c n).kinds == kinds

/-- A core is a member of a tear of a configuration that is under way: it held the configuration when the tear began, or
holds it now (R249). -/
def barTornAt (s : State) (n : Nat) (v : Word) (kinds : Nat) (c : CoreId) : Bool :=
  (s.bar c n).torn.contains (v, kinds) || ((s.bar c n).en && (s.bar c n).scope == v && (s.bar c n).kinds == kinds)

/-- Every required core holds the configuration and ARR = COUNT; with `ahead`, also AHEAD = COUNT (R244). -/
def barFull (s : State) (p n : Nat) (v : Word) (kinds : Nat) (ahead : Bool) : Bool :=
  let r := s.barRequired p v kinds
  !r.isEmpty && r.all fun c =>
    let b := s.bar c n
    b.en && b.scope == v && b.kinds == kinds && b.arr == b.count && (!ahead || b.ahead == b.count)

/-- Schedule the completion of a phase whose last required arrival has just been recorded (R245). -/
def barCheck (s : State) (c : CoreId) (n : Nat) (ahead : Bool) : State :=
  let b := s.bar c n
  let p := s.partOf c
  if s.barFull p n b.scope b.kinds ahead then
    s.sched (s.clock + rectDelay (s.barrierRect p b.scope)) (.barrierComplete p n b.scope (BitVec.ofNat 3 b.kinds))
  else s

/-- Wake the fibres of a core that wait on barrier n for a phase that satisfies a condition (R245, R249, R250). -/
def barWake (s : State) (c : CoreId) (n status : Nat) (sel : Nat → Bool) : State :=
  (s.fibres.filter fun f => f.1.core == c).foldl (fun s f =>
    match f.2.cont with
    | .bar d tok m => if m = n ∧ sel tok then (s.setGOf f.1 d (word (status * 2 ^ 16 + tok))).complete f.1 else s
    | _ => s) s

/-- A phase completes at a core (R245). -/
def barComplete (s : State) (n : Nat) (c : CoreId) : State :=
  let b := s.bar c n
  let s := s.setBar c n { b with phase := (b.phase + 1) % 65536, arr := b.ahead, ahead := 0 }
  (s.barWake c n 0 (· == b.phase)).latch evBar fun f => f.core == c

/-- A barrier is torn at a core (R249). -/
def barTear (s : State) (n : Nat) (c : CoreId) : State :=
  let s := s.setBar c n { s.bar c n with phase := 0, arr := 0, ahead := 0 }
  (s.barWake c n 2 fun _ => true).latch evBar fun f => f.core == c

/-- A fibre of a core waits on barrier n. -/
def barWaited (s : State) (c : CoreId) (n : Nat) : Bool :=
  s.fibres.any fun f => f.1.core == c && (match f.2.cont with | .bar _ _ m => m == n | _ => false)

/-- The completions of barrier n of a partition at cores some of which are torn: those that fall in or before this cycle stand, and the
later ones do not happen, for the tear clears the arrivals that they rest on (R249, R250). -/
def finishBarrier (s : State) (p n : Nat) (members : List CoreId) : State :=
  let hit (x : Nat × Instr) : Bool :=
    match x.2 with
    | .barrierComplete q m w k => q == p && m == n && (s.barRequired p w k.toNat).any members.contains
    | _ => false
  let due := s.agenda.filter fun x => hit x && decide (x.1 ≤ s.clock)
  due.foldl (fun s x => match x.2 with
    | .barrierComplete _ _ w k => (s.barRequired p w k.toNat).foldl (fun s c => s.barComplete n c) s
    | _ => s) { s with agenda := s.agenda.filter fun x => !hit x }

/-- A write to BMEMn or BSCOPEn of a core takes effect; at a member it may tear the barrier, at every member of the old
configuration (R243, R249). -/
def barWrite (s : State) (c : CoreId) (n : Nat) (b' : Barrier) : State :=
  let b := s.bar c n
  let p := s.partOf c
  let changed := b.en != b'.en || b.count != b'.count || b.kinds != b'.kinds || b.scope != b'.scope
  let busy := (s.barHolders p n b.scope b.kinds).any fun m =>
    let x := s.bar m n
    decide (0 < x.arr) || decide (0 < x.ahead) || s.barWaited m n
  let t := s.setBar c n b'
  if s.barMember c n ∧ changed ∧ busy then
    ((s.barHolders p n b.scope b.kinds).foldl (fun t m => t.setBar m n { t.bar m n with torn := (b.scope, b.kinds) :: (t.bar m n).torn }) t).sched
      (s.clock + rectDelay (s.barrierRect p b.scope)) (.barrierTear p n b.scope (BitVec.ofNat 3 b.kinds))
  else t

end State

/-! ## The instructions -/

/-- SEMV (R252). -/
def execSemv (n : BitVec 6) (s : State) : Out :=
  s.guard .scalar (.semv n) fun s => .next ((s.semInc s.cur.core n.toNat).retire 1)

/-- SEMP (R252). -/
def execSemp (d : BitVec 3) (n : BitVec 6) (s : State) : Out :=
  s.guard .scalar (.semp d n) fun s =>
    let c := s.cur.core
    let (k, o) := s.sem c n.toNat
    if 0 < k then .next (((s.setSem c n.toNat (k - 1, o)).setG d 0).retire 1)
    else .next ((s.setSemWaiters c (s.semWaiters c ++ [(n.toNat, s.cur)])).parkMe 5 (.sem d n.toNat))

/-- SEMP.TRY (R252). -/
def execSempTry (d : BitVec 3) (n : BitVec 6) (s : State) : Out :=
  s.guard .scalar (.sempTry d n) fun s =>
    let c := s.cur.core
    let (k, o) := s.sem c n.toNat
    if 0 < k then .next (((s.setSem c n.toNat (k - 1, o)).setG d 0).retire 1)
    else .next ((s.setG d 1).retire 1)

/-- BARA (R247). -/
def execBara (d : BitVec 3) (n : BitVec 7) (s : State) : Out :=
  s.guard .scalar (.bara d n) fun s =>
    let c := s.cur.core
    let m := n.toNat
    let b := s.bar c m
    if !s.barMember c m then .next ((s.setG d (word (2 ^ 16))).retire 1)
    else if b.arr < b.count then
      .next ((((s.setBar c m { b with arr := b.arr + 1 }).barCheck c m false).setG d (word b.phase)).retire 1)
    else if b.ahead < b.count then
      .next ((((s.setBar c m { b with ahead := b.ahead + 1 }).barCheck c m true).setG d
        (word ((b.phase + 1) % 65536))).retire 1)
    else .next ((s.setG d (word (4 * 2 ^ 16 + (b.phase + 1) % 65536))).retire 1)

/-- BARW (R248). -/
def execBarw (d a : BitVec 3) (n : BitVec 7) (s : State) : Out :=
  s.guard .scalar (.barw d a n) fun s =>
    let c := s.cur.core
    let m := n.toNat
    let tok := field (s.g a) 15 0
    let dist := ((s.bar c m).phase + 65536 - tok) % 65536
    if (s.g a).toNat / 65536 ≠ 0 then s.raise 1 (s.g a)
    else if !s.barMember c m then .next ((s.setG d (word (2 ^ 16))).retire 1)
    else if 1 ≤ dist ∧ dist ≤ 32768 then .next ((s.setG d (word tok)).retire 1)
    else .next (s.parkMe 4 (.bar d tok m))

/-! ## The events -/

/-- BARRIER_COMPLETE (R245): every required core held the configuration at the last arrival, and one that has been rewritten since
completes too (R249). -/
def execBarrierComplete (p n : Nat) (scope : BitVec 64) (kinds : BitVec 3) (s : State) : Out :=
  .next ((s.barRequired p scope kinds.toNat).foldl (fun s c => s.barComplete n c) s)

/-- BARRIER_TEAR (R249): at every member of the old configuration, the core that was rewritten among them. A completion of
this cycle or before stands; one that would fall later does not happen. -/
def execBarrierTear (p n : Nat) (scope : BitVec 64) (kinds : BitVec 3) (s : State) : Out :=
  let members := (s.barRequired p scope kinds.toNat).filter (s.barTornAt n scope kinds.toNat)
  .next (members.foldl (fun s c =>
    let s := s.barTear n c
    s.setBar c n { s.bar c n with torn := (s.bar c n).torn.erase (scope, kinds.toNat) }) (s.finishBarrier p n members))

end Sys2Proof.Machine
end

