-- ==== Sys2Proof/Machine/Fib.lean ====
section
/-! DEFINITION. The fibre group (17 R395 to R397; 03 R74, R76, R77; 20 R503). -/

namespace Sys2Proof.Machine

namespace State

/-- The lowest free slot of a pool of n slots from lo (R74). -/
def freeSlot (s : State) (c : CoreId) (lo n : Nat) : Option Nat :=
  ((List.range n).find? fun i => (s.fib ⟨c, lo + i⟩).status == .free).map (lo + ·)

/-- The executing fibre's task counts one fibre more (R110). -/
def addTaskFibre (s : State) (x : Fibre) : State :=
  if x.inTask then
    s.modDie x.tdie fun d => { d with tasks := tmod {} d.tasks x.taskix fun t => { t with fibres := t.fibres + 1 } }
  else s

/-- The child of FSPAWN (R76). -/
def child (s : State) (a b : Word) : Fibre :=
  let x := s.me
  { status := .ready, readyFrom := s.clock + 1, pc := b, g := [a, word (fibreId s.cur), 0, 0, 0, 0, 0, 0],
    k := x.k, code := x.code, tdie := x.tdie, taskix := x.taskix, pl := x.pl, inTask := x.inTask, taskseq := x.taskseq }

end State

/-- FSPAWN (R397, R76). -/
def execFspawn (d a b : BitVec 3) (s : State) : Out :=
  s.guard .scalar (.fspawn d a b) fun s =>
    if (s.g b).toNat % 4 ≠ 0 then s.raise 8 (s.g b)
    else match s.freeSlot s.cur.core 0 224 with
      | none => s.raise 0x17 0
      | some n =>
        let f : FibreRef := ⟨s.cur.core, n⟩
        let t := (s.setFib f (s.child (s.g a) (s.g b))).addTaskFibre s.me
        .next ((t.setG d (word (fibreId f))).retire 1)

/-- FEXIT (R77, R395). -/
def execFexit (s : State) : Out :=
  s.guard .scalar .fexit fun s => .next (s.beginExit s.cur)

/-- YIELD (R503): not eligible in the cycle after issue. -/
def execYield (s : State) : Out :=
  s.guard .scalar .yield fun s => .next ((s.retire 1).modMe fun f => { f with readyFrom := s.clock + 2 })

/-- FID (R396). -/
def execFid (d : BitVec 3) (s : State) : Out :=
  s.guard .scalar (.fid d) fun s => .next ((s.setG d (word (fibreId s.cur))).retire 1)

end Sys2Proof.Machine
end

