-- ==== Sys2Proof/Machine/Msg.lean ====
section
/-! DEFINITION. The message group (18 R446 to R448; 19 R459 to R462; 03 R78 to R81). An entry of the send queue
is named by its message; while its payload is read it is named by its fibre. -/

namespace Sys2Proof.Machine

/-- The name of the send-queue entry that a fibre holds before its message exists. -/
def pendingEntry (f : FibreRef) : Nat := 2 ^ 40 + f.slot

/-- SEND carries a reply reservation, SENDC none (R461). -/
def reserves : Instr → Bool
  | .send _ _ => true
  | .sendMem _ _ _ _ => true
  | _ => false

/-- The `.rel` of SEND (R460). -/
def sendRel : Instr → Bool
  | .send _ r => r == 1#1
  | .sendMem _ _ _ r => r == 1#1
  | _ => false

/-- The register that holds the destination word or the handler address. -/
def msgReg : Instr → BitVec 3
  | .send a _ => a
  | .sendMem a _ _ _ => a
  | .sendc a => a
  | .sendcMem a _ _ => a
  | .reply a => a
  | .replyMem a _ _ => a
  | _ => 0

/-- The six payload words of 48 bytes (R446). -/
def payloadOf (bs : List Byte) : List Word := (List.range 6).map fun i => word (sliceNat bs (8 * i) 8)

namespace State

/-- The payload that lies in g0 to g5 (R446). -/
def regPayload (s : State) : List Byte := (List.range 6).flatMap fun i => leBytes 8 (s.gN i).toNat

/-- The core that a destination word names (R459, R461); none where it is refused. -/
def sendTarget (s : State) (c : CoreId) (v : Word) : Option CoreId :=
  if field v 63 46 ≠ 0 ∨ field v 45 44 = 3 ∨ field v 1 0 ≠ 0 then none
  else (s.logicalTile (s.partOf c) c (field v 43 32)).map fun n => coreOf n (field v 45 44)

/-- The message of a SEND or SENDC enters the send queue and leaves (R236, R461). -/
def sendNow (s : State) (f : FibreRef) (i : Instr) (bs : List Byte) : State :=
  let v := lget 0 (s.fib f).g (msgReg i).toNat
  let (id, s) := s.newId
  let s := s.modCore f.core fun c => { c with sends := tdel c.sends (pendingEntry f) ++ [(id, reserves i)] }
  match s.sendTarget f.core v with
  | none => s
  | some dst =>
    let m : Message := { src := f, srcPart := s.partOf f.core, dst, handler := word (field v 31 0),
                         words := payloadOf bs, reply := false, reserved := reserves i, entry := id }
    { s with messages := s.messages ++ [(id, m)] }.inject (coreNode f.core)
      { reply := false, part := m.srcPart, dst := coreNode dst, ev := some (.messageArrival id), since := s.clock + 1 }

/-- A SEND with its payload in hand: the release of `.rel`, then the message (R461). -/
def sendPayload (s : State) (f : FibreRef) (i : Instr) (bs : List Byte) : State :=
  if sendRel i ∧ !s.releaseDone f scopeWhole then s.parkF f 2 (.release i bs)
  else (s.sendNow f i bs).complete f

/-- The message of a REPLY leaves through the reserved reply entry (R447). -/
def replyNow (s : State) (f : FibreRef) (i : Instr) (bs : List Byte) : State :=
  let x := s.fib f
  let h := lget 0 x.g (msgReg i).toNat
  let s := (s.modFib f fun x => { x with rpl := false, replyTo := none }).complete f
  match x.replyTo with
  | none => s
  | some (dst, entry) =>
    let (id, s) := s.newId
    let m : Message := { src := f, srcPart := s.partOf f.core, dst, handler := h, words := payloadOf bs,
                         reply := true, reserved := false, entry }
    { s with messages := s.messages ++ [(id, m)] }.inject (coreNode f.core)
      { reply := true, part := m.srcPart, dst := coreNode dst, ev := some (.messageArrival id), since := s.clock + 1 }

/-- The checks and the reservation of SEND and SENDC, then their payload (R461). -/
def sendCommon (s : State) (i : Instr) (k : State → Out) : Out :=
  let c := s.core s.cur.core
  if isService s.cur.core then s.illegal i
  else if (s.sendTarget s.cur.core (s.g (msgReg i))).isNone then s.raise 1 (s.g (msgReg i))
  else if 16 ≤ c.sends.length then s.raise 0x0C 0
  else k s

/-- Reserve the send-queue entry of the executing fibre (R461). -/
def reserveSend (s : State) (i : Instr) : State :=
  s.modCore s.cur.core fun c => { c with sends := tset c.sends (pendingEntry s.cur) (reserves i) }

/-- The payload read of the memory forms (R446): a fault traps with nothing reserved and nothing sent. -/
def msgRead (s : State) (i : Instr) (b : BitVec 3) (kb : BitVec 2) (park : State → State)
    (k : State → List Byte → Out) : Out :=
  let c := s.k kb
  let a := wrap 64 ((c.cursor : Int) + (s.g b).toNat)
  match s.checkBlock c a 48 pR false with
  | .error (e, x) => s.raise e (capInfo x kb.toNat)
  | .ok h =>
    if a % 8 ≠ 0 then s.raise 8 (word a)
    else match h with
      | .reg _ _ _ => s.raise 8 (word a)
      | _ => (match s.readBlock c kb.toNat a 48 i k with
        | .next t => .next (if t.me.status = .parked ∧ t.me.park = 1 then park t else t)
        | o => o)

end State

/-- SEND (R461). -/
def execSend (a : BitVec 3) (r : BitVec 1) (s : State) : Out :=
  s.guard .scalar (.send a r) fun s => s.sendCommon (.send a r) fun s =>
    .next ((s.reserveSend (.send a r)).sendPayload s.cur (.send a r) s.regPayload)

/-- SEND with its payload in memory (R461). -/
def execSendMem (a b : BitVec 3) (k : BitVec 2) (r : BitVec 1) (s : State) : Out :=
  s.guard .scalar (.sendMem a b k r) fun s => s.sendCommon (.sendMem a b k r) fun s =>
    s.msgRead (.sendMem a b k r) b k (fun t => t.reserveSend (.sendMem a b k r)) fun t bs =>
      .next ((t.reserveSend (.sendMem a b k r)).sendPayload s.cur (.sendMem a b k r) bs)

/-- SENDC (R461). -/
def execSendc (a : BitVec 3) (s : State) : Out :=
  s.guard .scalar (.sendc a) fun s => s.sendCommon (.sendc a) fun s =>
    .next ((s.reserveSend (.sendc a)).sendPayload s.cur (.sendc a) s.regPayload)

/-- SENDC with its payload in memory (R461). -/
def execSendcMem (a b : BitVec 3) (k : BitVec 2) (s : State) : Out :=
  s.guard .scalar (.sendcMem a b k) fun s => s.sendCommon (.sendcMem a b k) fun s =>
    s.msgRead (.sendcMem a b k) b k (fun t => t.reserveSend (.sendcMem a b k)) fun t bs =>
      .next ((t.reserveSend (.sendcMem a b k)).sendPayload s.cur (.sendcMem a b k) bs)

/-- REPLY (R447). -/
def execReply (a : BitVec 3) (s : State) : Out :=
  s.guard .scalar (.reply a) fun s =>
    if !s.me.rpl then s.illegal (.reply a) else .next (s.replyNow s.cur (.reply a) s.regPayload)

/-- REPLY with its payload in memory (R447). -/
def execReplyMem (a b : BitVec 3) (k : BitVec 2) (s : State) : Out :=
  s.guard .scalar (.replyMem a b k) fun s =>
    if !s.me.rpl then s.illegal (.replyMem a b k)
    else s.msgRead (.replyMem a b k) b k id fun t bs => .next (t.replyNow s.cur (.replyMem a b k) bs)

/-! ## The messages at their receiver and at their sender -/

namespace State

/-- The check of R78. -/
def handlerOk (s : State) (c : CoreId) (h : Word) : Bool :=
  let x := s.core c
  let b := x.mhcap.bounds
  decide (x.mhlo.toNat ≤ h.toNat) && decide (h.toNat ≤ x.mhhi.toNat) && h.toNat % 4 == 0 && x.mhcap.tag &&
    decide (b.1 ≤ h.toNat) && decide (((h.toNat + 4 : Nat) : Int) ≤ b.2)

/-- Free a send-queue entry with its reservation (R462). -/
def freeSend (s : State) (c : CoreId) (entry : Nat) : State :=
  s.modCore c fun x => { x with sends := tdel x.sends entry }

/-- The sender learns of a refusal: a NACK over the reply network (R80). -/
def sendNack (s : State) (id : Nat) (m : Message) : State :=
  s.sendEv (coreNode m.dst) (coreNode m.src.core) true m.srcPart (.nack id)

/-- The dispatched task that holds a core (R79, R103). -/
def taskHolding (s : State) (c : CoreId) : Option (Nat × Nat × Task) :=
  ((s.die c.die).tasks.find? fun t : Nat × Task =>
    t.2.state == .running && t.2.tiles.contains (coreTile c) && bitN t.2.kinds c.kind
      && !t.2.pendCores.contains c && !t.2.going.contains c).map fun t => (c.die, t.1, t.2)

/-- A message at its acceptance: it takes the identity of the task whose dispatched fibres hold the core now (R79). -/
def acceptMessage (s : State) (m : Message) : Message :=
  match s.taskHolding m.dst with
  | some (d, ix, t) => { m with tdie := d, taskix := ix, taskseq := word (t.seq * 2 ^ 32 + t.ord) }
  | none => { m with tdie := m.dst.die, taskix := 0, taskseq := 0 }

/-- The fibre that an accepted message creates (R79). -/
def handlerFibre (s : State) (c : CoreId) (m : Message) : Fibre :=
  let g7 := 6 + b2n m.reply * 16 + b2n m.reserved * 32
  { status := .ready, readyFrom := s.clock + 1, pc := m.handler,
    g := m.words ++ [word (fibreId m.src), word g7], code := (s.core c).mhcap, tdie := m.tdie, taskix := m.taskix,
    msg := true, rpl := m.reserved, taskseq := m.taskseq, request := !m.reply,
    replyTo := if m.reserved then some (m.src.core, m.entry) else none }

/-- The message fibres of a core that serve the request network (R81). -/
def requestHandlers (s : State) (c : CoreId) : Nat :=
  (s.fibres.filter fun f => f.1.core == c && f.2.status != .free && f.2.request && decide (224 ≤ f.1.slot)
    && decide (f.1.slot < 240)).length

end State

/-- MESSAGE_ARRIVAL (R78 to R81): the check, then an entry of the receive queue. A request that finds the
request share full stays upstream; a reply finds its reserved entry. A reply whose entry is gone, since the requester's core has been
reset or its partition's function has, is dropped and counted (R448). -/
def execMessageArrival (id : Nat) (s : State) : Out :=
  match tfind s.messages id with
  | none => .next s
  | some m =>
    let c := s.core m.dst
    if m.reply ∧ (tfind c.sends m.entry).isNone then
      .next ({ s with messages := tdel s.messages id }.modCore m.dst fun c => { c with dropped := c.dropped + 1 })
    else if !s.handlerOk m.dst m.handler then
      let s := s.modCore m.dst fun c => { c with dropped := c.dropped + 1 }
      let s := s.report m.dst.die (s.partOf m.dst) { kind := 1, cause := 0x0D, fibre := fibreId m.src, addr := m.handler, einfo := 0 }
      let s := if m.reply then s.freeSend m.dst m.entry else s
      .next (s.sendNack id m)
    else if !m.reply ∧ 16 ≤ c.recvReq.length then .next (s.sched (s.clock + 1) (.messageArrival id))
    else
      let m := s.acceptMessage m
      let s := { s with messages := tdel s.messages id }
      let s := if m.reply then s.freeSend m.dst m.entry
        else if m.reserved then s else s.freeSend m.src.core m.entry
      let s := s.modCore m.dst fun c =>
        if m.reply then { c with recvRep := c.recvRep ++ [m] } else { c with recvReq := c.recvReq ++ [m] }
      .next ((s.latch State.evMsg fun f => f.core == m.dst).schedOnce s.clock (.handlerStart m.dst m.reply))

/-- HANDLER_START (R74, R79, R81): the oldest message of a network starts its handler when a slot is free;
request handlers hold at most 12. -/
def execHandlerStart (c : CoreId) (reply : Bool) (s : State) : Out :=
  let x := s.core c
  match (if reply then x.recvRep else x.recvReq), s.freeSlot c 224 16 with
  | m :: rest, some n =>
    if !reply ∧ 12 ≤ s.requestHandlers c then .next s
    else
      let s := s.modCore c fun x => if reply then { x with recvRep := rest } else { x with recvReq := rest }
      let s := s.setFib ⟨c, n⟩ (s.handlerFibre c m)
      .next (if rest.isEmpty then s else s.schedOnce s.clock (.handlerStart c reply))
  | _, _ => .next s

/-- NACK (R80, R462): the sender's entry and reservation are released, and SQSTAT.NACK is set. -/
def execNack (id : Nat) (s : State) : Out :=
  match tfind s.messages id with
  | none => .next s
  | some m =>
    let c := m.src.core
    let s := { s with messages := tdel s.messages id }
    let s := if m.reply then s else s.freeSend c m.entry
    .next ((s.modCore c fun x => { x with nack := true }).latch State.evMsg fun f => f.core == c)

/-- EMPTY_REPLY (R77, R462): the sender's entry and reservation are released; no fibre is created. -/
def execEmptyReply (id : Nat) (s : State) : Out :=
  match tfind s.messages id with
  | none => .next s
  | some m => .next ({ s with messages := tdel s.messages id }.freeSend m.dst m.entry)

end Sys2Proof.Machine
end

