-- ==== Sys2Proof/Machine/Crypto.lean ====
section
/-! DEFINITION. The root core's cryptography: SHA-256 with the state records of R464, HMAC and HKDF-Expand
(12 R315), RSASSA-PSS with MGF1 over SHA-256 and a 32-byte salt (18 R437, R438), and AES-256 with CTR_DRBG (18 R450), as
FIPS 180-4, RFC 8017, FIPS 197 and SP 800-90A define them. -/

namespace Sys2Proof.Machine

abbrev W32 := BitVec 32

/-- The round constants of SHA-256. -/
def shaK : List W32 :=
  [0x428a2f98, 0x71374491, 0xb5c0fbcf, 0xe9b5dba5, 0x3956c25b, 0x59f111f1, 0x923f82a4, 0xab1c5ed5] ++
  [0xd807aa98, 0x12835b01, 0x243185be, 0x550c7dc3, 0x72be5d74, 0x80deb1fe, 0x9bdc06a7, 0xc19bf174] ++
  [0xe49b69c1, 0xefbe4786, 0x0fc19dc6, 0x240ca1cc, 0x2de92c6f, 0x4a7484aa, 0x5cb0a9dc, 0x76f988da] ++
  [0x983e5152, 0xa831c66d, 0xb00327c8, 0xbf597fc7, 0xc6e00bf3, 0xd5a79147, 0x06ca6351, 0x14292967] ++
  [0x27b70a85, 0x2e1b2138, 0x4d2c6dfc, 0x53380d13, 0x650a7354, 0x766a0abb, 0x81c2c92e, 0x92722c85] ++
  [0xa2bfe8a1, 0xa81a664b, 0xc24b8b70, 0xc76c51a3, 0xd192e819, 0xd6990624, 0xf40e3585, 0x106aa070] ++
  [0x19a4c116, 0x1e376c08, 0x2748774c, 0x34b0bcb5, 0x391c0cb3, 0x4ed8aa4a, 0x5b9cca4f, 0x682e6ff3] ++
  [0x748f82ee, 0x78a5636f, 0x84c87814, 0x8cc70208, 0x90befffa, 0xa4506ceb, 0xbef9a3f7, 0xc67178f2]

/-- The initial chaining words of SHA-256. -/
def shaInit : List W32 := [0x6a09e667, 0xbb67ae85, 0x3c6ef372, 0xa54ff53a, 0x510e527f, 0x9b05688c, 0x1f83d9ab, 0x5be0cd19]

def shaS (x : W32) (a b c : Nat) (shift : Bool) : W32 :=
  x.rotateRight a ^^^ x.rotateRight b ^^^ (if shift then x >>> c else x.rotateRight c)

/-- Extend a message schedule, held newest first, by n words. -/
def shaSchedule : Nat → List W32 → List W32
  | 0, w => w
  | n + 1, w =>
    shaSchedule n ((lget' w 15 + shaS (lget' w 14) 7 18 3 true + lget' w 6 + shaS (lget' w 1) 17 19 10 true) :: w)
where lget' (w : List W32) (i : Nat) : W32 := w.getD i 0

/-- One round on the eight working words. -/
def shaRound (v : List W32) (kw : W32) : List W32 :=
  match v with
  | [a, b, c, d, e, f, g, h] =>
    let t1 := h + shaS e 6 11 25 false + ((e &&& f) ^^^ (~~~e &&& g)) + kw
    let t2 := shaS a 2 13 22 false + ((a &&& b) ^^^ (a &&& c) ^^^ (b &&& c))
    [t1 + t2, a, b, c, d + t1, e, f, g]
  | v => v

/-- The big-endian words of a block, newest first. -/
def shaWords (bs : List Byte) : List W32 :=
  ((List.range 16).map fun i => BitVec.ofNat 32 (beNat (slice bs (4 * i) 4))).reverse

/-- Compress one 64-byte block. -/
def shaBlock (h : List W32) (bs : List Byte) : List W32 :=
  let w := (shaSchedule 48 (shaWords bs)).reverse
  List.zipWith (· + ·) h (((List.zipWith (· + ·) shaK w)).foldl shaRound h)

/-- Compress n blocks of a list. -/
def shaBlocks : Nat → List W32 → List Byte → List W32
  | 0, h, _ => h
  | n + 1, h, bs => shaBlocks n (shaBlock h (bs.take 64)) (bs.drop 64)

/-- The padding after n bytes. -/
def shaPad (n : Nat) : List Byte := 0x80 :: (List.replicate ((119 - n % 64) % 64) 0 ++ beBytes 8 (8 * n))

/-- The chaining words as bytes. -/
def shaOut (h : List W32) : List Byte := h.flatMap fun x => beBytes 4 x.toNat

/-- SHA-256 of a list of bytes. -/
def sha256 (bs : List Byte) : List Byte :=
  let m := bs ++ shaPad bs.length
  shaOut (shaBlocks (m.length / 64) shaInit m)

/-! ## State records (R464) -/

/-- A state record: chaining words, total length, partial block. -/
def shaRecord (h : List W32) (len : Nat) (part : List Byte) : List Byte :=
  shaOut h ++ leBytes 8 len ++ (part ++ List.replicate (64 - part.length) 0) ++ List.replicate 24 0

def recordWords (r : List Byte) : List W32 := (List.range 8).map fun i => BitVec.ofNat 32 (beNat (slice r (4 * i) 4))
def recordLen (r : List Byte) : Nat := sliceNat r 32 8
def recordPart (r : List Byte) : List Byte := slice r 40 (recordLen r % 64)

/-- The initial record. -/
def shaStart : List Byte := shaRecord shaInit 0 []

/-- Absorb data into a record. -/
def shaUpdate (r data : List Byte) : List Byte :=
  let m := recordPart r ++ data
  let n := m.length / 64
  shaRecord (shaBlocks n (recordWords r) m) (recordLen r + data.length) (m.drop (64 * n))

/-- The digest of a record. -/
def shaFinal (r : List Byte) : List Byte :=
  let m := recordPart r ++ shaPad (recordLen r)
  shaOut (shaBlocks (m.length / 64) (recordWords r) m)

/-! ## HMAC and HKDF-Expand (R315) -/

def xorBytes (a b : List Byte) : List Byte := List.zipWith (· ^^^ ·) a b

def hmac (key m : List Byte) : List Byte :=
  let k := if 64 < key.length then sha256 key else key
  let k := k ++ List.replicate (64 - k.length) 0
  sha256 (xorBytes k (List.replicate 64 0x5c) ++ sha256 (xorBytes k (List.replicate 64 0x36) ++ m))

/-- HKDF-Expand for 32 bytes. -/
def hkdf32 (key info : List Byte) : List Byte := hmac key (info ++ [1])

/-- K_b of R315: the key of a direction of a link in an epoch, from the link secret. -/
def linkKey (secret : BitVec 256) (link : Nat) (b epoch : Nat) : List Byte :=
  hkdf32 (leBytes 32 secret.toNat)
    ([0x43, 0x48, 0x52, 0x4F, 0x53, 0x45, 0x54, 0x20, 0x4C, 0x4B] ++ [BitVec.ofNat 8 link, BitVec.ofNat 8 b] ++ leBytes 4 epoch)

/-! ## RSASSA-PSS (R437, R438) -/

/-- The nonce of a flit on a link (R315, R321): the link, its direction and its epoch, then the count. -/
def linkNonce (link b epoch count : Nat) : List Byte := leBytes 4 (link % 256 * 2 ^ 24 + b % 2 * 2 ^ 23 + epoch % 2 ^ 23) ++ leBytes 8 count

/-- The SubjectPublicKeyInfo of an RSA-3072 key with the public exponent 65,537, in DER coding (R295; log 16). -/
def spki (modulus : Nat) : List Byte :=
  [0x30, 0x82, 0x01, 0xA2, 0x30, 0x0D, 0x06, 0x09, 0x2A, 0x86, 0x48, 0x86, 0xF7, 0x0D, 0x01, 0x01, 0x01, 0x05, 0x00, 0x03, 0x82, 0x01, 0x8F, 0x00,
   0x30, 0x82, 0x01, 0x8A, 0x02, 0x82, 0x01, 0x81, 0x00] ++ beBytes 384 modulus ++ [0x02, 0x03, 0x01, 0x00, 0x01]

/-- The hash of an identity key (R295). -/
def keyHash (modulus : Nat) : BitVec 256 := BitVec.ofNat 256 (beNat (sha256 (spki modulus)))

/-- The hash of the identity key of die 0 to 5, or of the package (R295). -/
def dieKeyHash (d : Nat) : BitVec 256 := keyHash (if d = 6 then Config.packageModulus else Config.dieModulus d)

/-- b ^ e mod m, by squaring, over at most fuel bits of e. -/
def powMod (m : Nat) : Nat → Nat → Nat → Nat
  | 0, _, _ => 1 % m
  | fuel + 1, b, e =>
    if e = 0 then 1 % m
    else
      let h := powMod m fuel (b * b % m) (e / 2)
      if e % 2 = 1 then h * b % m else h

/-- MGF1 with SHA-256 for n bytes. -/
def mgf1 (seed : List Byte) (n : Nat) : List Byte :=
  ((List.range (ceilDiv n 32)).flatMap fun c => sha256 (seed ++ beBytes 4 c)).take n

/-- Clear the top bit of the first byte: 3,071 encoded bits in 384 bytes. -/
def clearTop : List Byte → List Byte
  | [] => []
  | b :: bs => (b &&& 0x7F) :: bs

/-- EMSA-PSS encoding of a hash under a salt. -/
def pssEncode (h salt : List Byte) : List Byte :=
  let hh := sha256 (List.replicate 8 0 ++ h ++ salt)
  let db := List.replicate 318 0 ++ [1] ++ salt
  clearTop (xorBytes db (mgf1 hh 351)) ++ hh ++ [0xBC]

/-- The signature of a hash, 384 bytes big-endian. -/
def pssSign (n d : Nat) (h salt : List Byte) : List Byte := beBytes 384 (powMod n 3072 (beNat (pssEncode h salt)) d)

/-- The salt that an encoded message carries. -/
def pssSalt (em : List Byte) : List Byte := (clearTop (xorBytes (em.take 351) (mgf1 (slice em 351 32) 351))).drop 319

/-- PKVER's test of R438: a well-formed modulus, a signature below it, and an encoding that is that of the hash
under the salt it carries. -/
def pssVerify (nBytes h sig : List Byte) : Bool :=
  let n := beNat nBytes
  let x := beNat sig
  if !bitN n 3071 ∨ n % 2 = 0 ∨ n ≤ x then false
  else
    let em := beBytes 384 (powMod n 17 x 65537)
    em == pssEncode h (pssSalt em)

/-! ## AES-256 and CTR_DRBG (R450; FIPS 197, NIST SP 800-90A Rev. 1) -/

/-- Multiplication by x in the field of AES. -/
def aesX (b : Byte) : Byte := (b <<< 1) ^^^ (if b.msb then 0x1B else 0)

/-- The product by the n lowest bits of the second factor. -/
def aesMul : Nat → Byte → Byte → Byte
  | 0, _, _ => 0
  | n + 1, a, b => (if b.getLsbD 0 then a else 0) ^^^ aesMul n (aesX a) (b >>> 1)

/-- The square of an element, n times. -/
def aesSquares : Nat → Byte → Byte
  | 0, a => a
  | n + 1, a => aesSquares n (aesMul 8 a a)

/-- The S-box: the inverse, which is the 254th power, and the affine map. -/
def aesSub (a : Byte) : Byte :=
  let x := ((List.range 7).map fun n => aesSquares (n + 1) a).foldl (aesMul 8) 1
  x ^^^ x.rotateLeft 1 ^^^ x.rotateLeft 2 ^^^ x.rotateLeft 3 ^^^ x.rotateLeft 4 ^^^ 0x63

/-- The round constant of a key word. -/
def aesRcon : Nat → Byte
  | 0 => 1
  | n + 1 => aesX (aesRcon n)

/-- Extend the key schedule, held newest first, by n words. -/
def aesSchedule : Nat → List (List Byte) → List (List Byte)
  | 0, w => w
  | n + 1, w =>
    let i := w.length
    let t := w.getD 0 []
    let t := if i % 8 = 0 then List.zipWith (· ^^^ ·) ((t.drop 1 ++ t.take 1).map aesSub) [aesRcon (i / 8 - 1), 0, 0, 0]
      else if i % 8 = 4 then t.map aesSub else t
    aesSchedule n (List.zipWith (· ^^^ ·) (w.getD 7 []) t :: w)

/-- The 15 round keys of a 32-byte key. -/
def aesKeys (key : List Byte) : List (List Byte) :=
  let w := (aesSchedule 52 ((List.range 8).map fun i => slice key (4 * i) 4).reverse).reverse
  (List.range 15).map fun r => (slice' w (4 * r)).flatten
where slice' (w : List (List Byte)) (i : Nat) : List (List Byte) := (w.drop i).take 4

/-- SubBytes and ShiftRows on the 16 bytes of a block, column by column. -/
def aesShift (b : List Byte) : List Byte :=
  (List.range 16).map fun i => aesSub (b.getD (i % 4 + 4 * ((i / 4 + i % 4) % 4)) 0)

/-- MixColumns. -/
def aesMix (b : List Byte) : List Byte :=
  (List.range 16).map fun i =>
    let x (k : Nat) : Byte := b.getD (i / 4 * 4 + (i + k) % 4) 0
    aesMul 8 (x 0) 2 ^^^ aesMul 8 (x 1) 3 ^^^ x 2 ^^^ x 3

/-- AES-256 of a block of 16 bytes under a key of 32. -/
def aes256 (key block : List Byte) : List Byte :=
  match aesKeys key with
  | [] => block
  | k :: ks =>
    let start := List.zipWith (· ^^^ ·) block k
    let b := (ks.take 13).foldl (fun b k => List.zipWith (· ^^^ ·) (aesMix (aesShift b)) k) start
    List.zipWith (· ^^^ ·) (aesShift b) (ks.getD 13 [])

/-- The block that the generator encrypts i counts after V. -/
def drbgBlock (key : BitVec 256) (v : BitVec 128) (i : Nat) : List Byte :=
  aes256 (beBytes 32 key.toNat) (beBytes 16 ((v.toNat + i) % 2 ^ 128))

/-- CTR_DRBG_Update with 48 bytes. -/
def drbgUpdate (data : List Byte) (key : BitVec 256) (v : BitVec 128) : BitVec 256 × BitVec 128 :=
  let t := List.zipWith (· ^^^ ·) ((List.range 3).flatMap fun i => drbgBlock key v (i + 1)) data
  (BitVec.ofNat 256 (beNat (t.take 32)), BitVec.ofNat 128 (beNat (t.drop 32)))

end Sys2Proof.Machine
end

