-- ==== Sys2Proof/Machine/Root.lean ====
section
/-! DEFINITION. The ROOT group (18 R418 to R421, R432 to R434, R437, R438, R450; 19 R464, R465): what each member
checks and reads, and what it computes once its last source read has been performed. What it writes is posted
when its busy time ends (R419). -/

namespace Sys2Proof.Machine

/-- The place of measurement register n in the root core's private store (R421). -/
def measPa (n : Nat) : Nat := paOf 7 0 (0x7FE00 + 32 * (n % 16))

namespace State

/-- A measurement register (R308). -/
def meas (s : State) (n : Nat) : List Byte := s.readBytes (measPa n) 32

/-- Extend a measurement register (R308). -/
def extend (s : State) (n : Nat) (v : List Byte) : State := s.writeBytes (measPa n) (sha256 (s.meas n ++ v))

/-- The generator is seeded from the entropy source once 2^20 requests have been served, and at a start (R450; log 109). -/
def drbgSeeded (s : State) : State :=
  let g := s.pkg.drbg
  if g.requests < 2 ^ 20 then s
  else
    let u := drbgUpdate (beBytes 48 (Config.entropy s.fresh).toNat) g.key g.v
    { s with fresh := s.fresh + 1 }.modPkg fun k => { k with drbg := { key := u.1, v := u.2, requests := 0 } }

/-- One request of 64 bits to the random bit generator (R450): the first 8 bytes of the next block, the first the least significant
(DESIGN CHOICE, log 109). -/
def randomWord (s : State) : Word × State :=
  let s := s.drbgSeeded
  let g := s.pkg.drbg
  let u := drbgUpdate (List.replicate 48 0) g.key (g.v + 1)
  (word (leNat ((drbgBlock g.key g.v 1).take 8)),
   s.modPkg fun k => { k with drbg := { key := u.1, v := u.2, requests := g.requests + 1 } })

/-- Words from the random bit generator. -/
def randomWords : Nat → State → List Word × State
  | 0, s => ([], s)
  | n + 1, s => let r := randomWords n s.randomWord.2; (s.randomWord.1 :: r.1, r.2)

/-- Some bytes from the random bit generator. -/
def randomBytes (n : Nat) (s : State) : List Byte × State :=
  let r := randomWords (ceilDiv n 8) s
  ((r.1.flatMap fun w => leBytes 8 w.toNat).take n, r.2)

/-- What the root core computes for a fibre joins the work under way. -/
def addWork (s : State) (w : RootWork) : State := s.modPkg fun k => { k with work := k.work ++ [w] }

/-- The first physical limit that a service core's span to spaces 4 to 6 breaks (R124): its address. -/
def physLimit (s : State) (b : Block) : Option Nat :=
  if b.c.space < 4 ∨ 6 < b.c.space ∨ !isService s.cur.core then none
  else (linePieces b.a b.n).findSome? fun p =>
    match s.home s.cur.core b.c.space p.1 with
    | some (.gateway gw va) => if s.paHeld gw b.c.space va && s.paHeld gw b.c.space (va + p.2 - 1) then none else some p.1
    | _ => none

/-- CheckCap of a destination of the group with W; space 8 takes no such access (R125). -/
def destCheck (s : State) (b : Block) : Option (Nat × Word) :=
  match s.checkBlock b.c b.a b.n pW true with
  | .error (e, x) => some (e, capInfo x b.kn)
  | .ok h => match h with | .reg _ _ _ => some (8, word b.a) | _ => none

/-- After the checks of R144, a destination beyond the physical limits raises PAGE_FAULT (R124); else go on. -/
def withinLimit (s : State) (b : Block) (k : State → Out) : Out :=
  match s.physLimit b with
  | some a => s.raise 9 (word (va56 a))
  | none => k s

/-- The check of a source of the group. -/
def srcCheck (s : State) (b : Block) : Option (Nat × Word) :=
  match s.checkBlock b.c b.a b.n pR false with
  | .error (e, x) => some (e, capInfo x b.kn)
  | .ok h => match h with | .reg _ _ _ => some (8, word b.a) | _ => none

/-- The work of a member ends: the busy time b counts from now, and its bytes wait to be posted (R419). -/
def compute (s : State) (b : Nat) (dst : Block) (bs : List Byte) : Out :=
  .next ((s.addWork { who := s.cur, meas := none, cap := dst.c, addr := dst.a, bytes := bs, done := true }).retire b)

/-- The signature unit serves one fibre at a time (R419): the busy time that starts when it is free. -/
def sigTime (s : State) (b : Nat) : Nat := max s.pkg.sigBusy s.clock - s.clock + b

/-- The signature unit is busy for a time from now: the source of its fibre has been read. -/
def useSig (s : State) (b : Nat) : State := s.modPkg fun k => { k with sigBusy := s.clock + b, sigClaim := none }

/-- PKSIGN and PKVER take the signature unit in their order of issue: one is held while an earlier one still reads its source
(R419). -/
def claimSig (s : State) (k : State → Out) : Out :=
  if s.pkg.sigClaim.any (· != s.cur) then .next s.hold
  else
    let claim : Option FibreRef := some s.cur
    k (s.modPkg fun p => { p with sigClaim := claim })

/-- A fibre whose source read has failed leaves the signature unit to the next. -/
def dropSig (s : State) (f : FibreRef) : State := if s.pkg.sigClaim = some f then s.modPkg fun k => { k with sigClaim := none } else s

/-- Read the source for the signature unit; an instruction that traps, or that must issue again, has not taken it. -/
def readSig (s : State) (bs : List Block) (i : Instr) (k : State → List (List Byte) → Out) : Out :=
  match s.readBlocks bs i k with
  | .next t => .next (if t.me.status = .parked ∧ t.me.park = 1 then t else t.dropSig s.cur)
  | o => o

end State

/-- The source and the destination that a member names, with a size (R418). -/
def rootSrc (s : State) (k : BitVec 2) (b : BitVec 3) (n : Nat) : Block := ⟨s.k k, k.toNat, State.halfAddr (s.k k) (s.g b) false, n⟩
def rootDst (s : State) (k : BitVec 2) (b : BitVec 3) (n : Nat) : Block := ⟨s.k k, k.toNat, State.halfAddr (s.k k) (s.g b) true, n⟩

/-! ## SHA (R464, R465) -/

/-- The blocks that SHA reads: the data, and the state record. -/
def shaSources (s : State) (a b : BitVec 3) (z k m : BitVec 2) : List Block :=
  let n := (s.g a).toNat
  match m.toNat with
  | 0 => [rootSrc s z b n]
  | 1 => []
  | 2 => [rootSrc s z b n, rootDst s k b 128]
  | _ => [rootSrc s z b 128]

/-- The destination of SHA. -/
def shaDest (s : State) (b : BitVec 3) (k m : BitVec 2) : Block := rootDst s k b (if m = 1#2 ∨ m = 2#2 then 128 else 32)

/-- What SHA writes, and the blocks it compresses (R464, R465). -/
def shaResult (m : BitVec 2) (data : List (List Byte)) : List Byte × Nat :=
  let x := data.headD []
  let r := (data.drop 1).headD []
  match m.toNat with
  | 0 => (sha256 x, ceilDiv (x.length + 9) 64)
  | 1 => (shaStart, 0)
  | 2 => (shaUpdate r x, ((recordPart r).length + x.length) / 64)
  | _ => (shaFinal x, if (recordPart x).length ≤ 55 then 1 else 2)

/-- SHA with its sources in hand. -/
def shaGo (b : BitVec 3) (k m : BitVec 2) (s : State) (data : List (List Byte)) : Out :=
  let (bs, n) := shaResult m data
  s.compute (32 + 96 * n) (shaDest s b k m) bs

/-- SHA (R464, R465). -/
def execSha (a b : BitVec 3) (z k m : BitVec 2) (s : State) : Out :=
  s.guard .root (.sha a b z k m) fun s =>
    let n := s.g a
    let src := shaSources s a b z k m
    let dst := shaDest s b k m
    let rec8 := if m = 3#2 then src.headD dst else dst
    if 16777216 < n.toNat ∨ ((m = 1#2 ∨ m = 3#2) ∧ n ≠ 0) then s.raise 1 n
    else if m = 1#2 ∧ field (s.g b) 31 0 ≠ 0 then s.raise 1 (s.g b)
    else match (src.take 1).findSome? s.srcCheck, s.destCheck dst with
      | some (e, info), _ => s.raise e info
      | none, some (e, info) => s.raise e info
      | none, none =>
        if m ≠ 0#2 ∧ rec8.a % 8 ≠ 0 then s.raise 8 (word rec8.a)
        else s.withinLimit dst fun s => s.readBlocks src (.sha a b z k m) (shaGo b k m)

/-! ## PKSIGN, PKVER (R437, R438) -/

/-- PKSIGN with its hash in hand (R437). -/
def pksignGo (a b : BitVec 3) (k : BitVec 2) (s : State) (data : List (List Byte)) : Out :=
  let t := s.sigTime 2097152
  let s := s.useSig t
  if s.pkg.start.lc = 4 then .next ((s.setG a 1).retire t)
  else
    let (salt, s) := State.randomBytes 32 s
    let dst := rootDst s k b 384
    let sig := pssSign Config.packageModulus Config.packageExponent (data.headD []) salt
    (s.setG a 0).compute t dst sig

/-- PKSIGN (R437). -/
def execPksign (a b : BitVec 3) (z k : BitVec 2) (s : State) : Out :=
  s.guard .root (.pksign a b z k) fun s =>
    let src := rootSrc s z b 32
    match s.srcCheck src, s.destCheck (rootDst s k b 384) with
    | some (e, info), _ => s.raise e info
    | none, some (e, info) => s.raise e info
    | none, none => s.withinLimit (rootDst s k b 384) fun s => s.claimSig fun s => s.readSig [src] (.pksign a b z k) (pksignGo a b k)

/-- PKVER with its 800 bytes in hand (R438). -/
def pkverGo (a : BitVec 3) (s : State) (data : List (List Byte)) : Out :=
  let x := data.headD []
  let t := s.sigTime 32768
  .next (((s.useSig t).setG a (if pssVerify (slice x 0 384) (slice x 384 32) (slice x 416 384) then 0 else 1)).retire t)

/-- PKVER (R438). -/
def execPkver (a b : BitVec 3) (z : BitVec 2) (s : State) : Out :=
  s.guard .root (.pkver a b z) fun s =>
    let src := rootSrc s z b 800
    if field (s.g b) 63 32 ≠ 0 then s.raise 1 (s.g b)
    else match s.srcCheck src with
      | some (e, info) => s.raise e info
      | none => s.claimSig fun s => s.readSig [src] (.pkver a b z) (pkverGo a)

/-! ## RNG (R450) -/

/-- RNG (R450): a draw of the generator, or 1 in gb while the entropy source has failed. -/
def execRng (a b : BitVec 3) (s : State) : Out :=
  s.guard .root (.rng a b) fun s =>
    if s.pkg.entropyOk then
      let (v, s) := s.randomWord
      .next (((s.setG a v).setG b 0).retire 64)
    else .next (((s.setG a 0).setG b 1).retire 64)

/-! ## MEXT (R420, R421) -/

/-- A MEXT has its value: it computes for 160 cycles, and then extends (R419, R420). -/
def mextGo (s : State) (data : List (List Byte)) : Out :=
  let f := s.cur
  .next ((s.modPkg fun k => { k with
    work := k.work.map fun w => if w.who == f && w.meas.isSome && !w.done then { w with bytes := data.headD [] } else w }).retire 160)

/-- MEXT (R420). It stands in issue order among those that have not extended their register yet. -/
def execMext (b : BitVec 3) (z : BitVec 2) (n : BitVec 4) (s : State) : Out :=
  s.guard .root (.mext b z n) fun s =>
    let src := rootSrc s z b 32
    let w : RootWork := { who := s.cur, meas := some n.toNat, cap := .null, addr := 0, bytes := [], done := false }
    if field (s.g b) 63 32 ≠ 0 then s.raise 1 (s.g b)
    else match s.srcCheck src with
      | some (e, info) => s.raise e info
      | none =>
        match s.readBlocks [src] (.mext b z n) (fun t d => mextGo (t.addWork w) d) with
        | .next t => .next (if t.me.status = .parked ∧ t.me.park = 1 then t.addWork w else t)
        | o => o

/-- The measurement registers take the finished extensions, in issue order for each register (R420). -/
def applyWork : List RootWork → List RootWork → State → List RootWork × State
  | [], kept, s => (kept, s)
  | w :: ws, kept, s =>
    match w.meas with
    | some n =>
      if w.done ∧ !kept.any (fun x => x.meas == some n) then applyWork ws kept (s.extend n w.bytes)
      else applyWork ws (kept ++ [w]) s
    | none => applyWork ws (kept ++ [w]) s

/-- The loads that wait for no extension any more issue again (R421). -/
def State.wakeMeas (s : State) : State :=
  (s.fibres.filter fun x => x.1.core == .root && x.2.status == .parked && x.2.park == 1 && x.2.cont == .retry
      && !s.pkg.work.any fun w => w.waiters.contains x.1).foldl
    (fun s x => (s.ready x.1).modFib x.1 fun y => { y with measured := true }) s

/-- The extensions that are done take effect, and the loads that waited for them go on (R420, R421). -/
def State.settleWork (s : State) : State :=
  let (l, t) := applyWork s.pkg.work [] s
  (t.modPkg fun k => { k with work := l }).wakeMeas

/-! ## MTRQ (R432, R433) -/

/-- The event names a request of MTRQ: its id. -/
def mtrqIdOf : Instr → Option Nat
  | .seal id => some id
  | .unseal id => some id
  | .meterOpen id => some id
  | .meterGrant id => some id
  | .meterSign id => some id
  | .meterClose id => some id
  | .meterHandover id => some id
  | .meterRelease id => some id
  | .meterQuery id => some id
  | _ => none

/-- The event that a request of a code is (R325); a code that is none goes as QUERY, which answers FORMAT. -/
def mtrqEvent (code id : Nat) : Instr :=
  match code with
  | 1 => .seal id
  | 2 => .unseal id
  | 3 => .meterOpen id
  | 4 => .meterGrant id
  | 5 => .meterSign id
  | 6 => .meterClose id
  | 7 => .meterHandover id
  | 8 => .meterRelease id
  | _ => .meterQuery id

namespace State

/-- The root core, on the I/O die, reaches a physical byte: it lies there, or on a die that is OPEN (R13). -/
def rootReach (s : State) (pa : Nat) : Bool :=
  match paKind pa with
  | 1 => s.dieOpen (tileDie (paIdx pa))
  | 2 => s.dieOpen (tileDie (paIdx pa))
  | 3 => s.dieOpen (paIdx pa)
  | 4 => s.dieOpen (paIdx pa)
  | _ => true

/-- The physical pieces of a span in a partition's own view that the root core reaches (R13, R433). -/
def rootPieces (s : State) (core : CoreId) (p space a n : Nat) (write : Bool) : Option (List (Nat × Nat)) :=
  match s.physPieces core p space a n write with
  | .ok ps => if ps.all fun x => s.rootReach x.1 then some ps else none
  | .error _ => none

/-- The bytes of a block that the root core reads through a partition's own view (R433); zeros where it does not reach them. -/
def viewBytes (s : State) (core : CoreId) (p space a n : Nat) : List Byte :=
  match s.rootPieces core p space a n false with
  | some ps => (s.readPieces ps).1
  | none => List.replicate n 0

/-- The bytes of a request's block, as the root core reads them (R433). -/
def mtrqBlock (s : State) (r : MtReq) : List Byte :=
  if r.block.isEmpty then s.viewBytes r.who.core r.part r.cap.space r.addr 768 else r.block

/-- The request leaves for the root core, and the fibre waits (R433). -/
def mtrqSend (s : State) (f : FibreRef) (i : Instr) : State :=
  match i with
  | .mtrq a b z =>
    let x := s.fib f
    let c := lget .null x.k z.toNat
    let addr := halfAddr c (lget 0 x.g b.toNat) false
    let p := s.partOf f.core
    let (id, s) := s.newId
    let r : MtReq := { id, who := f, part := p, cap := c, addr, d := a, block := [], wn := none, atRoot := false }
    let code := ((s.viewBytes f.core p c.space addr 1).headD 0).toNat
    let s := s.modPkg fun k => { k with mtrq := k.mtrq ++ [r] }
    (s.parkF f 12 (.mtrq a id)).sendEv (coreNode f.core) ioNode false p (mtrqEvent code id)
  | _ => s

end State

/-- MTRQ (R432, R433). -/
def execMtrq (a b : BitVec 3) (z : BitVec 2) (s : State) : Out :=
  s.guard .mtrq (.mtrq a b z) fun s =>
    let src := rootSrc s z b 768
    if s.cur.core = .root ∨ field (s.g b) 63 32 ≠ 0 then
      (if s.cur.core = .root then s.illegal (.mtrq a b z) else s.raise 1 (s.g b))
    else if s.me.pl = 0 then s.raise 3 0
    else match s.checkBlock src.c src.a 768 State.pRW true with
      | .error (e, x) => s.raise e (State.capInfo x z.toNat)
      | .ok _ =>
        if src.a % 64 ≠ 0 then s.raise 8 (word src.a)
        else if src.c.space = 0 ∨ 4 < src.c.space then s.raise 6 (State.capInfo src.a z.toNat)
        else match s.physPieces s.cur.core s.myPart src.c.space src.a 768 true, s.physPieces s.cur.core s.myPart src.c.space src.a 768 false with
          | .error (e, x), _ => s.raise e (State.pageInfo s.cur.core src.c.space x)
          | _, .error (e, x) => s.raise e (State.pageInfo s.cur.core src.c.space x)
          | .ok _, .ok _ =>
            if s.releaseDone s.cur scopeWhole then .next (s.mtrqSend s.cur (.mtrq a b z))
            else .next (s.parkMe 2 (.release (.mtrq a b z) []))

end Sys2Proof.Machine
end

