-- ==== Sys2Proof/Machine/Task.lean ====
section
/-! DEFINITION. The task group (04 R107 to R109; 19 R479): a record or a query on its way to a task unit. -/

namespace Sys2Proof.Machine

namespace State

/-- The die that a record's FLAGS name; 7 names the lowest-numbered die that holds tiles of the partition (R97). -/
def recordDie (s : State) (p : Nat) (rec : List Byte) : Nat :=
  let d := bits (sliceNat rec 4 1) 6 4
  if d = 7 then
    ((List.range 6).find? fun x => (s.tilesOf p).any fun n => tileDie n == x).getD 0
  else d

/-- The destination and the argument that a TASKQ instruction names. -/
def taskqDest : Instr → BitVec 3
  | .taskq d _ _ => d
  | .taskqKc d _ _ _ => d
  | _ => 0
def taskqArg (x : Fibre) : Instr → Cap × Bool
  | .taskqKc _ _ c _ => (lget .null x.k c.toNat, true)
  | _ => (.null, false)

/-- The record leaves for the task unit of its die, and the fibre waits for the answer (R108). -/
def submitNow (s : State) (f : FibreRef) (i : Instr) (bs : List Byte) : State :=
  let (id, s) := s.newId
  let p := s.partOf f.core
  let die := s.recordDie p bs
  let (arg, given) := taskqArg (s.fib f) i
  let sub : Submission := { part := p, who := some f, die, body := bs, arg, argGiven := given, d := taskqDest i }
  let s := { s with subs := s.subs ++ [(id, sub)] }
  (s.parkF f 2 (.taskq (taskqDest i))).sendEv (coreNode f.core) (blockNode (min die 5)) false p (.taskRecord id)

/-- A TASKQ with its record in hand: NOPART on a service core, else the release and the record (R108). -/
def taskqPayload (s : State) (f : FibreRef) (i : Instr) (bs : List Byte) : State :=
  if isService f.core then (s.setGOf f (taskqDest i) (word (2 ^ 63 + 0x0A * 2 ^ 48))).complete f
  else if s.releaseDone f scopeWhole then s.submitNow f i bs
  else s.parkF f 2 (.release i bs)

/-- TASKQ from its checks to its record (R108). -/
def taskqCommon (s : State) (i : Instr) (a : BitVec 3) (k : BitVec 2) : Out :=
  let c := s.k k
  let addr := wrap 64 ((c.cursor : Int) + (s.g a).toNat)
  if addr % 128 ≠ 0 then s.raise 8 (word addr)
  else match s.checkBlock c addr 128 pR false with
    | .error (e, x) => s.raise e (capInfo x k.toNat)
    | .ok h =>
      match h with
      | .reg _ _ _ => s.raise 8 (word addr)
      | _ => s.readBlock c k.toNat addr 128 i fun t bs => .next (t.taskqPayload s.cur i bs)

/-- A query leaves for a task unit, and the fibre waits for the answer (R109). -/
def twaitCommon (s : State) (i : Instr) (d a : BitVec 3) (poll : Bool) : Out :=
  let v := s.g a
  if v.toNat / 2 ^ 48 ≠ 0 then s.illegal i
  else if 5 < field v 47 44 then s.raise 1 v
  else
    let (id, t) := s.newId
    let p := s.myPart
    let q : Query := { who := s.cur, part := p, die := field v 47 44, ix := field v 43 32, ord := field v 31 0, poll }
    let t := { t with queries := t.queries ++ [(id, q)] }
    .next ((t.parkMe 9 (.task d id)).sendEv (coreNode s.cur.core) (blockNode q.die) false p (.twaitQuery id))

end State

/-- TASKQ without an argument (R108). -/
def execTaskq (d a : BitVec 3) (k : BitVec 2) (s : State) : Out :=
  s.guard .scalar (.taskq d a k) fun s => s.taskqCommon (.taskq d a k) a k

/-- TASKQ with an argument capability (R108). -/
def execTaskqKc (d a : BitVec 3) (c k : BitVec 2) (s : State) : Out :=
  s.guard .scalar (.taskqKc d a c k) fun s => s.taskqCommon (.taskqKc d a c k) a k

/-- TWAIT (R109). -/
def execTwait (d a : BitVec 3) (s : State) : Out :=
  s.guard .scalar (.twait d a) fun s => s.twaitCommon (.twait d a) d a false

/-- TWAIT.POLL (R109). -/
def execTwaitPoll (d a : BitVec 3) (s : State) : Out :=
  s.guard .scalar (.twaitPoll d a) fun s => s.twaitCommon (.twaitPoll d a) d a true

end Sys2Proof.Machine
end

