-- ==== Sys2Proof/Machine/Wake.lean ====
section
/-! DEFINITION. What a parked fibre does when what it waits for may have come: an acknowledgement, a retirement, the
end of a move, the last piece of an operand block (03 R70; 08 R227 to R230; R524). -/

namespace Sys2Proof.Machine

namespace State

/-- The root core's finished writes of a fibre are posted (R419, R71). The limits that a gateway would refuse were
checked when the instruction issued, so the access stands translated. -/
def postWork (s : State) (f : FibreRef) : State :=
  let (mine, rest) := s.pkg.work.partition fun w => w.who == f && w.meas.isNone && w.done
  let s := s.modPkg fun k => { k with work := rest }
  mine.foldl (fun s w =>
    (pieces (2 ^ 20) 20 w.addr w.bytes.length).foldl (fun s p =>
      match s.home f.core w.cap.space p.1 with
      | some h =>
        let (id, t) := s.launch f (.store (slice w.bytes (p.1 - w.addr) p.2)) w.cap p.1 p.2 h true
        let t := match h with
          | .gateway gw va => let u := gwUnit gw w.cap.space
            t.modAccess id fun a => { a with pa := some (paOf u.1 u.2 va), stage := .queued }
          | _ => t
        t.modFib f fun x => { x with outs := x.outs + 1 }
      | none => s) s) s

/-- A fibre has root-core writes that wait to be posted. -/
def hasWork (s : State) (f : FibreRef) : Bool := s.pkg.work.any fun w => w.who == f && w.meas.isNone && w.done

/-- A release has taken effect for a parked fibre: the effect of its instruction (R228, R433). -/
def afterRelease (s : State) (f : FibreRef) (i : Instr) (bs : List Byte) : State :=
  match i with
  | .spush a _ z =>
    (match s.pushTrap f.core z.toNat (word (wordOf i).toNat) with
     | some (e, info) => (s.ready f).trapEntry f e info false (s.fib f).pc
     | none => (s.pushOrPark f a z (lget 0 (s.fib f).g a.toNat)).abandonPending f)
  | .taskq _ _ _ => s.submitNow f i bs
  | .taskqKc _ _ _ _ => s.submitNow f i bs
  | .mtrq _ _ _ => s.mtrqSend f i
  | _ => (s.sendNow f i bs).complete f

/-- Test again what a parked fibre waits for (R70). -/
def recheck (s : State) (f : FibreRef) : State :=
  let x := s.fib f
  if x.status ≠ .parked then s else
  match x.cont with
  | .retry => if x.park = 2 ∧ x.outs < 16 then (if s.hasWork f then s.postWork f else s).ready f else s
  | .fence (some v) => if s.releaseDone f v then s.complete f else s
  | .fence none => if s.fenceXDone f then s.complete f else s
  | .ifence => if s.ifenceDone f then (s.modFib f fun x => { x with fbuf := none }).complete f else s
  | .release i bs => if s.releaseDone f scopeWhole then s.afterRelease f i bs else s
  | .exit => s.exitCheck f
  | .walkWait _ _ => s.walkCheck f
  | .leaseDrop _ => if s.dispatchedOf f then s else s.schedOnce s.clock (.leaseRelease f.core)
  | _ => s

/-! ## Operand blocks -/

/-- The second part of an instruction whose operand blocks have been read, for the executing fibre (R446, R108, R49,
R419). -/
def resumeGather (s : State) (i : Instr) : Out :=
  let buf := s.me.buf
  let t := s.modMe fun f => { f with buf := [] }
  let block (k : BitVec 2) (b : BitVec 3) (n : Nat) : List Byte :=
    assemble buf (s.k k).space (wrap 64 (((s.k k).cursor : Int) + (s.g b).toNat)) n
  match i with
  | .sendMem _ b k _ => .next (t.sendPayload s.cur i (block k b 48))
  | .sendcMem _ b k => .next (t.sendPayload s.cur i (block k b 48))
  | .replyMem _ b k => .next (t.replyNow s.cur i (block k b 48))
  | .taskq _ a k => .next (t.taskqPayload s.cur i (block k a 128))
  | .taskqKc _ a _ k => .next (t.taskqPayload s.cur i (block k a 128))
  | .copen d a b c => s.copenNext i d a b c
  | .sha a b z k m => shaGo b k m t (assembleAll buf (shaSources s a b z k m))
  | .pksign a b z k => pksignGo a b k t (assembleAll buf [rootSrc s z b 32])
  | .pkver a b z => pkverGo a t (assembleAll buf [rootSrc s z b 800])
  | .mext b z _ => mextGo t (assembleAll buf [rootSrc s z b 32])
  | _ => .next t

/-- All pieces of a fibre's operand block have been read: its instruction goes on, as the executing fibre. -/
def gatherDone (s : State) (f : FibreRef) : Out :=
  match (s.fib f).cont with
  | .gather i =>
    if s.piecesOf f then .next s
    else
      match { s with cur := f }.resumeGather i with
      | .next t => .next { t with cur := s.cur }
      | o => o
  | _ => .next s

/-- A piece of a fibre's operand block meets a fault: the instruction traps with nothing reserved and no effect
(R446, R72). -/
def gatherFault (s : State) (f : FibreRef) (cause : Nat) (info : Word) : State :=
  match (s.fib f).cont with
  | .gather _ =>
    let s := { s with flight := s.flight.filter fun a : Nat × Access => !(a.2.who == f && a.2.op == AccOp.piece) }
    let s := s.modCore f.core fun c => { c with sends := tdel c.sends (pendingEntry f) }
    let s := ((s.modPkg fun k => { k with work := k.work.filter fun w => !(w.who == f && w.meas.isSome && !w.done) }).settleWork).dropSig f
    (s.ready f).trapEntry f cause info false (s.fib f).pc
  | _ => s

end State

end Sys2Proof.Machine
end

