-- ==== Sys2Proof/Machine/MoveRun.lean ====
section
/-! DEFINITION. The progress of a tile move (05 R150 to R153; 08 R231, R238; 13 R327 to R329; 19 R477): the check
of its spans, the reads and writes of its units, and its completion. -/

namespace Sys2Proof.Machine

namespace State

/-! ## Count points (R327, R329) -/

/-- Bytes, and bytes read again after a resume, are added to a meter's sum of this wheel on a die. -/
def addSum (s : State) (die meter bytes replay : Nat) : State :=
  let w := s.wheel
  s.modDie die fun d =>
    if d.sums.any fun x => x.1 == w && x.2.1 == meter then
      { d with sums := d.sums.map fun x => if x.1 == w && x.2.1 == meter then (w, meter, x.2.2.1 + bytes, x.2.2.2 + replay) else x }
    else { d with sums := d.sums ++ [(w, meter, bytes, replay)] }

/-- A read of n bytes through a capability of a meter, counted on a core's die and at its tile (R327, R345). -/
def countRead (s : State) (c : CoreId) (meter n : Nat) (root replay : Bool) : State :=
  if meter = 0 ∨ root then s
  else (s.addSum c.die meter (if replay then 0 else n) (if replay then n else 0)).countCore c 0x60 n

/-- A read through a meter fails, since it is CLOSED: at every privilege (R323, R328). -/
def meterShut (s : State) (meter : Nat) : Bool := meter != 0 && !s.meterOpen meter

/-- An access, a move or a walk under this id waits for no service units and uses no translation any more: an invalidation that
waits for it may be done (R158). -/
def leaveGateways (s : State) (id : Nat) : State :=
  (s.dies.filter fun d : Nat × Die => d.2.gw.invWait.contains id || d.2.gw.queue.any (·.1 == id)).foldl (fun s d =>
    let g := (s.die d.1).gw
    let left := setOut g.invWait id
    let s := s.modGw d.1 fun g => { g with queue := g.queue.filter (·.1 != id), paid := tdel g.paid id, invWait := left }
    if g.invWait.contains id ∧ left.isEmpty then s.schedOnce s.clock (.invalidationDone d.1) else s) s

/-! ## Translations of a move (R150) -/

/-- A physical piece of a span of a move, by the table of the partition that issued it and the translations that it has taken: the
address and how many bytes from it lie together. -/
def movePiece (s : State) (m : Move) (space a : Nat) : Option (Nat × Nat) :=
  match s.homeIn m.part m.who.core space a with
  | some (.mem pa) => some (pa, 2 ^ 20 - a % 2 ^ 20)
  | some (.gateway gw va) => (lookIn m.xs space gw va).map fun x => (xlatPa gw space x va, pageBytes x.sz - va % pageBytes x.sz)
  | _ => none

/-- The physical pieces of a unit of a move. -/
def moveSpan (s : State) (m : Move) (space : Nat) : Nat → Nat → Nat → List (Nat × Nat)
  | 0, _, _ => []
  | fuel + 1, a, n =>
    if n = 0 then [] else
    match s.movePiece m space a with
    | none => []
    | some (pa, k) => (pa, min (max k 1) n) :: s.moveSpan m space fuel (a + min (max k 1) n) (n - min (max k 1) n)

/-- The result of checking a span from an offset on: the whole span, a page to walk, or a fault. -/
inductive SpanCheck where
  | done (xs : List (Nat × Xlat))
  | walk (off gw va : Nat) (xs : List (Nat × Xlat))
  | fault (cause : Nat) (addr : Nat)
  deriving Repr

/-- The first byte of n at a physical address, by its offset, that a window refuses to a meter (R147). -/
def refusedAt (s : State) (pa n meter : Nat) : Nat :=
  ((pieces 4096 (n / 4096 + 2) pa n).find? fun p => s.windowBad p.1 p.2 meter).elim 0 (·.1 - pa)

/-- Check the pages and granules of a span (R123, R131, R150, R157, R267), whose windows are tested by physical address
(R147). -/
def spanCheck (s : State) (m : Move) (c : Cap) (a n : Nat) (write : Bool) : Nat → Nat → List (Nat × Xlat) → SpanCheck
  | 0, _, xs => .done xs
  | fuel + 1, off, xs =>
    if n ≤ off then .done xs else
    match s.home m.who.core c.space (a + off) with
    | some (.mem pa) =>
      if s.granuleOk m.who.core pa then s.spanCheck m c a n write fuel (off + (2 ^ 20 - (a + off) % 2 ^ 20)) xs
      else .fault 0xA (a + off)
    | some (.gateway gw va) =>
      (match s.cached gw m.part c.space va with
       | none => .walk off gw va xs
       | some x =>
         let k := min (2 ^ 20 - va % 2 ^ 20) (pageBytes x.sz - va % pageBytes x.sz)
         let pa := xlatPa gw c.space x va
         if !s.xlatHeld gw c.space va x then .fault 9 (a + off)
         else if (write ∧ !x.pw) ∨ (!write ∧ !x.pr) then .fault 0xA (a + off)
         else if !m.atRoot ∧ s.windowBad pa (min k (n - off)) c.meter then .fault 5 (a + off + s.refusedAt pa (min k (n - off)) c.meter)
         else s.spanCheck m c a n write fuel (off + k) (if xs.contains (gw, x) then xs else xs ++ [(gw, x)]))
    | _ => .fault 6 (a + off)

/-! ## Units -/

/-- The bytes that an access of a move performs in this cycle: from which of its bytes, and how many, all of a block and a free
number of a BYTE-form piece, in which each byte is a unit of its own (R152, R223; log 5). -/
def unitSpan (s : State) (m : Move) (a : Access) : Nat × Nat × State :=
  let o := a.reply.length
  if geomForm m.geom = 0 then (o, min (a.size - o) (1 + Config.tear s.fresh), { s with fresh := s.fresh + 1 }) else (o, a.size - o, s)

/-- The units among the k bytes from o of an access of a move, by the offset of each. -/
def unitsIn (m : Move) (o k : Nat) : List Nat := if geomForm m.geom = 0 then (List.range k).map (o + ·) else [0]

/-- The size of such a unit. -/
def unitBytes (m : Move) (a : Access) : Nat := if geomForm m.geom = 0 then 1 else a.size

/-- The physical pieces of some bytes of an access of a move. -/
def unitPlace (s : State) (m : Move) (space : Nat) (a : Access) (o n : Nat) : List (Nat × Nat) := s.moveSpan m space (n / 4096 + 2) (a.va + o) n

/-- A window refuses pieces to a move (R129, R147, R313; log 86). -/
def placeRefused (s : State) (m : Move) (meter : Nat) (write : Bool) (ps : List (Nat × Nat)) : Bool :=
  ps.any fun p => s.windowFault p.1 p.2 meter m.atRoot write

/-- Pieces hold an uncorrectable error (R268). -/
def placeBad (s : State) (ps : List (Nat × Nat)) : Bool := ps.any fun p => (s.readError p.1 p.2).isSome

/-- Perform a read of a move (R151, R153, R223, R327), and what its access holds then. A unit that meets an error, whose meter is
closed, or that a new window refuses (log 86) is a hole, which poisons its destination. -/
def moveReadNow (s : State) (m : Move) (a : Access) : Access × State :=
  let (o, k, s) := s.unitSpan m a
  let ps := s.unitPlace m m.src.space a o k
  let shut := s.meterShut m.src.meter
  let place (i : Nat) : List (Nat × Nat) := s.unitPlace m m.src.space a i (unitBytes m a)
  let holes := if !shut && !s.placeBad ps && !s.placeRefused m m.src.meter false ps then []
    else (unitsIn m o k).filter fun i => shut || s.placeBad (place i) || s.placeRefused m m.src.meter false (place i)
  let told := holes.filter fun i => s.placeBad (place i) && !(a.holes ++ holes).any fun j => decide (j < i) && (a.va + j) / 16 == (a.va + i) / 16
  let bs := (s.readPieces ps).1
  let s := if shut then s else s.countRead m.who.core m.src.meter k m.atRoot false
  ({ a with reply := a.reply ++ bs, holes := a.holes ++ holes }, told.foldl (fun s i => s.reportUe m.who (va56 (a.va + i))) s)

/-- A piece of a move has been written: the units of poison that it covers whole and whose bytes it has all written are sound again
(R269; log 89). -/
def healPieces (s : State) (ps holes : List (Nat × Nat)) : State :=
  ps.foldl (fun s p =>
    let sound (b : Nat) : Bool := covers (granSize p.1) b p.1 p.2 && !holes.any fun h => meets h.1 h.2 b (granSize p.1)
    { s with poison := s.poison.filter fun b => !(decide (p.1 ≤ b) && decide (b < p.1 + p.2) && sound b) }) s

/-- Perform a write of a move (R151, R153, R223), and what its access holds then: a hole becomes a poison marker, and a unit that a
new window refuses is not written (log 86). -/
def moveWriteNow (s : State) (m : Move) (a : Access) (bs : List Byte) : Access × State :=
  let (o, k, s) := s.unitSpan m a
  let place (i n : Nat) : List (Nat × Nat) := s.unitPlace m m.dst.space a i n
  let refused (ps : List (Nat × Nat)) : Bool := s.placeRefused m m.dst.meter true ps
  let s := s.countCore m.who.core 0x30 k
  let s :=
    if a.holes.isEmpty && !refused (place o k) then writePieces (place o k) (slice bs o k) s
    else (unitsIn m o k).foldl (fun s i =>
      let ps := place i (unitBytes m a)
      if refused ps then s
      else if a.holes.contains i then s.poisonPieces ps else writePieces ps (slice bs i (unitBytes m a)) s) s
  let whole := place 0 a.size
  let s := if o + k = a.size ∧ geomForm m.geom = 0 ∧ !refused whole then s.healPieces whole (a.holes.flatMap fun i => place i 1) else s
  ({ a with reply := a.reply ++ List.replicate k 0 }, s)

/-- The read of a unit has come back: its write sets out (R231). -/
def moveReadBack (s : State) (id unit : Nat) (bs : List Byte) (holes : List Nat) : State :=
  match s.move id with
  | none => s
  | some m =>
    let (_, d, n, _) := moveUnit m.trans m.geom m.sa m.da unit
    s.launchMove m (.moveWrite id unit (moveData m.trans m.geom bs)) m.dst m.dk d n holes

/-- The write of a unit has been acknowledged: the next unit, or the completion (R151). A move whose die has been
reset ends here (R237). -/
def moveWritten (s : State) (id unit : Nat) : State :=
  match s.move id with
  | none => s
  | some m =>
    if 256 ≤ m.who.slot ∧ m.lostUnit then { s with moves := tdel s.moves id } else
    let (_, _, _, k) := moveUnit m.trans m.geom m.sa m.da unit
    let m := { m with next := unit + k, left := m.left - k }
    (s.setMove id m).moveNext id m

/-- A move's check has failed: its trap is precise, and memory is unchanged (R150). -/
def moveFault (s : State) (id cause : Nat) (info : Word) : State :=
  match s.move id with
  | none => s
  | some m =>
    let s := { s with moves := tdel s.moves id }.leaveGateways id
    if (s.fib m.who).cont = .move id then (s.ready m.who).trapEntry m.who cause info false (s.fib m.who).pc else s

end State

/-- MOVE_COMPLETION (R151, R231, R232, R476): the semaphore increments, a move that waits for the queue enters it, and
the fibre's own waits are tested. A move under slot 256 has outlived its fibre (R290). -/
def execMoveCompletion (id : Nat) (s : State) : Out :=
  match s.move id with
  | none => .next s
  | some m =>
    let c := m.who.core
    let s := { s with moves := tdel s.moves id }.leaveGateways id
    let s := s.modCore c fun x => { x with moves := x.moves.filter (· != id) }
    let s := if 256 ≤ m.who.slot then s else s.semInc c m.sem
    let s :=
      match s.moves.find? (fun x => x.2.who.core == c && x.2.checking && (s.fib x.2.who).park == 11 && (s.fib x.2.who).cont == .move x.1) with
      | some (next, w) => s.moveEnter next w
      | none => s
    .next (s.recheck m.who)

end Sys2Proof.Machine
end

