-- ==== Sys2Proof/Machine/EvCircuit.lean ====
section
/-! DEFINITION. The Intercalator and the circuits (02 R25 to R36, R41 to R60; 17 R393; 22 R525): requests,
configuration flits, intercalation and teardown, bursts, lost circuits, and the flits of a slot. -/

namespace Sys2Proof.Machine

/-- The result word of R47. -/
def circWord (code wheel handle : Nat) : Word :=
  word (b2n (code != 0) * 2 ^ 63 + wheel % 2 ^ 32 * 2 ^ 24 + code * 2 ^ 16 + handle % 4096)

/-- The CQRY word of R52, with the slots that every request before it leaves (R393). -/
def cqryWord (c : Circuit) (slots : List Nat) : Word :=
  word (c.state * 2 ^ 61 + c.cls * 2 ^ 58 + slots.length % 1024 * 2 ^ 48 + min c.lat 1023 * 2 ^ 38
    + (sorted slots).headD 0 % 1024 * 2 ^ 28 + c.wc % 2 ^ 28)

/-- A request of the Intercalator is about this circuit, and not about one that has taken its handle since: that one's commit is later.
A LOST circuit is shut at once whatever its commit wheel (a count of 0). -/
def Commit.about (m : Commit) (c : Circuit) : Bool :=
  c.part == m.part && decide (m.cid ≤ c.cid) && decide (c.cid < m.cid + max m.count 1) && (m.count == 0 || decide (c.wc ≤ m.wc))

/-- The slots of a list that fall in [base, t), over all wheels (R36). -/
def slotsBetween (slots : List Nat) (base t : Nat) : Nat :=
  (slots.map fun x => (t + 1023 - x) / 1024 - (base + 1023 - x) / 1024).foldl (· + ·) 0

/-- An absolute root slot falls in a burst of the circuit (R36, R51). -/
def inBurst (c : Circuit) (t : Nat) : Bool :=
  let within (base b : Nat) : Bool := decide (base ≤ t) && decide (slotsBetween c.slots base t < b)
  match c.armed with
  | some (ws, b) => if ws * 1024 ≤ t then within (ws * 1024) b else
    (match c.burst with | some (base, b) => within base b | none => false)
  | none => match c.burst with | some (base, b) => within base b | none => false

/-! ## Almanacs (R59, R60) -/

/-- An endpoint of an almanac entry: a tile, or a package link; none where it is neither. -/
def almanacEnd (v : Nat) : Option (Nat ⊕ Nat) :=
  if bitN v 15 then (if v % 2 ^ 15 < 12 then some (.inr (v % 2 ^ 15)) else none)
  else if v < 2 ^ 14 ∧ bits v 7 6 = 0 ∧ bits v 5 0 ≤ 47 ∧ bits v 13 8 ≤ 31 then some (.inl (48 * bits v 13 8 + bits v 5 0))
  else none

/-- An almanac's header is refused (R60). -/
def almanacHeaderBad (bs : List Byte) : Bool :=
  let n := sliceNat bs 4 2
  sliceNat bs 0 4 != 0x4E4D4C41 || sliceNat bs 6 2 != 1 || n == 0 || decide (256 < n) || sliceNat bs 16 8 != 0
    || sliceNat bs 28 36 != 0

namespace State

/-- A circuit of a partition. -/
def circuit (s : State) (p cid : Nat) : Option Circuit := s.pkg.circuits.find? fun c => c.part == p && c.cid == cid

/-- Change a circuit of a partition. -/
def modCircuit (s : State) (p cid : Nat) (h : Circuit → Circuit) : State :=
  s.modPkg fun k => { k with circuits := k.circuits.map fun c => if c.part == p && c.cid == cid then h c else c }

/-- Change the Intercalator. -/
def modIc (s : State) (h : Intercalator → Intercalator) : State := s.modPkg fun p => { p with ic := h p.ic }

/-- A package link of the device. -/
def plink (s : State) (l : Nat) : PLink := tget {} s.pkg.plinks l
def modPlink (s : State) (l : Nat) (h : PLink → PLink) : State :=
  s.modPkg fun p => { p with plinks := tset p.plinks l (h (tget {} p.plinks l)) }

/-- The entries that a partition's circuits hold (R48, R131). -/
def entriesHeld (s : State) (p : Nat) : Nat :=
  ((s.pkg.circuits.filter fun c => c.part == p).map circEntries).foldl (· + ·) 0

/-- A result leaves the Intercalator for its fibre (R44). -/
def circReply (s : State) (f : FibreRef) (p : Nat) (w : Word) : State :=
  (s.modIc fun i => { i with results := i.results ++ [(f, w)] }).inject ioNode
    { reply := true, part := p, dst := coreNode f.core, ev := some (.circuitResult f), since := s.clock + 1 }

/-- The handle that a request names (R47). -/
def circNamed (r : CircReq) : Nat := if r.fn = 0 then 0 else field r.a 11 0

/-- A request arrives: BUSY at once when 64 wait (R44); a CQRY that is refused so gets the word of R47 too (DESIGN CHOICE, log 72). -/
def circArrive (s : State) (r : CircReq) : State :=
  if 64 ≤ s.pkg.ic.queue.length then s.circReply r.who r.part (circWord 6 0 (circNamed r))
  else (s.modIc fun i => { i with queue := i.queue ++ [{ r with since := s.clock }] }).schedOnce s.clock .intercalatorRequest

/-- A request fails (R44, R47). -/
def circFail (s : State) (r : CircReq) (code wheel : Nat) : State :=
  s.circReply r.who r.part (circWord code wheel (circNamed r))

/-- The free runs of n consecutive handles of a partition (R525). -/
def freeHandles (s : State) (p n : Nat) : List Nat :=
  let used := (s.pkg.circuits.filter fun c => c.part == p).map fun c => c.cid
  (List.range (4096 - n)).map (· + 1) |>.filter fun c => !used.any fun u => decide (c ≤ u) && decide (u < c + n)

/-- The handle that a request takes among the free ones: a free choice (R525; log 5). -/
def takeHandle (s : State) (p n : Nat) : Option (Nat × State) :=
  let l := s.freeHandles p n
  if l.isEmpty then none
  else some (lget 0 l (Config.pickCid s.fresh % l.length), { s with fresh := s.fresh + 1 })

/-- Configuration flits that a list of records needs in its busiest column, at least one (R41). -/
def flitsNeeded (q : List (Nat × CRecord)) : Nat :=
  ((List.range 48).map fun x =>
    ((List.range 3).map fun a => ceilDiv (q.filter fun r => r.1 == a && r.2.x == x).length 3).foldl (· + ·) 0).foldl max 1

/-- The Intercalator begins to send the records of a request that it has accepted (R44). -/
def circBegin (s : State) (r : CircReq) (cid count : Nat) (queue : List (Nat × CRecord)) (add remove : List Nat)
    (arm : Option (Nat × Nat)) : State :=
  s.modIc fun i => { i with
    active := some { seq := i.seq, who := r.who, part := r.part, cid, count, fn := r.fn, queue, sent := [], wc := 0,
                     add, remove, arm } }

/-- COPEN of classes 0 to 3 at the Intercalator (R48, R49). -/
def copenTake (s : State) (r : CircReq) : State :=
  let cls := field r.a 63 61
  let k := field r.a 53 44
  let phase := max (field r.a 43 34) 1
  let p := r.part
  let dst := 48 * field r.b 13 8 + field r.b 5 0
  let ends := if cls = 0 then (if (s.tilesOf p).contains dst then [dst] else []) else s.scopeTiles p r.b
  if ends.isEmpty ∨ (2 ≤ cls ∧ !ends.contains r.tile) then s.circFail r 4 0
  else
    let (hs, l) := buildRoute cls r.tile p (field r.a 60 57) ends
    if 1023 < l ∨ (hopDies hs).any (fun d => !s.dieOpen d) then s.circFail r 1 0
    else match s.takeHandle p 1 with
      | none => s.circFail r 5 0
      | some (cid, s) =>
        let hs := hs.map fun h : Hop => (h.1, h.2.1, h.2.2.1, entryWithCid h.2.2.2 cid)
        if (s.part p).budget < s.entriesHeld p + k * (tileHops hs).length then s.circFail r 3 0
        else match chooseSlots s.pkg.circuits hs phase k (bitN r.a.toNat 33) with
          | none => s.circFail r 2 0
          | some slots =>
            let q := (recordsOf hs slots).map fun x => (0, x)
            let c : Circuit := { part := p, cid, cls, state := 1, slots := sorted slots, pend := [], lat := l,
                                 wc := s.wheel + flitsNeeded q + 16, start := 0, hops := hs, posns := [], armed := none,
                                 burst := none }
            (s.modPkg fun k => { k with circuits := k.circuits ++ [c] }).circBegin r cid 1 q (sorted slots) [] none

/-- One entry of an almanac as a circuit without a handle, when R60 finds no fault in it; `taken` and `out` are the
positions towards the device and towards the peer that entries before it hold (R57). Between two package links a flit departs
4 slots after its release, at the lowest position of that slot that is free (log 71). -/
def almanacEntry (s : State) (p : Nat) (taken out : List (Nat × Nat)) (start : Nat) (e : List Byte) : Option Circuit :=
  let first := sliceNat e 4 2
  let count := sliceNat e 6 2
  let stride := sliceNat e 8 2
  let own (n : Nat) : Bool := (s.tilesOf p).contains n
  let seq := (List.range count).map fun j => first + j * stride
  let room (l : Nat) (used : List (Nat × (Nat × Nat))) (mine : List (Nat × Nat)) (xs : List Nat) : Bool :=
    decide (used.length + (mine.filter fun x => x.1 == l).length + count ≤ 1438) && xs.all fun x =>
      decide (2 ≤ x) && decide (x < 1536) && !mine.contains (l, x) && !used.any fun u => u.1 == x
  let mk (slots : List Nat) (lat : Nat) (hs : List Hop) (points : List Nat) (posns posnsOut : List (Nat × Nat)) : Option Circuit :=
    if slots.any (fun t => t == 0 || (hs.any fun h => (t + h.2.2.1) % 1024 == 0) || points.any fun o => (t + o) % 1024 == 0)
      ∨ slots.eraseDups.length ≠ slots.length then none
    else some { part := p, cid := 0, cls := 4, state := 1, slots, pend := [], lat, wc := 0, start, hops := hs, posns,
                posnsOut, armed := none, burst := none }
  if sliceNat e 10 6 ≠ 0 ∨ count = 0 ∨ 959 < count ∨ stride = 0 ∨ 1023 < stride then none
  else match almanacEnd (sliceNat e 0 2), almanacEnd (sliceNat e 2 2) with
    | some (.inl a), some (.inl b) =>
      let hs := xyPath p b pathFuel a 4 0
      if own a ∧ own b ∧ first ≤ 1023 then mk (seq.map (· % 1024)) (xyLat b pathFuel a) (hs ++ ioHops hs) [] [] []
      else none
    | some (.inl a), some (.inr l) =>
      let (hs, d) := bridgePath p pathFuel a 4 0
      if own a ∧ room l (s.plink l).usedOut out seq then
        mk (seq.map fun x => (posnSlot x + 2048 - (d + 4)) % 1024) (d + 4) hs [d] [] (seq.map fun x => (l, x))
      else none
    | some (.inr l), some (.inl b) =>
      let edge := if tileY b < 16 then 48 * 15 + tileX b else 48 * 16 + tileX b
      let src := if tileY b < 16 then 2 else 0
      let ch := if tileY b < 16 then tileX b else 48 + tileX b
      if own b ∧ room l (s.plink l).used taken seq then
        mk (seq.map fun x => (posnSlot x + (s.plink l).d) % 1024) (16 + xyLat b pathFuel edge)
          ((ioNode, ch, 4, mkEntry 4 p 0 0 0) :: xyPath p b pathFuel edge src 16) [] (seq.map fun x => (l, x)) []
      else none
    | some (.inr l), some (.inr j) =>
      let held := ((s.plink j).usedOut.map fun u => u.1) ++ (out.filter fun x => x.1 == j).map fun x => x.2
      let slots := seq.map fun x => (posnSlot x + (s.plink l).d) % 1024
      let outs := slots.filterMap fun t => posnOf ((t + 4) % 1024) held
      if room l (s.plink l).used taken seq ∧ outs.length = count ∧ room j (s.plink j).usedOut out outs then
        mk slots 4 [] [4] (seq.map fun x => (l, x)) (outs.map fun x => (j, x))
      else none
    | _, _ => none

/-- The circuits of an almanac's entries in order, or the index of the first that is refused (R60). -/
def almanacCircuits (s : State) (p start : Nat) :
    Nat → List (Nat × Nat) → List (Nat × Nat) → List (List Byte) → Except Nat (List Circuit)
  | _, _, _, [] => .ok []
  | i, taken, out, e :: es =>
    match s.almanacEntry p taken out start e with
    | none => .error i
    | some c =>
      match s.almanacCircuits p start (i + 1) (taken ++ c.posns) (out ++ c.posnsOut) es with
      | .error j => .error j
      | .ok l => .ok (c :: l)

/-- The package links that an almanac names. -/
def almanacLinks (cs : List Circuit) : List Nat := ((cs.flatMap fun c => (c.posns ++ c.posnsOut).map fun x : Nat × Nat => x.1)).eraseDups

/-- COPEN of class 4 at the Intercalator (R48, R49, R59, R60). -/
def copenAlmanac (s : State) (r : CircReq) : State :=
  let bs := r.block
  let p := r.part
  let n := sliceNat bs 4 2
  let start := sliceNat bs 8 8
  let entries := (List.range (if 256 < n then 0 else n)).map fun i => slice bs (64 + 16 * i) 16
  let foreign := entries.any fun e =>
    [0, 2].any fun o => match almanacEnd (sliceNat e o 2) with
      | some (.inl t) => !(s.tilesOf p).contains t
      | _ => false
  if foreign then s.circFail r 4 0
  else if almanacHeaderBad bs then s.circFail r 10 0xFFFFFFFF
  else match s.almanacCircuits p start 0 [] [] entries with
    | .error i => s.circFail r 10 i
    | .ok cs =>
      let links := almanacLinks cs
      if links.any (fun l => (s.plink l).peer != sliceNat bs 24 4) then s.circFail r 11 0
      else if links.any (fun l => (s.plink l).lost) ∨ cs.any (fun c => decide (1023 < c.lat) || (hopDies c.hops).any fun d => !s.dieOpen d)
      then s.circFail r 1 0
      else
        let q := cs.flatMap fun c => (recordsOf c.hops c.slots).map fun x => (0, x)
        if start < s.wheel + flitsNeeded q + 16 then s.circFail r 9 0
        else match s.takeHandle p n with
          | none => s.circFail r 5 0
          | some (cid, s) =>
            let named := cs.zipIdx.map fun x : Circuit × Nat =>
              { x.1 with cid := cid + x.2,
                         hops := x.1.hops.map fun h : Hop => (h.1, h.2.1, h.2.2.1, entryWithCid h.2.2.2 (cid + x.2)) }
            let need := (named.map circEntries).foldl (· + ·) 0
            let clash := (named.foldl (fun (acc : Bool × List Circuit) c =>
              (acc.1 || c.slots.any (fun t => !diagonalFree acc.2 c.hops (c.slots.length - 1) t), acc.2 ++ [c]))
              (false, s.pkg.circuits)).1
            if (s.part p).budget < s.entriesHeld p + need then s.circFail r 3 0
            else if clash then s.circFail r 2 0
            else
              let s := s.modPkg fun k => { k with circuits := k.circuits ++ named }
              let s := named.foldl (fun s c => c.posnsOut.foldl (fun s x =>
                s.modPlink x.1 fun l => { l with usedOut := l.usedOut ++ [(x.2, (p, c.cid))] }) (c.posns.foldl (fun s x =>
                s.modPlink x.1 fun l => { l with used := l.used ++ [(x.2, (p, c.cid))] }) s)) s
              s.circBegin r cid n (named.flatMap fun c => (recordsOf c.hops c.slots).map fun x => (0, x)) [] [] none

/-- CSHUT at the Intercalator (R50, R393): a LOST circuit shuts at once. -/
def cshutTake (s : State) (r : CircReq) (c : Circuit) : State :=
  if c.state = 4 then s.circFail r 8 0
  else
    let t := s.modCircuit c.part c.cid fun x => { x with state := 4 }
    if c.state = 3 then
      let m : Commit := { seq := s.pkg.ic.seq, who := r.who, part := r.part, cid := c.cid, count := 0, fn := 1, queue := [],
                          sent := [], wc := s.wheel, add := [], remove := [], arm := none }
      (t.modIc fun i => { i with commits := i.commits ++ [m] }).sched ((s.wheel + 1) * 1024) (.deferredClear m.seq)
    else t.circBegin r c.cid 1 ((recordsOf c.hops (circSlots c)).map fun x => (clearAction x, x)) [] [] none

/-- The slots that a circuit has once every resize accepted before has committed (R44, R393). -/
def slotsAhead (s : State) (c : Circuit) : List Nat :=
  (s.pkg.ic.commits.filter fun m => m.about c && m.fn == 2).foldl
    (fun l m => (l.filter fun t => !m.remove.contains t) ++ m.add.filter fun t => !l.contains t) c.slots

/-- CRSZ at the Intercalator (R51, R393): it starts from the K that the resizes before it leave. -/
def crszTake (s : State) (r : CircReq) (c : Circuit) : State :=
  let k := r.b.toNat
  let n := (s.slotsAhead c).length
  if c.state = 3 ∨ c.state = 4 ∨ c.cls = 4 then s.circFail r 8 0
  else if n < k then
    if (s.part c.part).budget < s.entriesHeld c.part + (k - n) * (tileHops c.hops).length then s.circFail r 3 0
    else match chooseSlots s.pkg.circuits c.hops 1 (k - n) false with
      | none => s.circFail r 2 0
      | some l =>
        (s.modCircuit c.part c.cid fun x => { x with pend := x.pend ++ l }).circBegin r c.cid 1
          ((recordsOf c.hops l).map fun x => (0, x)) l [] none
  else
    let rem := (sorted (s.slotsAhead c)).drop k
    s.circBegin r c.cid 1 ((recordsOf c.hops rem).map fun x => (clearAction x, x)) [] rem none

/-- CRSZ.ARM at the Intercalator (R51, R393): the commit wheel of an arm is 16 wheels after its one flit. -/
def armTake (s : State) (r : CircReq) (c : Circuit) : State :=
  if c.state = 3 ∨ c.state = 4 ∨ (c.cls ≠ 2 ∧ c.cls ≠ 3) then s.circFail r 8 0
  else if r.b.toNat < s.wheel + 17 then s.circFail r 9 0
  else s.circBegin r c.cid 1 [] [] [] (some (r.b.toNat, field r.a 31 16))

/-- The Intercalator takes a request (R44, R48); its time in the queue is added to what its fibre has waited (R349). -/
def circTake (s : State) (r : CircReq) : State :=
  let s := s.modFib r.who fun x => { x with delay := x.delay + s.waitedSince r.part r.since }
  let s := s.modIc fun i => { i with seq := (i.seq + 1) % 65536, accepted := (i.seq + 1) % 65536 }
  let c := s.circuit r.part (field r.a 11 0)
  match r.fn, c with
  | 0, _ => if field r.a 63 61 = 4 then s.copenAlmanac r else s.copenTake r
  | 4, some c => s.circReply r.who r.part (cqryWord c (s.slotsAhead c))
  | 4, none => s.circReply r.who r.part 0
  | 1, some c => s.cshutTake r c
  | 2, some c => s.crszTake r c
  | 3, some c => s.armTake r c
  | _, _ => s.circFail r 7 0

/-! ## Tables -/

/-- Write or clear the entries of a record; slot 0 stays (R26). -/
def putRecord (s : State) (r : CRecord) (write : Bool) : State :=
  s.modTile (48 * r.y + r.x) fun t => { t with
    slots := (recordSlots r).foldl (fun l x =>
      if x = 0 then l else if write then tset l (r.tbl, x) r.entry else tdel l (r.tbl, x)) t.slots }

/-- The Intercalator writes or clears entries of the I/O die's tables (R41); slot 0 stays. -/
def putIo (s : State) (l : List ((Nat × Nat) × Entry)) (write : Bool) : State :=
  s.modPkg fun k => { k with ioSlots := l.foldl (fun t e =>
    if e.1.2 = 0 then t else if write then tset t e.1 e.2 else tdel t e.1) k.ioSlots }

/-- Clear every entry that a circuit holds. -/
def clearHops (s : State) (c : Circuit) : State :=
  ((recordsOf c.hops (circSlots c)).foldl (fun s r => s.putRecord r false) s).putIo (ioEntries c.hops (circSlots c)) false

/-- A record of a request still has its circuit: one that is or was LOST has its slots freed at the wheel boundary, whatever is
staged (R54). -/
def recordLive (s : State) (m : Commit) (r : CRecord) : Bool :=
  (s.circuit (entryPtag r.entry) (entryCid r.entry)).any fun c => c.state != 3 && !c.hops.isEmpty && m.about c

/-- Apply the staged records of a request with some actions and drop them (R43). -/
def applyStaged (s : State) (m : Commit) (acts : List Nat) : State :=
  let seq := m.seq
  (s.tiles.filter fun t : Nat × Tile => t.2.shadow.any fun st => st.seq == seq && acts.contains st.action).foldl (fun s t =>
    let mine := t.2.shadow.filter fun st => st.seq == seq && acts.contains st.action
    let s := s.modTile t.1 fun x => { x with shadow := x.shadow.filter fun st => !(st.seq == seq && acts.contains st.action) }
    mine.foldl (fun s st => (st.recs.filter (s.recordLive m)).foldl (fun s r => s.putRecord r (st.action == 0)) s) s) s

/-- Release every stream register bound to a circuit: what has not been injected is discarded and counted
(R50). The LOST bit of a register whose circuit was LOST stays, so that SPOP there still traps CIRCUIT_LOST (DESIGN CHOICE, log 103). -/
def releaseBindings (s : State) (p cid : Nat) : State :=
  (s.tilesOf p).foldl (fun s n => (List.range 3).foldl (fun s kind =>
    let c := coreOf n kind
    ((s.core c).streams.filter fun x : Nat × Stream => x.2.bound && x.2.cid == cid).foldl (fun s x =>
      let r := x.2
      let s := if r.inj then (s.countDrops c (heldFlits r)).setStrm c x.1 { r with bound := false, fifo := [], seen := [], part := [] }
        else s.setStrm c x.1 { r with bound := false }
      s.strmWake c x.1) s) s) s

/-- A circuit becomes LOST, one that is CLOSING too; its stream registers say so, and discard what they have not sent (R54, R468). -/
def loseCircuit (s : State) (c : Circuit) : State :=
  if c.state = 3 then s else
  let s := s.modCircuit c.part c.cid fun x => { x with state := 3 }
  (s.tilesOf c.part).foldl (fun s n => (List.range 3).foldl (fun s kind =>
    let o := coreOf n kind
    ((s.core o).streams.filter fun x : Nat × Stream => x.2.bound && x.2.cid == c.cid).foldl (fun s x =>
      (s.setStrm o x.1 (if x.2.inj then { x.2 with lost := true, fifo := [], seen := [], part := [] } else { x.2 with lost := true })).strmWake
        o x.1) s) s) s

/-- Every circuit that a condition names becomes LOST (R54). -/
def loseCircuits (s : State) (sel : Circuit → Bool) : State :=
  (s.pkg.circuits.filter sel).foldl (fun s c => s.loseCircuit c) s

/-- Forget a circuit and the positions it holds (R43, R525). -/
def dropCircuit (s : State) (p cid : Nat) : State :=
  s.modPkg fun k => { k with
    circuits := k.circuits.filter fun c => !(c.part == p && c.cid == cid)
    plinks := k.plinks.map fun l : Nat × PLink =>
      (l.1, { l.2 with used := l.2.used.filter (fun u => u.2 != (p, cid)), usedOut := l.2.usedOut.filter fun u => u.2 != (p, cid) }) }

/-- A resize commits: the slots change, and a running burst goes on with the new slots (R51, R36). -/
def resized (clock : Nat) (m : Commit) (c : Circuit) : Circuit :=
  { c with
    slots := sorted ((c.slots.filter fun t => !m.remove.contains t) ++ m.add)
    pend := (c.pend.filter fun t => !m.add.contains t) ++ m.remove
    burst := c.burst.map fun b => if b.1 ≤ clock then (clock, b.2 - slotsBetween c.slots b.1 clock) else b }

/-! ## Flits of a slot -/

/-- The stream register of a tile that injects into a circuit, or receives from it: core and number. -/
def boundStrm (s : State) (n p cid : Nat) (inj : Bool) : Option (CoreId × Nat) :=
  if (s.tile n).ptag ≠ p then none else
  ((List.range 3).flatMap fun kind =>
    ((s.core (coreOf n kind)).streams.filter fun x : Nat × Stream => x.2.bound && x.2.inj == inj && x.2.cid == cid).map
      fun x => (coreOf n kind, x.1)).head?

/-- A circuit injects at a hop in this slot: an open circuit in each of its slots from its start wheel, a
reduction only in a burst (R36, R49); none from the commit wheel of its teardown (R43). The slots of a burst are counted at the root,
so that a feed which injects before slot 0 of Ws for a root slot of Ws has its place in the burst (DESIGN CHOICE, log 104). -/
def mayInject (s : State) (c : Circuit) (n tbl : Nat) : Bool :=
  (c.state == 2 || c.state == 4 && !s.pkg.ic.commits.any fun m =>
      m.fn == 1 && m.about c && decide (m.wc * 1024 ≤ s.clock)) && decide (c.start * 1024 ≤ s.clock) &&
    ((c.cls != 2 && c.cls != 3) || c.hops.any fun h =>
      let t := s.clock + (1024 - h.2.2.1) % 1024
      h.1 == n && h.2.1 == tbl && c.slots.contains (t % 1024) && inBurst c t)

/-- The flit that a tile's local port injects for a circuit in this slot, and the state without it (R29, R36). -/
def injectFlit (s : State) (n p cid tbl : Nat) : Option CFlit × State :=
  match s.circuit p cid, s.boundStrm n p cid true with
  | some c, some (o, r) =>
    if !s.mayInject c n tbl then (none, s) else
    let st := s.strm o r
    match st.fifo, st.seen with
    | x :: l, t :: ts =>
      if t ≤ s.clock then
        (some { data := x, empty := false, miss := false, cid, part := p },
         (s.setStrm o r { st with fifo := l, seen := ts }).strmWake o r)
      else (none, s)
    | _, _ => (none, s)
  | _, _ => (none, s)

/-- A flit leaves the local port of a tile: into its stream register, or dropped and counted (R28, R35). -/
def ejectFlit (s : State) (n : Nat) (e : Entry) (x : CFlit) : State :=
  let drop := (s.modTile n fun t => { t with drops := t.drops + 1 }).countTile n 0x40 1
  if (s.tile n).ptag ≠ entryPtag e then drop
  else match s.boundStrm n (entryPtag e) (entryCid e) false with
    | none => drop
    | some (o, r) =>
      let st := s.strm o r
      if 64 ≤ st.fifo.length then drop
      else
        let s := s.setStrm o r { st with fifo := st.fifo ++ [x.data], seen := st.seen ++ [s.clock + 2], miss := st.miss || x.miss }
        if x.miss then s.countTile n 0x41 1 else s

end State

/-! ## Combining (R33 to R35) -/

/-- One lane of ⊕ of a combine operation but BF16 (R33, R34). -/
def combineLane (cop a b : Nat) : Nat :=
  match cop with
  | 0 => (fpAddCodes fmt32 0 a b).1
  | 1 => (a + b) % 2 ^ 32
  | 2 => (a + b) % 2 ^ 64
  | 3 => fpMinMax fmt32 false a b
  | 4 => fpMinMax fmt32 true a b
  | 5 => if sext b 32 < sext a 32 then b else a
  | 6 => if sext a 32 < sext b 32 then b else a
  | 7 => a &&& b
  | 8 => a ||| b
  | 9 => a ^^^ b
  | _ => (fpAddCodes fmt32 0 a b).1

/-- The lane width of a combine operation (R33). -/
def combineBits (cop : Nat) : Nat := if cop = 2 ∨ (7 ≤ cop ∧ cop ≤ 9) then 64 else if cop = 10 then 16 else 32

/-- The combination of a lane of two or three inputs: BF16 is widened, added in FP32 and rounded once (R34). One input alone
passes as it is, a NaN too (DESIGN CHOICE, log 73). -/
def combineLanes (cop : Nat) : List Nat → Nat
  | [] => 0
  | [x] => x
  | x :: l =>
    if cop = 10 then
      (round fmtBf 0 false (fpDecode fmt32 (l.foldl (fun a b => combineLane cop a (b * 65536)) (x * 65536)))).1
    else l.foldl (combineLane cop) x

/-- The combination of flits, lane by lane. -/
def combineData (cop : Nat) (xs : List (BitVec 512)) : BitVec 512 :=
  let w := combineBits cop
  BitVec.ofNat 512 ((List.range (512 / w)).foldr (fun i acc =>
    combineLanes cop (xs.map fun x => bits x.toNat (w * i + w - 1) (w * i)) + 2 ^ w * acc) 0)

/-- A combine entry over the inputs that it names, in their order: nothing from nothing, MISS when some are
missing (R35). An empty flit is no flit of the state, so that its ejection is never counted as a drop (DESIGN CHOICE, log 73). -/
def combineFlits (cop : Nat) (xs : List (Option CFlit)) : Option CFlit :=
  let here := xs.filterMap fun x => x.filter fun f => !f.empty
  match here with
  | [] => none
  | f :: _ => some { f with data := combineData cop (here.map fun f => f.data),
                            miss := here.any (fun f => f.miss) || here.length != xs.length }

namespace State

/-- The valid entries of a tile in this slot: table and entry (R26), but those of a stopped partition (R273). -/
def entriesNow (s : State) (t : Tile) : List (Nat × Entry) :=
  (List.range 6).filterMap fun b => match tfind t.slots (b, s.slotNo) with
    | some e => if entryV e ∧ !s.stopped (entryPtag e) then some (b, e) else none
    | none => none

/-- The local flits of a tile's entries in this slot, one for each circuit, and the state without them. -/
def localFlits (s : State) (n : Nat) : List (Nat × Entry) → List ((Nat × Nat) × CFlit) → List ((Nat × Nat) × CFlit) × State
  | [], acc => (acc, s)
  | (b, e) :: l, acc =>
    let key := (entryPtag e, entryCid e)
    if !entryLocal e ∨ (tfind acc key).isSome then s.localFlits n l acc
    else
      match s.injectFlit n key.1 key.2 b with
      | (some f, t) => t.localFlits n l (acc ++ [(key, f)])
      | (none, t) => t.localFlits n l acc

/-- What an entry puts out from the flits at its tile (R26, R27, R34). -/
def entryFlit (n : Nat) (t : Tile) (clock : Nat) (wires : List (Nat × Nat × Nat × CFlit)) (loc : List ((Nat × Nat) × CFlit))
    (e : Entry) : Option CFlit :=
  let wire (q : Nat) : Option CFlit := (wires.find? fun w => w.1 == n && w.2.1 == q && w.2.2.1 == clock).map fun w => w.2.2.2
  let here := tfind loc (entryPtag e, entryCid e)
  let loop := match t.loop with
    | some (f, c) => if c + 1 = clock then some f else none
    | none => none
  let src (q : Nat) : Option CFlit := if q < 4 then wire q else if q = 4 then here else loop
  match entrySrc e with
  | 5 => combineFlits (entryCop e) (([0, 1, 2, 3, 4, 5].filter fun q => bitN (entryCmask e) (5 - q)).map src)
  | 6 => loop
  | q => src q

/-- The links that lie between two neighbouring nodes of different dies (R315): die-edge links and, towards or over the
I/O die, bridge-row channels, whose southern half has 256 added to its number. -/
def linksBetween (n m : Nat) : List Nat :=
  let half (k : Nat) : Nat := 64 + tileX k + 256 * b2n (decide (16 ≤ tileY k))
  if n = ioNode then (if m = ioNode then [] else [half m])
  else if m = ioNode then [half n]
  else if tileDie n = tileDie m then []
  else if tileY n = tileY m then [16 * (min (tileX n) (tileX m) / 16 + 2 * (tileY n / 16)) + tileY n % 16]
  else [half n, half m]

/-- Two neighbouring nodes may exchange traffic: their dies are OPEN, and no link between them is closed (R297, R318). -/
def linkOpen (s : State) (n m : Nat) : Bool :=
  let ok (k : Nat) : Bool := k == ioNode || s.dieOpen (tileDie k)
  let ls := linksBetween n m
  ls.isEmpty || (ok n && ok m && !ls.any fun l => (tget {} s.pkg.links l).closed.any (· ≤ s.clock))

/-- An entry of the I/O die's table of a port carries a circuit in a slot (R24, R41). -/
def ioCarries (s : State) (ch slot p cid : Nat) : Bool :=
  (tfind s.pkg.ioSlots (ch, slot % 1024)).any fun e => entryV e && entryPtag e == p && entryCid e == cid

/-- The package link and the position at which a circuit's flit departs in a slot (R57). -/
def departs (s : State) (slot p cid : Nat) : Option (Nat × Nat) :=
  s.pkg.plinks.findSome? fun l : Nat × PLink =>
    (l.2.usedOut.find? fun u => u.2 == (p, cid) && posnSlot u.1 == slot % 1024).map fun u => (l.1, u.1)

/-- The port of the I/O die into the other channel of the column, for a tile's output onto the bridge row (R12). -/
def bridgeOut (n b : Nat) : Option Nat :=
  if tileY n = 15 ∧ b = 2 then some (48 + tileX n) else if tileY n = 16 ∧ b = 0 then some (tileX n) else none

/-- A flit is dropped at a tile's boundary and counted (R28, R297). -/
def dropAt (s : State) (n : Nat) : State := (s.modTile n fun t => { t with drops := t.drops + 1 }).countTile n 0x40 1

/-- Put out the flit of one entry; at the boundary of a die that is not OPEN it is dropped and counted (R297). On the bridge row
it crosses where the I/O die's table says so, and otherwise leaves for a package link, 4 slots after it has reached the I/O die
(R12, R58). The die spends a flit's tokens (R359). -/
def putFlit (s : State) (n b : Nat) (e : Entry) (x : Option CFlit) : State :=
  match x with
  | none => s
  | some f =>
    let s := s.spend (tileDie n) 3
    if b = 4 then s.ejectFlit n e f
    else if b = 5 then s.modTile n fun t => { t with loop := some (f, s.clock) }
    else
      let (m, q, d) := neighbour n b
      let cross := (bridgeOut n b).all fun ch => s.ioCarries ch s.slotNo (entryPtag e) (entryCid e)
      if cross then
        if s.linkOpen n m then s.modPkg fun p => { p with wires := p.wires ++ [(m, q, s.clock + d, f)] } else s.dropAt n
      else match s.departs (s.slotNo + 16) (entryPtag e) (entryCid e) with
        | some (l, u) =>
          if s.linkOpen n ioNode then s.modPlink l fun p => { p with tx := p.tx ++ [(s.clock + 16, u, f)] } else s.dropAt n
        | none => s.dropAt n

/-- The circuit flits of a tile in this slot (R25). -/
def tileFlits (s : State) (n : Nat) : State :=
  let t := s.tile n
  let es := s.entriesNow t
  let wires := s.pkg.wires
  let (loc, s) := s.localFlits n es []
  (es.map fun x : Nat × Entry => (x.1, x.2, entryFlit n t s.clock wires loc x.2)).foldl (fun s x => s.putFlit n x.1 x.2.1 x.2.2) s

end State

/-! ## The events -/

/-- INTERCALATOR_REQUEST (R44): one request at a time. -/
def execIntercalatorRequest (s : State) : Out :=
  match s.pkg.ic.active, s.pkg.ic.queue with
  | none, r :: rest =>
    let s := (s.modIc fun i => { i with queue := rest }).circTake r
    .next (if rest.isEmpty then s else s.schedOnce s.clock .intercalatorRequest)
  | _, _ => .next s

/-- CONFIGURATION_FLIT (R41, R44): one flit for each column that still has records, of one action and three records each, so that the
last leaves in the wheel that the busiest column needs (log 105). With the last, the commit wheel is fixed and the next request is
taken. -/
def execConfigurationFlit (s : State) : Out :=
  match s.pkg.ic.active with
  | none => .next s
  | some m =>
    let cols := (m.queue.map fun r : Nat × CRecord => r.2.x).eraseDups
    let flits := cols.map fun x =>
      let q := m.queue.filter fun r : Nat × CRecord => r.2.x == x
      let a := match q with | r :: _ => r.1 | [] => 0
      (s.wheel, x, a, ((q.filter fun r => r.1 == a).take 3).map fun r => r.2)
    let gone (r : Nat × CRecord) : Bool := flits.any fun f => f.2.2.1 == r.1 && f.2.2.2.contains r.2
    let m := { m with queue := m.queue.filter (fun r => !gone r), sent := m.sent ++ flits }
    let s := cols.foldl (fun s x => (s.now (.configForward x 15)).now (.configForward x 16)) s
    if !m.queue.isEmpty then .next (s.modIc fun i => { i with active := some m })
    else
      let wc := s.wheel + 16
      let s := s.modIc fun i => { i with active := none, commits := i.commits ++ [{ m with wc }] }
      let s := if m.fn = 0 then (List.range m.count).foldl (fun s j =>
        s.modCircuit m.part (m.cid + j) fun c => { c with wc }) s else s
      let s := s.sched (wc * 1024) (.intercalation m.seq)
      let s := if m.fn = 1 ∨ !m.remove.isEmpty then s.sched ((wc + 1) * 1024) (.deferredClear m.seq) else s
      .next (s.schedOnce s.clock .intercalatorRequest)

/-- CONFIG_FORWARD (R42): the router stages the records for its tile of the flit that reaches it in this wheel, as far as its
64 records go (DESIGN CHOICE, log 74), and the flit goes on in the next. A die that is not OPEN carries none (R13, R297). -/
def execConfigForward (x y : Nat) (s : State) : Out :=
  let j := if y ≤ 15 then 15 - y else y - 16
  let ms := s.pkg.ic.commits ++ s.pkg.ic.active.toList
  let here := ms.flatMap fun m => (m.sent.filter fun f : Nat × Nat × Nat × List CRecord => f.1 + j == s.wheel && f.2.1 == x).map fun f =>
    ({ seq := m.seq, action := f.2.2.1, recs := f.2.2.2.filter fun r => r.y == y } : Staged)
  let mine := here.filter fun st => !st.recs.isEmpty
  let n := 48 * y + x
  let held := ((s.tile n).shadow.map fun st => st.recs.length).foldl (· + ·) 0
  let fit := (mine.foldl (fun (acc : Nat × List Staged) st =>
    let recs := st.recs.take (64 - acc.1)
    (acc.1 + recs.length, if recs.isEmpty then acc.2 else acc.2 ++ [{ st with recs }])) (held, [])).2
  let ok := s.dieOpen (tileDie n)
  let s := if fit.isEmpty ∨ !ok then s else s.modTile n fun t => { t with shadow := t.shadow ++ fit }
  let on := !here.isEmpty && y != 0 && y != 31 && ok
  .next (if on then s.sched (s.clock + 1024) (.configForward x (if y ≤ 15 then y - 1 else y + 1)) else s)

/-- INTERCALATION (R43, R44): staged writes become current, injection entries of a teardown are cleared, and
the result of COPEN, CRSZ and CRSZ.ARM leaves. A COPEN some of whose circuits have become LOST before Wc has succeeded all the same: its
result is OK, with its handle (DESIGN CHOICE, log 106). -/
def execIntercalation (seq : Nat) (s : State) : Out :=
  match s.pkg.ic.commits.find? fun m => m.seq == seq with
  | none => .next s
  | some m =>
    let s := s.applyStaged m [0, 1]
    let live := s.pkg.circuits.filter fun c => m.about c && c.state != 3
    let change (s : State) (h : Circuit → Circuit) : State :=
      s.modPkg fun k => { k with circuits := k.circuits.map fun c => if m.about c then h c else c }
    let s := if m.fn = 0 ∨ m.fn = 2 then
        live.foldl (fun s c => s.putIo (ioEntries c.hops (if m.fn = 0 then circSlots c else m.add)) true) s
      else s
    let keep := m.fn == 1 || !m.remove.isEmpty
    let s := if keep then s else s.modIc fun i => { i with commits := i.commits.filter fun x => x.seq != seq }
    let ok (w : Nat) : Word := circWord 0 w m.cid
    match m.fn with
    | 0 =>
      let s := change s fun c => { c with state := if c.state = 1 then 2 else c.state }
      .next (s.circReply m.who m.part (ok m.wc))
    | 2 => .next ((change s (State.resized s.clock m)).circReply m.who m.part (ok m.wc))
    | 3 =>
      match m.arm with
      | none => .next s
      | some (ws, b) =>
        let s := change s fun c => { c with armed := some (ws, b) }
        .next ((s.sched (ws * 1024) (.burstStart m.part m.cid)).circReply m.who m.part (ok ws))
    | _ => .next s

/-- DEFERRED_CLEAR (R43, R50): the other entries of a teardown are cleared; a shut circuit's bindings are
released, its handle is free and its result leaves, also where the circuit became LOST and another CSHUT has freed it. -/
def execDeferredClear (seq : Nat) (s : State) : Out :=
  match s.pkg.ic.commits.find? fun m => m.seq == seq with
  | none => .next s
  | some m =>
    let s := s.applyStaged m [2]
    let s := s.modIc fun i => { i with commits := i.commits.filter fun x => x.seq != seq }
    if m.fn ≠ 1 then
      match (s.circuit m.part m.cid).filter m.about with
      | none => .next s
      | some c =>
        let s := if c.state = 3 then s else s.putIo (ioEntries c.hops m.remove) false
        .next (s.modCircuit m.part m.cid fun c => { c with pend := c.pend.filter fun t => !m.remove.contains t })
    else match (s.circuit m.part m.cid).filter m.about with
      | none => .next (s.circReply m.who m.part (circWord 0 m.wc m.cid))
      | some c =>
        let s := ((s.clearHops c).releaseBindings m.part m.cid).dropCircuit m.part m.cid
        .next (s.circReply m.who m.part (circWord 0 m.wc m.cid))

/-- CIRCUIT_RESULT (R44, R53, R349). -/
def execCircuitResult (f : FibreRef) (s : State) : Out :=
  match s.pkg.ic.results.find? fun r : FibreRef × Word => r.1 == f with
  | none => .next s
  | some (_, w) =>
    let s := s.modIc fun i => { i with results := tdel i.results f }
    let x := s.fib f
    match x.cont with
    | .circ d =>
      let s := (s.setGOf f d w).addDelay f.core 11 x.delay
      .next ((s.modFib f fun x => { x with delay := 0 }).complete f)
    | _ => .next s

/-- LOST_SLOTS_FREE (R54). -/
def execLostSlotsFree (s : State) : Out :=
  .next ((s.pkg.circuits.filter fun c => c.state == 3).foldl (fun s c =>
    let s := (s.clearHops c).modCircuit c.part c.cid fun x => { x with hops := [], posns := [], posnsOut := [] }
    s.modPkg fun k => { k with plinks := k.plinks.map fun l : Nat × PLink =>
      (l.1, { l.2 with used := l.2.used.filter (fun u => u.2 != (c.part, c.cid))
                       usedOut := l.2.usedOut.filter fun u => u.2 != (c.part, c.cid) }) }) s)

/-- BURST_START (R36, R51, R393): the arm of this wheel becomes the running burst. -/
def execBurstStart (p cid : Nat) (s : State) : Out :=
  .next (s.modCircuit p cid fun c =>
    match c.armed with
    | some (ws, b) => if ws * 1024 = s.clock then { c with armed := none, burst := some (s.clock, b) } else c
    | none => c)

/-- The channel of the bridge row for which a flit of a circuit leaves an I/O-die switch port in a slot. -/
def State.ioChannel (s : State) (slot part cid : Nat) : Option Nat := (List.range 96).find? fun ch => s.ioCarries ch slot part cid

/-- The tile of the bridge row that a channel reaches, and its port. -/
def channelTile (ch : Nat) : Nat × Nat := if ch < 48 then (48 * 15 + ch, 2) else (48 * 16 + (ch - 48), 0)

/-- A flit that reaches a package link's receiver for a stopped partition: one that its buffer would release in slots 1 to D of W is
captured, and a later one is dropped and counted at the router for which it was bound (R273, R28). -/
def State.meetStop (s : State) (l d : Nat) (x : Nat × CFlit) : State :=
  let base := (s.part x.2.part).stopW * 1024
  if x.1 ≤ base + d then s.modPart x.2.part fun p => { p with captured := p.captured ++ [(4096 + l, 0, x.1 - base, x.2)] }
  else match s.ioChannel (x.1 % 1024 + 4) x.2.part x.2.cid with
    | some ch => s.dropAt (channelTile ch).1
    | none => s

/-- What the peers send at the positions of open circuits reaches the elastic buffers, of 16 flits each, 4 slots before its
release; and what has departed has left the package (R57, R58; the flits are free, log 10). -/
def State.peerArrivals (s : State) : State :=
  let flits (l : Nat) (p : PLink) : List (Nat × CFlit) :=
    if !p.trained ∨ p.lost then [] else
    p.used.filterMap fun u =>
      if (posnSlot u.1 + p.d + 1020) % 1024 = s.slotNo
          ∧ ((s.circuit u.2.1 u.2.2).any fun c => (c.state == 2 || c.state == 4) && decide (c.start * 1024 ≤ s.clock)) then
        (Config.peerFlit l u.1 s.clock).map fun x => (s.clock + 4, { data := x, empty := false, miss := false, cid := u.2.2, part := u.2.1 })
      else none
  let stopped (x : Nat × CFlit) : Bool := s.stopped x.2.part
  let t := s.modPkg fun k => { k with plinks := k.plinks.map fun l : Nat × PLink =>
    (l.1, { l.2 with elastic := l.2.elastic ++ ((flits l.1 l.2).filter fun x => !stopped x).take (16 - l.2.elastic.length)
                     tx := l.2.tx.filter fun x => decide (s.clock < x.1) }) }
  s.pkg.plinks.foldl (fun t l => ((flits l.1 l.2).filter stopped).foldl (fun t x => t.meetStop l.1 l.2.d x) t) t

/-- The elastic buffers release the flits of this slot into the I/O-die switch; each leaves for its bridge channel or for another
package link 4 slots later, and the router of the bridge row 12 slots after that (R58). -/
def State.releaseElastic (s : State) : State :=
  let due := s.pkg.plinks.flatMap fun l : Nat × PLink => l.2.elastic.filter fun x => decide (x.1 ≤ s.clock)
  let t := s.modPkg fun p => { p with plinks := p.plinks.map fun l : Nat × PLink =>
    (l.1, { l.2 with elastic := l.2.elastic.filter fun x => decide (s.clock < x.1) }) }
  due.foldl (fun t x =>
    match s.ioChannel (s.slotNo + 4) x.2.part x.2.cid with
    | some ch =>
      let n := channelTile ch
      if s.linkOpen ioNode n.1 then t.modPkg fun p => { p with wires := p.wires ++ [(n.1, n.2, s.clock + 16, x.2)] }
      else t.dropAt n.1
    | none =>
      match s.departs (s.slotNo + 4) x.2.part x.2.cid with
      | some (l, u) => t.modPlink l fun p => { p with tx := p.tx ++ [(s.clock + 4, u, x.2)] }
      | none => t) t

/-- CIRCUIT_FLIT (R25, R28, R34, R58): every router puts out the flits of this slot. -/
def execCircuitFlit (s : State) : Out :=
  let s := s.peerArrivals.releaseElastic
  let tiles := (s.tiles.filter fun t : Nat × Tile => !(s.entriesNow t.2).isEmpty).map fun t => t.1
  let s := tiles.foldl (fun s n => s.tileFlits n) s
  .next (s.modPkg fun p => { p with wires := p.wires.filter fun w => decide (s.clock < w.2.2.1) })

end Sys2Proof.Machine
end

