-- ==== Sys2Proof/Machine/Sys.lean ====
section
/-! DEFINITION. The system group: the system registers, SRD, SWR, TRAP, RFT, WFE, BRK, SVC, HALT (16 R372 to
R375; 10 R254 to R262; 14 R343 to R350; 17 R391, R398; 18 R449; 19 R474, R478; 20 R499, R500), and the vector
lease (03 R82 to R86). -/

namespace Sys2Proof.Machine

/-- The privileges for reading and for writing a system register, by number (R373). -/
def sysPriv (n : Nat) : Option (Nat × Nat) :=
  let r (lo hi : Nat) : Bool := decide (lo ≤ n) && decide (n ≤ hi)
  if r 0 6 then some (0, 0)
  else if r 0x10 0x17 then some (1, 1)
  else if r 0x20 0x21 then some (0, 1)
  else if n = 0x22 ∨ n = 0x30 then some (0, 0)
  else if r 0x40 0x43 || r 0x48 0x4B then some (0, 1)
  else if r 0x44 0x47 || r 0x4C 0x4F then some (2, 2)
  else if r 0x50 0x5F || n == 0x60 || r 0x70 0x71 || n == 0x80 then some (0, 0)
  else if n = 0x90 then some (1, 1)
  else if r 0x100 0x1BF || r 0x200 0x23F || r 0x300 0x33F then some (0, 0)
  else none

/-- A shape or math core: the cores that hold vector registers (R83, R262). -/
def isVecCore (c : CoreId) : Bool := !isService c && (c.kind == 1 || c.kind == 2)

/-- CORE of R374. -/
def coreWord (c : CoreId) : Word :=
  let xy := if isService c then 0 else tileY (coreTile c) * 2 ^ 8 + tileX (coreTile c)
  word (c.tile * 2 ^ 24 + c.die * 2 ^ 20 + c.kind * 2 ^ 16 + xy)

/-- BMEM of R243, without WAIT. -/
def bmemWord (b : Barrier) : Nat :=
  b.phase * 2 ^ 48 + b.ahead * 2 ^ 40 + b.arr * 2 ^ 32 + b2n b.en * 2 ^ 31 + b.count * 2 ^ 16 + b.kinds * 2 ^ 8

/-- What a bank's EVSEL reads (R344). -/
def evselWord (b : EvBank) : Word := b.ctl &&& word (2 ^ 62 - 1 + 2 ^ 62)

/-- EVSEL as a write leaves it: OVF is cleared by a one, UNSUP follows EVID (R344, R345). -/
def evselWrite (old v : Word) : Word :=
  let ovf := bitN old.toNat 61 && !bitN v.toNat 61
  word (b2n (!State.evKnown (field v 15 0)) * 2 ^ 62 + b2n ovf * 2 ^ 61 + field v 34 32 * 2 ^ 32
    + b2n (bitN v.toNat 31) * 2 ^ 31 + field v 15 0)

/-- SEIZE (R346): a bank newly seized keeps what the guest sees; a bank given back takes it again. -/
def seizeBanks (new : Nat) (t : Tile) : Tile :=
  (List.range 4).foldl (fun t b =>
    let k := tget ({} : EvBank) t.banks b
    if bitN new b ∧ !bitN t.seize b then
      { t with banks := tset t.banks b { k with guestCtl := evselWord k, guestCnt := if bitN k.ctl.toNat 62 then 0 else k.cnt } }
    else if bitN t.seize b ∧ !bitN new b then
      { t with banks := tset t.banks b { k with ctl := k.guestCtl, cnt := k.guestCnt, guestCtl := 0, guestCnt := 0 } }
    else t) t |> fun t => { t with seize := new, seizeNext := none }

/-- A restored bank whose EVID this device lacks reads UNSUP, and counts nothing (R347). -/
def restoreBank (b : EvBank) : EvBank :=
  if State.evKnown (field b.ctl 15 0) then b else { b with ctl := b.ctl ||| (1#64 <<< 62), cnt := 0 }

namespace State

/-- A bank of a tile. -/
def bank (s : State) (tile b : Nat) : EvBank := tget {} (s.tile tile).banks b
def setBank (s : State) (tile b : Nat) (x : EvBank) : State :=
  s.modTile tile fun t => { t with banks := tset t.banks b x }

/-- EVSEL and EVCNT in the guest's or hypervisor's view of the executing core's tile (R343 to R346). -/
def evRead (s : State) (tile b : Nat) (cnt guest : Bool) : Word :=
  let k := s.bank tile b
  let seized := guest && decide (b < 4) && bitN (s.tile tile).seize b
  if seized then (if cnt then k.guestCnt else k.guestCtl ||| word (2 ^ 63))
  else if cnt then (if bitN k.ctl.toNat 62 then 0 else k.cnt)
  else evselWord k

def evWrite (s : State) (tile b : Nat) (cnt guest : Bool) (v : Word) : State :=
  let k := s.bank tile b
  let t := s.tile tile
  if guest ∧ b < 4 ∧ (bitN t.seize b ∨ bitN (t.seizeNext.getD 0) b) then s
  else if cnt then s.setBank tile b { k with cnt := v }
  else s.setBank tile b { k with ctl := evselWrite k.ctl v }

/-- VLEASE of R83. -/
def leaseWord (s : State) (c : CoreId) : Word :=
  if !isVecCore c then 0
  else
    let x := s.core c
    word (x.leaseWait.length % 256 * 2 ^ 32 + b2n x.lease.isSome * 2 ^ 31 +
      (match x.lease with | some n => fibreId ⟨c, n⟩ | none => 0))

/-- MFCTX of R208 for a math core. -/
def mfctxWord (s : State) (c : CoreId) : Word :=
  if isService c ∨ c.kind ≠ 2 then 0
  else
    let g := s.gang (tileGang (coreTile c))
    let member := match (s.core c).lease with | some n => g.members.contains ⟨c, n⟩ | none => false
    word (g.token % 2 ^ 16 * 2 ^ 16 + b2n (g.formed && member) * 2 ^ 15 + b2n g.valid * 2 ^ 14 + b2n g.sat * 2 ^ 8
      + b2n g.hbv * 2 ^ 5 + g.sb % 4 * 4 + g.sa % 4)

/-- METSTAT of R337. -/
def metstatWord (s : State) (c : CoreId) : Word :=
  if c = .mgmt ∨ (!isService c ∧ c.kind ≠ 2) then 0
  else
    let opens := (s.pkg.meters.filter fun m : Nat × Meter => s.meterOpen m.1 && m.2.owner == some (s.partOf c)).length
    word (b2n s.pkg.ckok * 2 ^ 63 + b2n s.pkg.restored * 2 ^ 62 + b2n s.pkg.ckfail * 2 ^ 61 + opens % 4096 * 2 ^ 32
      + s.pkg.ckwheel % 2 ^ 32)

/-- The size of a core's context (R276). -/
def contextBytes (c : CoreId) : Nat := if isService c then 0 else if c.kind = 2 then 122880 else 98304

/-- The ring entry that ESEQ.RSEL selects, as ERINGA and ERINGB show it (R262). -/
def ringWord (s : State) (c : CoreId) (b : Bool) : Word :=
  if !isVecCore c then 0
  else
    let e := tget {} (s.core c).ring (s.core c).rsel
    if b then word (e.seq * 2 ^ 48 + b2n e.valid * 2 ^ 47 + e.state % 4 * 2 ^ 45 + e.fibre)
    else word (e.word.toNat * 2 ^ 32 + e.addr % 2 ^ 32)

/-- WAIT of a barrier (R243). -/
def barWaits (s : State) (c : CoreId) (n : Nat) : Nat :=
  (s.fibres.filter fun f => f.1.core == c && (match f.2.cont with | .bar _ _ m => m == n | _ => false)).length

/-- What SRD of a listed register returns (R373). -/
def sysRead (s : State) (f : FibreRef) (n : Nat) : Word :=
  let c := f.core
  let x := s.fib f
  let k := s.core c
  let t := coreTile c
  match n with
  | 0 => word (fibreId f)
  | 1 => coreWord c
  | 2 => word (s.partOf c)
  | 3 => word x.pl
  | 4 => word s.wheel
  | 5 => word s.slotNo
  | 6 => word k.fpst
  | 0x10 => x.cause
  | 0x11 => x.epc
  | 0x12 => x.einfo
  | 0x13 => lget 0 k.tvec (x.pl - 1)
  | 0x14 => word (x.ppl * 256 + b2n x.imp * 64 + b2n x.lostf * 32)
  | 0x15 => if isVecCore c then word (k.rsel * 2 ^ 32 + x.eseq) else word (k.rsel * 2 ^ 32)
  | 0x16 => s.ringWord c false
  | 0x17 => s.ringWord c true
  | 0x20 => k.mhlo
  | 0x21 => k.mhhi
  | 0x22 => word (b2n k.nack * 2 ^ 16 + k.sends.length % 32 * 2 ^ 8 + (k.sends.filter fun e : Nat × Bool => e.2).length % 32)
  | 0x30 => s.leaseWord c
  | 0x60 => s.mfctxWord c
  | 0x70 => word (x.tdie * 2 ^ 12 + x.taskix)
  | 0x71 => x.taskseq
  | 0x80 => word (contextBytes c)
  | 0x90 => s.metstatWord c
  | _ =>
    if n < 0x48 then (if isService c then 0 else s.evRead t (n - 0x40) false true)
    else if n < 0x50 then (if isService c then 0 else s.evRead t (n - 0x48) true true)
    else if n < 0x60 then
      let d := tget (0, 0) k.dly (n - 0x50)
      word (d.1 * 2 ^ 24 + d.2)
    else if n < 0x160 then (if isService c then 0 else word (bmemWord (s.bar c (n - 0x100)) + s.barWaits c (n - 0x100) % 256))
    else if n < 0x1C0 then (if isService c then 0 else (s.bar c (n - 0x160)).scope)
    else if n < 0x240 then
      let v := s.semStart c (n - 0x200)
      word (b2n v.2 * 2 ^ 16 + v.1)
    else tget 0 k.geom (n - 0x300)

/-- The trap of an SWR for a value that the register's own rule refuses (R243, R255, R257, R373): a cause and
its EINFO. It comes before anything else that the write meets (R372), also on a service core, which ignores the other writes to BMEMn
and BSCOPEn (R373; log 83). CAUSE takes no code that is never raised (R376; log 102). -/
def sysRefuse (s : State) (f : FibreRef) (n : Nat) (v info : Word) : Option (Nat × Word) :=
  let x := s.fib f
  let bad (b : Bool) (e : Word) : Option (Nat × Word) := if b then some (1, e) else none
  let m := v.toNat
  match n with
  | 0x10 => bad (decide (2 ^ 8 ≤ m) || m == 0x0F || decide (0x1C ≤ m)) info
  | 0x11 => bad (decide (2 ^ 56 ≤ m)) info
  | 0x13 => bad (decide (2 ^ 56 ≤ m) || m % 4 != 0) info
  | 0x14 =>
    if field v 63 10 ≠ 0 ∨ bitN m 7 ∨ field v 4 0 ≠ 0 then some (1, info)
    else if x.pl < field v 9 8 then some (3, word n) else none
  | 0x15 => bad (field v 63 38 != 0 || field v 31 16 != 0) info
  | 0x20 => bad (decide (2 ^ 56 ≤ m)) v
  | 0x21 => bad (decide (2 ^ 56 ≤ m)) v
  | _ =>
    if 0x100 ≤ n ∧ n < 0x160 then bad (bitN m 31 && (field v 23 16 == 0 || field v 10 8 == 0)) v
    else if 0x160 ≤ n ∧ n < 0x1C0 then bad (scopeSys v || scopeBad v) v
    else none

/-- The effect of an SWR of a listed register, VLEASE apart (R373). -/
def sysWrite (s : State) (f : FibreRef) (n : Nat) (v : Word) : State :=
  let c := f.core
  let m := v.toNat
  match n with
  | 6 => s.modCore c fun k => { k with fpst := m % 32 }
  | 0x10 => s.modFib f fun x => { x with cause := v }
  | 0x11 => s.modFib f fun x => { x with epc := v }
  | 0x12 => s.modFib f fun x => { x with einfo := v }
  | 0x13 => s.modCore c fun k => { k with tvec := lset k.tvec ((s.fib f).pl - 1) v }
  | 0x14 => s.modFib f fun x => { x with ppl := field v 9 8, lostf := x.lostf && !bitN m 5 }
  | 0x15 => s.modCore c fun k => { k with rsel := field v 37 32 }
  | 0x20 => s.modCore c fun k => { k with mhlo := v }
  | 0x21 => s.modCore c fun k => { k with mhhi := v }
  | 0x22 => s.modCore c fun k => { k with nack := k.nack && !bitN m 16 }
  | _ =>
    if 0x40 ≤ n ∧ n < 0x48 then (if isService c then s else s.evWrite (coreTile c) (n - 0x40) false true v)
    else if 0x48 ≤ n ∧ n < 0x50 then (if isService c then s else s.evWrite (coreTile c) (n - 0x48) true true v)
    else if 0x50 ≤ n ∧ n < 0x5E then s.modCore c fun k => { k with dly := tset k.dly (n - 0x50) (m / 2 ^ 24, m % 2 ^ 24) }
    else if 0x100 ≤ n ∧ n < 0x160 then
      if isService c then s
      else s.barWrite c (n - 0x100)
        { s.bar c (n - 0x100) with en := bitN m 31, count := field v 23 16, kinds := field v 10 8 }
    else if 0x160 ≤ n ∧ n < 0x1C0 then
      if isService c then s else s.barWrite c (n - 0x160) { s.bar c (n - 0x160) with scope := v }
    else if 0x200 ≤ n ∧ n < 0x240 then s.semWrite c (n - 0x200) v
    else if 0x300 ≤ n ∧ n < 0x340 then
      s.modCore c fun k => { k with geom := tset k.geom (n - 0x300) (v &&& word (2 ^ 64 - 1 - 3 * 2 ^ 60)) }
    else s

/-! ## The vector lease (R82 to R86) -/

/-- Grant the lease to a slot. -/
def grantLease (s : State) (f : FibreRef) : State :=
  (s.modCore f.core fun c => { c with lease := some f.slot }).modFib f fun x => { x with vl := true }

/-- The executing fibre has the lease, or takes it when it is free; else it parks (R82, R86). -/
def withLease (s : State) (k : State → Out) : Out :=
  if s.me.vl then k s
  else if (s.core s.cur.core).lease.isNone ∧ (s.core s.cur.core).leaseWait.isEmpty then k (s.grantLease s.cur)
  else .next ((s.modCore s.cur.core fun c => { c with leaseWait := c.leaseWait ++ [s.cur.slot] }).parkMe 8 .lease)

/-- An SWR of VLEASE (R83, R84). -/
def leaseWrite (s : State) (v : Word) : Out :=
  if !isVecCore s.cur.core then .next (s.retire 1)
  else if bitN v.toNat 31 then s.withLease fun s => .next (s.retire 1)
  else if s.me.vl then .next ((s.parkMe 8 (.leaseDrop false)).schedOnce s.clock (.leaseRelease s.cur.core))
  else .next (s.retire 1)

end State

/-- SRD (R372). -/
def execSrd (d : BitVec 3) (r : BitVec 12) (s : State) : Out :=
  s.guard .scalar (.srd d r) fun s =>
    let n := r.toNat
    match sysPriv n with
    | none => s.raise 1 (word n)
    | some (p, _) =>
      if s.me.pl < p ∨ (n = 0x13 ∧ s.me.pl = 0) then s.raise 3 (word n)
      else .next ((s.setG d (s.sysRead s.cur n)).retire 1)

/-- SWR (R372). -/
def execSwr (a : BitVec 3) (r : BitVec 12) (s : State) : Out :=
  s.guard .scalar (.swr a r) fun s =>
    let n := r.toNat
    let v := s.g a
    match sysPriv n with
    | none => s.raise 1 (word n)
    | some (_, p) =>
      match s.sysRefuse s.cur n v (word (wordOf (.swr a r)).toNat) with
      | some (e, info) => s.raise e info
      | none =>
        if s.me.pl < p then s.raise 3 (word n)
        else if n = 0x30 then s.leaseWrite v else .next ((s.sysWrite s.cur n v).retire 1)

/-- TRAP (R478). -/
def execTrap (z : BitVec 12) (s : State) : Out := s.guard .scalar (.trap z) fun s => s.raise 0x16 (word z.toNat)

/-- RFT (R449, R259). -/
def execRft (s : State) : Out :=
  s.guard .scalar .rft fun s =>
    if s.me.pl = 0 then s.raise 3 0
    else if !s.me.trap then s.illegal .rft
    else if s.me.epc.toNat % 4 ≠ 0 then s.raise 8 s.me.epc
    else .next (s.returnTrap s.cur)

/-- WFE (R500). -/
def execWfe (d : BitVec 3) (z : BitVec 12) (s : State) : Out :=
  s.guard .scalar (.wfe d z) fun s =>
    let sel := z.toNat % 128
    let el := s.me.latch
    if el &&& sel = 0 then .next (s.parkMe 10 (.wfe d sel))
    else .next (((s.modMe fun f => { f with latch := el &&& (127 - sel) }).setG d (word (el &&& sel))).retire 1)

/-- BRK (R391). -/
def execBrk (z : BitVec 12) (s : State) : Out :=
  s.guard .scalar (.brk z) fun s =>
    if s.armed s.cur.core then .next (s.retire 1).triggerMe else s.raise 0x14 (word z.toNat)

/-- SVC (R474, R256). -/
def execSvc (z : BitVec 12) (s : State) : Out :=
  s.guard .scalar (.svc z) fun s => if s.cur.core = .mgmt then s.illegal (.svc z) else s.raise 0x15 (word z.toNat)

/-- HALT (R398). -/
def execHalt (s : State) : Out :=
  s.guard .scalar .halt fun s =>
    if s.me.pl = 0 then s.raise 3 0
    else .next (if s.armed s.cur.core then (s.retire 1).triggerMe else s.retire 1)

namespace State

/-- The holder's lease is free, and its gang breaks (R84, R207). -/
def dropLease (s : State) (f : FibreRef) : State :=
  ((s.breakFor f).modFib f fun x => { x with vl := false }).modCore f.core fun x => { x with lease := none }

/-- A free lease passes to the next waiter (R82). -/
def passLease (s : State) (c : CoreId) : State :=
  match (s.core c).leaseWait with
  | [] => s
  | n :: rest => ((s.modCore c fun x => { x with leaseWait := rest }).grantLease ⟨c, n⟩).ready ⟨c, n⟩

end State

/-- LEASE_RELEASE (R84, R82): once the holder's dispatches have retired, its gang breaks, the lease passes to
the next waiter, and the holder goes on. -/
def execLeaseRelease (c : CoreId) (s : State) : Out :=
  match (s.core c).lease with
  | none => .next s
  | some slot =>
    let f : FibreRef := ⟨c, slot⟩
    match (s.fib f).cont with
    | .leaseDrop exiting =>
      if s.dispatchedOf f then .next s
      else
        let s := s.dropLease f
        .next ((if exiting then (s.parkF f 2 .exit).exitCheck f else s.complete f).passLease c)
    | _ => .next s

end Sys2Proof.Machine
end

