-- ==== Sys2Proof/Machine/Regs.lean ====
section
/-! DEFINITION. The registers of space 8 (05 R125 to R131): what each reads, the 16-byte table entries, and the
event that the write of each is. -/

namespace Sys2Proof.Machine

/-- The words of a report-ring entry (R265). -/
def reportWord (r : Report) (i : Nat) : Word :=
  match i with
  | 0 => word (r.kind + r.cause * 2 ^ 8 + r.fibre * 2 ^ 32)
  | 1 => r.addr
  | 2 => r.einfo
  | _ => word r.wheel

/-- An entry of the table of R282. -/
def tabEntry (tile : Nat) : Nat := 2 ^ 15 + tileY tile * 2 ^ 6 + tileX tile

/-- The writable fields of TRCLAIM (R348). -/
def traceFields (v : Word) : Word :=
  word (field v 46 40 * 2 ^ 40 + field v 34 32 * 2 ^ 32 + field v 19 16 * 2 ^ 16 + b2n (bitN v.toNat 0))

/-- The implemented bits of a code window (R313). -/
def cwinMask (v : Word) : Word :=
  word (b2n (bitN v.toNat 63) * 2 ^ 63 + field v 53 32 * 2 ^ 32 + field v 31 12 * 2 ^ 12)

/-- The bits of MWBASE that R129 implements. -/
def mwbaseMask (v : Word) (tile : Bool) : Word :=
  word (field v 63 52 * 2 ^ 52 + b2n (tile && bitN v.toNat 48) * 2 ^ 48 + field v 44 12 * 2 ^ 12)

namespace State

/-- Partition p holds tiles of die d (R265, R281). -/
def hasTilesOn (s : State) (p d : Nat) : Bool := (s.tilesOf p).any fun n => tileDie n == d

/-- The tiles of a partition's table in logical order (R282). -/
def tabCount (s : State) (p : Nat) : Nat := (s.part p).tab.length

/-- The resize view of R291. -/
def resizeRead (s : State) (die off p : Nat) : Word :=
  let x := s.part p
  if off = 0x50000 then word (x.gen % 2 ^ 32 * 2 ^ 32 + s.tabCount p)
  else if off = 0x50008 then
    word (x.budget % 2 ^ 24 * 2 ^ 40 + x.residue % 128 * 2 ^ 32 + tget 0 x.hbm die % 2 ^ 16 * 2 ^ 16 + tget 0 x.shares die % 2 ^ 13)
  else if off < 0x50200 then
    let w := (off - 0x50100) / 8
    word ((x.tab.filter fun t : Nat × Nat => t.1 / 64 == w).foldl (fun a t => a + 2 ^ (t.1 % 64)) 0)
  else
    let w := (off - 0x51000) / 8
    word ((x.tab.filter fun t : Nat × Nat => t.1 / 4 == w).foldl (fun a t => a + tabEntry t.2 * 2 ^ (16 * (t.1 % 4))) 0)

/-- Registers of the mailbox in the supervisor's view (R120). -/
def mailboxRead (s : State) (off p : Nat) : Word :=
  let v := s.vf p
  if off < 0x41400 then
    let o := off - 0x41000
    lget 0 (tget [] v.mbin (o / 64)) (o % 64 / 8)
  else if off = 0x41400 then word v.mbihead
  else if off = 0x41408 then word v.mbitail
  else if off = 0x41840 then word (b2n v.mbofull * 256 + v.mbrx.length % 32)
  else 0

/-- TRCLAIM as a view reads it (R348). -/
def traceRead (s : State) (die c p : Nat) (hview : Bool) : Word :=
  let x := s.cluster (die * 16 + c)
  if hview then word (x.trOwner * 2 ^ 62 + x.trPart * 2 ^ 54) + x.trSel
  else word (x.trOwner * 2 ^ 62 + b2n (tget false x.trLost p) * 2 ^ 61) + x.trSel

/-- Block 0x00 in the view of a partition (R127). -/
def read00 (s : State) (die off p : Nat) : Word :=
  let r := tget {} (s.die die).rings p
  if !(s.part p).active then 0
  else if off < 0x40000 then 0
  else if off < 0x40800 then reportWord (tget {} r.entries ((off - 0x40000) / 32)) ((off - 0x40000) % 32 / 8)
  else if off = 0x40800 then word r.head
  else if off = 0x40808 then word r.tail
  else if off = 0x40810 then word r.lost
  else if off < 0x50000 then s.mailboxRead off p
  else if off < 0x60000 then s.resizeRead die off p
  else s.traceRead die ((off - 0x60000) / 8) p false

/-- Block 0x01 (R128). -/
def read01 (s : State) (die off : Nat) : Word :=
  let g := (s.die die).gw
  if off < 0x1000 then
    let p := off / 16
    if off % 16 = 0 then tget 0 g.roots p else if die = 6 then tget 0 g.rootsB p else 0
  else if off = 0x1000 then g.invva
  else if off = 0x1008 then word (b2n g.done)
  else if off < 0x3000 then
    let n := (off - 0x2000) / 8
    if die = 6 then word (tget 0 (s.part (n % 48)).ports (n / 48)) else word (tget 0 (s.part n).hbm die)
  else
    let run := (g.walks.filter fun w => w.running).length
    word (run % 32 * 2 ^ 16 + (g.walks.filter fun w => !w.running).length % 2 ^ 16)

/-- Block 0x02 (R129, R313). -/
def read02 (s : State) (die off : Nat) : Word :=
  let pick (w : Word × Word) : Word := if off % 16 = 0 then w.1 else w.2
  if off < 0x4000 then pick (tget (0, 0) (s.tile (tileNo die (off / 64))).mwin (off % 64 / 16))
  else if off < 0x5000 then pick (tget (0, 0) (s.die die).mwinDie ((off - 0x4000) / 16))
  else if off < 0x60000 then pick (tget (0, 0) (s.die die).mwinHbm ((off - 0x5000) / 16))
  else if off < 0x62000 then tget 0 (s.tile (tileNo die ((off - 0x60000) / 32))).cwin (off % 32 / 8)
  else tget 0 (s.die die).cwin ((off - 0x62000) / 8)

/-- Block 0x03 (R130). -/
def read03 (s : State) (die off : Nat) : Word :=
  if off < 0x10000 then word (s.tile (tileNo die ((off - 0x4000) / 8))).ptag
  else if off < 0x20000 then tget 0 (s.die die).ctxbase ((off - 0x10000) / 8)
  else if off < 0x28000 then
    let o := off - 0x20000
    s.evRead (tileNo die (o / 128)) (o % 128 / 16) (decide (o % 16 = 8)) false
  else if off < 0x30000 then (let t := s.tile (tileNo die ((off - 0x28000) / 8)); word (t.seizeNext.getD t.seize))
  else s.traceRead die ((off - 0x30000) / 8) 63 true

/-- TRSTAT of R298. -/
def trstatWord (t : Trust) : Word :=
  word (t.state * 2 ^ 61 + t.reason % 256 * 2 ^ 48 + t.fails % 4 * 2 ^ 46 + t.sess % 256 * 2 ^ 32 + t.wheel % 2 ^ 32)

/-- Block 0x04 of die 6 (R131, R270, R298, R361). -/
def read04 (s : State) (off : Nat) : Word :=
  let k := s.pkg
  let at' (lo : Nat) : Nat := (off - lo) / 8
  if off < 0x10100 then 0
  else if off < 0x20000 then
    let p := s.part (at' 0x10100)
    word (p.gs * 2 ^ 61 + p.gsCode % 256 * 2 ^ 48 + p.gsWheel % 2 ^ 48)
  else if off < 0x20030 then trstatWord (s.die (at' 0x20000)).trust
  else if off < 0x31000 then 0
  else if off < 0x31030 then
    let d := s.die (at' 0x31000)
    word (d.allot % 2 ^ 16 * 2 ^ 48 + d.spentTok % 2 ^ 16 * 2 ^ 32 + d.temp % 256 * 2 ^ 24 + b2n d.mgate * 2 + b2n d.vgate)
  else if off < 0x40000 then word k.pwrlim
  else if off < 0x50000 then word (b2n (s.part (at' 0x40000)).dbgen)
  else if off < 0x50100 then
    let c : Port := tget {} k.ports (at' 0x50000)
    word (b2n c.present * 2 ^ 63 + b2n c.up * 2 ^ 62 + c.width % 256 * 2 ^ 48 + c.mib % 2 ^ 32)
  else if off < 0x60000 then word (b2n k.hostUp * 2 ^ 63 + k.hostWidth % 256 * 2 ^ 48 + b2n k.hostUp * 64 * 2 ^ 40 + k.vfs % 256)
  else if off < 0x60100 then word (k.ic.accepted % 2 ^ 16 * 2 ^ 32 + k.ic.queue.length % 128)
  else if off < 0x80000 then
    let p := at' 0x60100
    word ((s.part p).budget % 2 ^ 24 * 2 ^ 40 + s.entriesHeld p % 2 ^ 24)
  else if off < 0xC0000 then word (s.readNat (paOf 7 1 (off - 0x80000)) 8)
  else word (b2n k.mgrun)

/-- What an LD of a register returns, for the partition in whose view it is read (R125 to R131). -/
def regRead (s : State) (die block off p : Nat) : Word :=
  if block = 1 then s.read01 die off
  else if block = 2 then s.read02 die off
  else if block = 3 then s.read03 die off
  else if block = 4 then s.read04 off
  else s.read00 die off p

/-! ## Table entries -/

/-- The core c = 3 × tile-in-die + kind of a die. -/
def dieCore (die c : Nat) : CoreId := ⟨die, c / 3, c % 3⟩

/-- The capability in a table entry (R127, R130, R131). -/
def tableRead (s : State) (die block off p : Nat) : Cap :=
  if block = 4 then s.pkg.mgcode
  else if block = 3 then lget .null (s.core (dieCore die (off / 16))).tcap 1
  else if !(s.part p).active then .null
  else if off < 0x1000 then tget .null (s.part p).ktab (off / 16)
  else if off < 0x2000 then tget .null (s.part p).atab ((off - 0x1000) / 16)
  else
    let c := dieCore die ((if off < 0x5000 then off - 0x2000 else off - 0x5000) / 16)
    if s.partOf c ≠ p then .null
    else if off < 0x5000 then lget .null (s.core c).tcap 0 else (s.core c).mhcap

/-- The write of a table entry. -/
def tableWrite (s : State) (die block off p : Nat) (v : Cap) : State :=
  if block = 4 then s.modPkg fun k => { k with mgcode := v }
  else if block = 3 then s.modCore (dieCore die (off / 16)) fun c => { c with tcap := lset c.tcap 1 v }
  else if !(s.part p).active then s
  else if off < 0x1000 then s.modPart p fun x => { x with ktab := tset x.ktab (off / 16) v }
  else if off < 0x2000 then s.modPart p fun x => { x with atab := tset x.atab ((off - 0x1000) / 16) v }
  else
    let c := dieCore die ((if off < 0x5000 then off - 0x2000 else off - 0x5000) / 16)
    if s.partOf c ≠ p then s
    else if off < 0x5000 then s.modCore c fun c => { c with tcap := lset c.tcap 0 v }
    else s.modCore c fun c => { c with mhcap := v }

end State

/-! ## Writes -/

/-- The event that a write of a register is: its own where the spec gives it one, else REGISTER_WRITE. -/
def regWriteEvent (die block off p : Nat) (v : Word) : Instr :=
  if block = 1 then
    if off < 0x1000 then .trootWrite die off v
    else if off = 0x1008 then
      if field v 63 62 = 1 then .invalidatePage die v
      else if field v 63 62 = 2 then .invalidateAll die v else .registerWrite die block off p v
    else .registerWrite die block off p v
  else if block = 2 then
    if off < 0x60000 ∧ off % 16 = 0 then .mwbaseWrite die off v else .registerWrite die block off p v
  else if block = 3 then
    if 0x28000 ≤ off ∧ off < 0x30000 then .seizeWrite die ((off - 0x28000) / 8) v
    else if 0x30000 ≤ off then .trclaimWrite die ((off - 0x30000) / 8) 63 true v
    else .registerWrite die block off p v
  else if block = 4 then
    if off = 0x10000 then
      if field v 63 62 = 1 then .gangStop v else if field v 63 62 = 2 then .gangResume v else .registerWrite die block off p v
    else if off = 0x20040 then
      if field v 61 3 ≠ 0 ∨ 6 ≤ field v 2 0 then .registerWrite die block off p v
      else if field v 63 62 = 1 then .resetDie (field v 2 0)
      else if field v 63 62 = 2 then .roll (field v 2 0) else .registerWrite die block off p v
    else if off = 0x31100 then .pwrlimWrite v
    else if off = 0xC0010 then .mgrun v
    else .registerWrite die block off p v
  else if off = 0x1400 then .tkill die p v
  else if off = 0x40800 then .rephead die p v
  else if off = 0x40810 then .replost die p
  else if off = 0x41400 then .mbihead p v
  else if off = 0x41838 then .mbogo p v
  else if 0x60000 ≤ off then .trclaimWrite die ((off - 0x60000) / 8) p false v
  else .registerWrite die block off p v

end Sys2Proof.Machine
end

