-- ==== Sys2Proof/Machine/EvAccess.lean ====
section
/-! DEFINITION. An access at its home and its answer (05 R132, R144, R147, R154 to R161; 08 R221 to R224, R236, R240,
R241; 03 R70 to R72; 14 R349). -/

namespace Sys2Proof.Machine

/-- The access is a store, STK or non-returning atomic, which a gateway accepts before it is posted (R71). -/
def acceptedOp : AccOp → Bool
  | .store _ => true
  | .nibble _ _ => true
  | .storeCap _ => true
  | .atomic none _ _ _ => true
  | _ => false

/-- The access needs PR, and PW (R157). -/
def needsRead : AccOp → Bool
  | .load _ _ => true
  | .loadCap _ _ => true
  | .atomic _ _ _ _ => true
  | .piece => true
  | .fetch => true
  | .laneRead _ => true
  | _ => false
def needsWrite : AccOp → Bool
  | .atomic _ _ _ _ => true
  | .laneWrite _ _ => true
  | o => acceptedOp o

/-- R159 refuses an atomic on a page of an attribute. -/
def atomicRefused (op : AccOp) (space attr : Nat) : Bool :=
  match op with
  | .atomic d p _ _ =>
    if attr = 1 then d.isSome
    else if attr = 2 ∧ space = 6 then !(p == 0 || p == 8 || (p == 15 && d.isSome))
    else false
  | _ => false

/-- The unit, by port, that serves a physical address (R162, R164): 0 for HBM, 0 to 7 for CX, 8 for the host. -/
def servicePort (pa : Nat) : Nat :=
  match paKind pa with
  | 5 => bits (paOff pa) 41 39
  | 6 => 8
  | _ => 0

namespace State

/-- The home of an access under way. -/
def accHome (s : State) (a : Access) : Option Home :=
  if 4 ≤ a.space ∧ a.space ≤ 6 then s.home a.who.core a.space a.va
  else match a.pa with
    | some pa => some (.mem pa)
    | none => s.home a.who.core a.space a.va

/-- What an access does waits while its partition is stopped (R274). -/
def holdEvent (s : State) (p : Nat) (e : Instr) : State :=
  s.modPart p fun x => { x with heldEv := x.heldEv ++ [(s.clock, e)] }

/-- An answer sets out for the fibre of an access: its reply, or its acknowledgement. -/
def answer (s : State) (a : Access) (h : Home) (e : Instr) : State := s.sendAccess a.who.core h a.part true e

/-- The access fails with a cause (R72, R157). -/
def failAccess (s : State) (id : Nat) (a : Access) (h : Home) (cause : Nat) (info : Word) : State :=
  let s := s.setAccess id { a with fault := some (cause, info), stage := .performed }
  s.answer a h (match a.op with | .fetch => .fetchRefill a.who | _ => .accessReply id)

/-- A write that is acknowledged: it has no reply that could carry a fault (R71, R224). -/
def quietOp (op : AccOp) : Bool := acceptedOp op || (match op with | .laneWrite _ _ => true | _ => false)

/-- A window refuses an access at the moment of its performance (R129, R147, R313). -/
def windowLate (s : State) (a : Access) (pa : Nat) : Bool :=
  (if a.pieces.isEmpty then [(pa, a.size)] else a.pieces).any fun p => s.windowFault p.1 p.2 a.meter a.atRoot (needsWrite a.op)

/-- A fetch reads the line, or the granule of the word when an error stands elsewhere in the line. -/
def performFetch (s : State) (id : Nat) (a : Access) (h : Home) (pa : Nat) : State :=
  let pc := (s.fib a.who).pc.toNat
  let off := pc % 64
  match s.readError (pa + off) 4 with
  | some poison => s.failAccess id a h 0x0B (ueInfo (va56 pc) poison)
  | none =>
    let (o, n) := s.refillSpan pa off
    (s.setAccess id { a with reply := s.readBytes (pa + o) n, va := a.va + o, stage := .performed }).answer a h (.fetchRefill a.who)

/-- A cycle of a move's access has been performed: its answer sets out, or its next bytes are performed in the next cycle
(R223). -/
def moveCycle (s : State) (id : Nat) (a : Access) (h : Home) (e : Instr) : State :=
  if a.reply.length < a.size then (s.setAccess id { a with stage := .begun }).sched (s.clock + 1) (.homeAccess id)
  else (s.setAccess id { a with stage := .performed }).answer a h e

/-- Perform an access at its physical address (R221), and send its answer. A posted write or a lane's write that a window has come
to refuse is acknowledged without being performed (log 86). -/
def performAt (s : State) (id : Nat) (a : Access) (h : Home) (pa : Nat) : State :=
  match a.op with
  | .fetch => s.performFetch id a h pa
  | .moveRead mv _ =>
    (match s.move mv with
     | some m => (let (a, t) := s.moveReadNow m a; t.moveCycle id a h (.accessReply id))
     | none => s.dropAccess id)
  | .moveWrite mv _ bs =>
    (match s.move mv with
     | some m => (let (a, t) := s.moveWriteNow m a bs; t.moveCycle id a h (.accessAck id))
     | none => s.dropAccess id)
  | _ =>
    if s.windowLate a pa ∧ !quietOp a.op then s.failAccess id a h 5 (capInfo a.va a.kn)
    else
      let r : Done := if s.windowLate a pa then ⟨s, [], false, none, false⟩ else s.performPieces a.op pa a.size a.pieces
      match r.err with
      | some poison => s.failAccess id a h 0x0B (ueInfo a.va poison)
      | none =>
        let t := if r.ue then r.s.reportUe a.who a.va else r.s
        let t := t.setAccess id { a with pa := some pa, reply := r.bytes, replyTag := r.tag, stage := .performed }
        if quietOp a.op then
          a.merged.foldl (fun t m => match t.access m with
            | some b => (t.setAccess m { b with stage := .performed }).answer b h (.accessAck m)
            | none => t) (t.answer a h (.accessAck id))
        else t.answer a h (.accessReply id)

/-- Perform an access to a register (R125 to R131). -/
def performReg (s : State) (id : Nat) (a : Access) (h : Home) (die block off : Nat) : State :=
  let p := s.regPart a.who.core block
  let reply (bs : List Byte) (t : Bool) : State :=
    (s.setAccess id { a with reply := bs, replyTag := t, stage := .performed }).answer a h (.accessReply id)
  let ack (s : State) : State := (s.setAccess id { a with stage := .performed }).answer a h (.accessAck id)
  match a.op with
  | .loadCap _ keep =>
    let c := s.tableRead die block off p
    reply (leBytes 16 c.bits.toNat) (c.tag && keep)
  | .store bs =>
    let e := regWriteEvent die block off p (word (leNat bs))
    ack (match e with
      | .mwbaseWrite _ _ _ => s.sched (s.clock + 1) e
      | _ => s.now e)
  | .storeCap c => ack (s.tableWrite die block off p c)
  | _ => reply (leBytes 8 (s.regRead die block off p).toNat) false

/-! ## Gateways -/

/-- The instruction of a number in a core's dispatch queue changes. -/
def modQueued (s : State) (c : CoreId) (seq : Nat) (h : Disp → Disp) : State :=
  s.modCore c fun x => { x with disp := x.disp.map fun d => if d.seq = seq then h d else d }

/-- A miss joins the walk of its page, or begins one; at most 16 run at once (R158, R266). -/
def joinWalk (s : State) (gw id : Nat) (part space va : Nat) : State :=
  let g := (s.die gw).gw
  let page := va / 4096
  if g.walks.any fun w => w.part == part && w.space == space && w.va == page then
    s.modGw gw fun g => { g with walks := g.walks.map fun w =>
      if w.part == part && w.space == space && w.va == page then { w with waiters := w.waiters ++ [id] } else w }
  else
    let run := decide ((g.walks.filter fun w => w.running).length < 16)
    let (wid, s) := s.newId
    let w : Walk := { id := wid, part, space, va := page, root := s.rootOf gw part space, waiters := [id], running := run }
    let s := s.modGw gw fun g => { g with walks := g.walks ++ [w] }
    if run then s.later (.pageWalk gw wid) else s

/-- The access is granted at a physical address: the windows are tested (R147), a posted access is accepted, and it
waits for service units (R71, R162). On a ROUTER page the atomic is sent once more, to be merged on its way (R39,
R159). -/
def granted (s : State) (id : Nat) (a : Access) (h : Home) (gw pa attr : Nat) : State :=
  if atomicRefused a.op a.space attr then s.failAccess id a h 0xA (pageInfo a.who.core a.space a.va)
  else if !a.atRoot ∧ s.windowBad pa a.size a.meter then s.failAccess id a h 5 (capInfo a.va a.kn)
  else
    let merge := attr == 1 && (match a.op with | .atomic _ _ _ _ => true | _ => false)
    let s := s.setAccess id { a with pa := some pa, stage := .queued, router := merge }
    let s := if merge then s else s.modGw gw fun g => { g with queue := g.queue ++ [(id, servicePort pa)] }
    if acceptedOp a.op then s.answer a h (.accessReply id) else s

/-- Translate an access at its gateway, or let it wait for a walk (R124, R131, R154, R157). A service core's access is not translated; an
atomic of it has no page attribute, and is performed at its home as on a HOME page (R159; DESIGN CHOICE, log 115). -/
def translate (s : State) (id : Nat) (a : Access) (h : Home) (gw va : Nat) : State :=
  let u := gwUnit gw a.space
  if isService a.who.core then
    if s.paHeld gw a.space va && s.paHeld gw a.space (va + a.size - 1) then s.granted id a h gw (paOf u.1 u.2 va) 0
    else s.failAccess id a h 9 (word a.va)
  else
    match s.cached gw a.part a.space va with
    | none => (s.setAccess id { a with stage := .walking }).joinWalk gw id a.part a.space va
    | some x =>
      if !s.xlatHeld gw a.space va x || !s.xlatHeld gw a.space (va + a.size - 1) x then
        s.failAccess id a h 9 (pageInfo a.who.core a.space a.va)
      else if (needsRead a.op ∧ !x.pr) ∨ (needsWrite a.op ∧ !x.pw) then s.failAccess id a h 0xA (pageInfo a.who.core a.space a.va)
      else s.granted id a h gw (xlatPa gw a.space x va) x.attr

/-- The check of a move's span goes on (R150). -/
def checkMove (s : State) (id : Nat) (a : Access) (h : Home) (mv : Nat) (dst : Bool) : State :=
  match s.move mv with
  | none => s.dropAccess id
  | some m =>
    let c := if dst then m.dst else m.src
    let start := if dst then m.da else m.sa
    let n := if dst then dstSpan m.trans m.geom else srcSpan m.trans m.geom
    match s.spanCheck m c start n dst (n / 4096 + 2) m.checks m.xs with
    | .done xs => ((s.setMove mv { m with checks := 0, xs }).setAccess id { a with stage := .performed }).answer a h (.accessReply id)
    | .walk off gw va xs =>
      ((s.setMove mv { m with checks := off, xs }).setAccess id { a with stage := .walking }).joinWalk gw id m.part c.space va
    | .fault cause addr =>
      s.failAccess id a h cause (if cause = 5 ∨ cause = 6 then capInfo addr a.kn else pageInfo m.who.core c.space addr)

/-- A page that a dispatched instruction asks for at its gateway: the instruction takes its translation, or waits for a walk
(R158, R266). -/
def checkLane (s : State) (id : Nat) (a : Access) (h : Home) (gw va seq : Nat) : State :=
  match s.cached gw a.part a.space va with
  | some x =>
    ((s.modQueued a.who.core seq fun d => { d with xs := (gw, x) :: d.xs }).setAccess id { a with stage := .performed }).answer a h
      (.accessReply id)
  | none => (s.setAccess id { a with stage := .walking }).joinWalk gw id a.part a.space va

/-- A unit of a move waits for service units at its gateway (R162). -/
def queueUnit (s : State) (id : Nat) (a : Access) (gw mv : Nat) : State :=
  match s.move mv with
  | none => s.dropAccess id
  | some m =>
    match s.movePiece m a.space a.va with
    | none => s.dropAccess id
    | some (pa, _) =>
      (s.setAccess id { a with pa := some pa, stage := .queued }).modGw gw fun g => { g with queue := g.queue ++ [(id, servicePort pa)] }

/-- An earlier lane of the same instruction that writes a common byte has not been performed: lanes are written in increasing order
(R492). -/
def laneAhead (s : State) (id : Nat) (a : Access) : Bool :=
  match a.op with
  | .laneWrite q _ => s.flight.any fun b => decide (b.1 < id) && b.2.who == a.who && b.2.stage != .performed
      && (match b.2.op with | .laneWrite q' _ => q' == q | _ => false) && piecesMeet (s.accLocs b.2) (s.accLocs a)
  | _ => false

/-- An access arrives at its home. -/
def arrive (s : State) (id : Nat) (a : Access) : State :=
  match s.accHome a with
  | none => s.failAccess id a (.mem 0) 6 (capInfo a.va a.kn)
  | some h =>
    match a.op, h with
    | .moveCheck mv dst, _ => s.checkMove id a h mv dst
    | .laneCheck seq, .gateway gw va => s.checkLane id a h gw va seq
    | .moveRead mv _, .gateway gw _ =>
      if a.stage = .begun then s.performAt id a h (a.pa.getD 0) else s.queueUnit id { a with due := s.clock } gw mv
    | .moveWrite mv _ _, .gateway gw _ =>
      if a.stage = .begun then s.performAt id a h (a.pa.getD 0) else s.queueUnit id { a with due := s.clock } gw mv
    | _, .mem pa => s.performAt id a h pa
    | _, .reg die block off => s.performReg id a h die block off
    | _, .gateway gw va =>
      match a.stage, a.pa with
      | .queued, some pa =>
        (s.setAccess id { a with due := s.clock }).modGw gw fun g => { g with queue := g.queue ++ [(id, servicePort pa)] }
      | .walking, _ => s.translate id a h gw va
      | _, _ => s.translate id { a with due := s.clock } h gw va

/-! ## Answers -/

/-- The dispatched instruction of a number on a core changes. -/
def modDisp (s : State) (c : CoreId) (seq : Nat) (h : Disp → Disp) : State :=
  s.modCore c fun x => { x with running := x.running.map fun d => if d.seq = seq then h d else d }

/-- A lane's read comes back: its bytes, or a fault, of which that of the lowest lane counts (R267). The path of the access adds to
the latency of a VMEM instruction (R219). -/
def laneBack (seq : Nat) (s : State) (a : Access) : State :=
  s.modDisp a.who.core seq fun d =>
    let d := { d with reads := d.reads - 1, doneAt := if (vmemOf d.i).isSome then max d.doneAt (s.clock + vmemTail d) else d.doneAt }
    match a.fault with
    | some (e, _) =>
      let sub := if e = 0x0B then 8 else if e = 5 then 9 else e - 3
      if d.fault.isNone ∨ a.kn < d.flane then { d with fault := some (sub, word a.va), flane := a.kn } else d
    | none => { d with buf := d.buf ++ [(vaKey a.space a.va, a.reply)] }

/-- The answer to a question for a page of an instruction in the dispatch queue: its walk has failed, its home is lost, or it has its
translation (R266, R280). -/
def laneChecked (seq : Nat) (s : State) (a : Access) : State :=
  let page : List (Nat × Nat × Nat) := match s.home a.who.core a.space a.va with | some (.gateway gw va) => [(a.space, gw, va / 4096)] | _ => []
  s.modQueued a.who.core seq fun d =>
    let d := { d with checks := d.checks - 1 }
    match a.fault with
    | none => d
    | some (9, _) => { d with bad := page ++ d.bad }
    | some _ => { d with fault := some (8, word a.va) }

/-- A parked fibre's access has failed: the trap is precise (R72), and the fibre resumes with it (R349). -/
def faultBack (s : State) (id : Nat) (a : Access) (cause : Nat) (info : Word) : State :=
  let f := a.who
  let s := s.dropAccess id
  match a.op with
  | .piece => (match (s.fib f).cont with | .gather _ => s.addDelay f.core a.dclass a.wait | _ => s).gatherFault f cause info
  | .laneRead seq => s.laneBack seq a
  | .laneCheck seq => s.laneChecked seq a
  | .moveCheck mv _ => s.moveFault mv cause info
  | _ =>
    if (s.fib f).cont = .access id ∨ (s.fib f).cont = .accept id then
      ((s.addDelay f.core a.dclass a.wait).ready f).trapEntry f cause info false (s.fib f).pc
    else s

/-- The value of an access comes back to its parked fibre (R70, R349). -/
def valueBack (s : State) (id : Nat) (a : Access) (h : State → State) : State :=
  let s := s.dropAccess id
  if (s.fib a.who).cont = .access id then ((h s).addDelay a.who.core a.dclass a.wait).complete a.who else s

/-- A gateway has accepted a posted access: it counts as outstanding, and the fibre goes on (R71). -/
def accepted (s : State) (id : Nat) (a : Access) : State :=
  let s := if (s.fib a.who).cont = .accept id then (s.modFib a.who fun x => { x with outs := x.outs + 1 }).complete a.who else s
  if a.router then
    match s.accHome a with
    | some h => s.sendAccess a.who.core h a.part false (.homeAccess id)
    | none => s
  else s

end State

/-- HOME_ACCESS (R221). -/
def execHomeAccess (id : Nat) (s : State) : Out :=
  match s.access id with
  | none => .next s
  | some a =>
    if s.stopped a.part then .next (s.holdEvent a.part (.homeAccess id))
    else if s.laneAhead id a then .next (s.sched (s.clock + 1) (.homeAccess id))
    else .next (s.arrive id a)

/-- ACCESS_REPLY (R70 to R72, R349). -/
def execAccessReply (id : Nat) (s : State) : Out :=
  match s.access id with
  | none => .next s
  | some a =>
    if s.stopped a.part then .next (s.holdEvent a.part (.accessReply id))
    else match a.fault with
      | some (cause, info) => .next (s.faultBack id a cause info)
      | none =>
        match a.op with
        | .load d z => .next (s.valueBack id a fun s => s.setGOf a.who d (loadValue z a.reply))
        | .loadCap c _ => .next (s.valueBack id a fun s =>
            s.modFib a.who fun x => { x with k := lset x.k c.toNat ⟨BitVec.ofNat 128 (leNat a.reply), a.replyTag⟩ })
        | .atomic (some d) _ _ _ => .next (s.valueBack id a fun s => s.setGOf a.who d (word (leNat a.reply)))
        | .piece =>
          let s := (s.dropAccess id).modFib a.who fun x => { x with buf := x.buf ++ [(State.pieceKey a.space a.va a.size, a.reply)] }
          if (match (s.fib a.who).cont with | .gather _ => true | _ => false) then
            (s.addDelay a.who.core a.dclass a.wait).gatherDone a.who
          else .next s
        | .laneRead seq => .next ((s.dropAccess id).laneBack seq a)
        | .laneCheck seq => .next ((s.dropAccess id).laneChecked seq a)
        | .moveRead mv unit => .next ((s.dropAccess id).moveReadBack mv unit a.reply a.holes)
        | .moveCheck mv dst =>
          (match s.move mv with
           | some m => .next ((s.dropAccess id).moveChecked mv m dst)
           | none => .next (s.dropAccess id))
        | _ => .next (s.accepted id a)

/-- ACCESS_ACK (R71, R224): an acknowledgement that overtakes the gateway's acceptance stands for it too. An access whose
fibre has gone with its die stands under slot 256 (R237). -/
def execAccessAck (id : Nat) (s : State) : Out :=
  match s.access id with
  | none => .next s
  | some a =>
    if s.stopped a.part then .next (s.holdEvent a.part (.accessAck id))
    else
      let f := a.who
      let s := s.dropAccess id
      match a.op with
      | .moveWrite mv unit _ => .next (s.moveWritten mv unit)
      | .laneWrite _ _ => .next (s.recheck f)
      | _ =>
        if 256 ≤ f.slot then .next s
        else if (s.fib f).cont = .accept id then .next (s.complete f)
        else .next ((s.modFib f fun x => { x with outs := x.outs - 1 }).recheck f)

/-- FETCH_REFILL (R64, R70, R72, R260): the line arrives, and the fibre may issue; or its fetch traps. -/
def execFetchRefill (f : FibreRef) (s : State) : Out :=
  match s.flight.find? fun a : Nat × Access => a.2.who == f && a.2.op == AccOp.fetch with
  | none => .next s
  | some (id, a) =>
    if s.stopped a.part then .next (s.holdEvent a.part (.fetchRefill f))
    else
      let s := s.dropAccess id
      if (s.fib f).cont ≠ .fetch then .next s
      else match a.fault with
        | some (cause, info) => .next (((s.addDelay f.core 12 a.wait).ready f).trapEntry f cause info false (s.fib f).pc)
        | none => .next (((s.modFib f fun x => { x with fbuf := some (a.va, a.reply) }).addDelay f.core 12 a.wait).ready f)

end Sys2Proof.Machine
end

