-- ==== Sys2Proof/Machine/Sched.lean ====
section
/-! DEFINITION. What the next step does: what the outside does, then what is due, then the issue opportunity
of a core in this cycle, then the next cycle begins (log 4). The order among the cores of one cycle is that
of `todo`. -/

namespace Sys2Proof.Machine

/-- A circuit stands or a flit is on its way, so that the routers have work in a slot. -/
def fabricBusy (p : Package) : Bool :=
  !p.circuits.isEmpty || !p.wires.isEmpty || p.plinks.any fun l : Nat × PLink => !l.2.elastic.isEmpty || !l.2.tx.isEmpty

/-- The output ports that some flit in a node's buffers wants. -/
def wantedPorts (n : Nat) (bufs : List ((Nat × Bool) × RBuf)) : List Nat :=
  ((bufs.flatMap fun b => b.2.flits.map fun fl => residueOut n fl.dst)).eraseDups

namespace State

/-- The cores that hold a fibre, each once, in the order of their first fibre. -/
def liveCores (s : State) : List CoreId :=
  ((s.fibres.filter fun f => f.2.status != .free).map fun f => f.1.core).eraseDups

/-- Break the gang of a core, when a fibre of it is a member (R207, R339). -/
def breakCore (s : State) (c : CoreId) : State :=
  if isService c ∨ c.kind ≠ 2 then s else
  let n := tileGang (coreTile c)
  if (s.gang n).formed ∧ (s.gang n).members.any (·.core == c) then s.gangBreak n else s

/-- Halt the armed cores of a cluster; a core that is halted already keeps its state (R339). -/
def haltCluster (s : State) (n : Nat) : State :=
  ((List.range 48).filter fun b => bitN (s.cluster n).armed b).foldl (fun s b =>
    let c := coreOf (clusterTile n (b / 3)) (b % 3)
    if (s.core c).halted then s else (s.modCore c fun x => { x with halted := true }).breakCore c) s

/-- The halts that fall in this cycle (R339). -/
def halts (s : State) : State :=
  s.clusters.foldl (fun t c =>
    if c.2.haltAt.any (· ≤ s.clock) then
      (t.modCluster c.1 fun x => { x with haltAt := x.haltAt.filter fun h => !decide (h ≤ s.clock) }).haltCluster c.1
    else t) s

/-- Events at slot 0 of a wheel, by the rules that name them. -/
def wheelEvents (s : State) : List Instr :=
  let w := s.wheel
  let dies := s.dies.map fun d : Nat × Die => d.1
  (s.pkg.ic.active.toList.map fun _ => Instr.configurationFlit)
  ++ (if s.pkg.circuits.any (fun c => c.state == 3 && !(c.hops.isEmpty && c.posns.isEmpty && c.posnsOut.isEmpty)) then [Instr.lostSlotsFree] else [])
  ++ ((s.dies.filter fun d : Nat × Die => !d.2.gw.spent.isEmpty).map fun d => Instr.gatewayWheelReset d.1)
  ++ ((s.dies.filter fun d : Nat × Die => d.2.tasks.any fun t => t.2.state == .queued).map fun d => Instr.priorityAging d.1)
  ++ (if w % 64 = 0 then (s.pkg.plinks.filter fun l : Nat × PLink => l.2.trained).map fun l => Instr.syncInterval l.1 else [])
  ++ (if w % 1024 = 0 then (s.pkg.plinks.filter fun l : Nat × PLink => l.2.trained).map fun l => Instr.pdelayReq l.1 false else [])
  ++ (if w % 20 = 0 then [Instr.powerPeriod] else [])
  ++ ((dies.filter fun d => (s.die d).sums.any fun x => decide (x.1 + 4 ≤ w)).map fun d =>
        Instr.meterSumDelivery d (w - 4))
  ++ (if w % 2 ^ 21 = 0 ∧ s.pkg.start.phase = 2 then [Instr.checkpoint] else [])
  ++ ((s.clusters.filter fun c : Nat × Cluster => c.2.trTake.isSome).map fun c => Instr.traceTakeover (c.1 / 16) (c.1 % 16))

/-- Events of every slot: circuit flits, residue ports, gateways, the operand network, dispatches. -/
def slotEvents (s : State) : List Instr :=
  (if fabricBusy s.pkg then [Instr.circuitFlit] else [])
  ++ (s.tiles.flatMap fun t : Nat × Tile => (wantedPorts t.1 t.2.rbuf).map fun o => Instr.residueSlot t.1 o)
  ++ ((wantedPorts ioNode s.pkg.rbuf).map fun o => Instr.residueSlot ioNode o)
  ++ ((s.dies.filter fun d : Nat × Die => !(d.2.gw.queue.isEmpty && d.2.gw.saves.isEmpty)).map fun d => Instr.gatewaySlot d.1)
  ++ ((s.dies.filter fun d : Nat × Die => !d.2.gw.done).map fun d => Instr.invalidationDone d.1)
  ++ (if s.slotNo % 16 = 0 then
        ((s.gangs.filter fun g : Nat × Gang => !g.2.mmas.isEmpty).map fun g : Nat × Gang => g.1 / 4).eraseDups.map
          Instr.operandPeriod
      else [])
  ++ ((s.gangs.filter fun g : Nat × Gang => g.2.mmas.any fun m => decide (m.writeAt ≤ s.clock) && m.toFetch == 0).map fun g =>
        Instr.mmaSlotWrite g.1)
  ++ ((s.gangs.filter fun g : Nat × Gang => g.2.queues.any fun q => !q.2.isEmpty).map fun g => Instr.gangJoin g.1)
  ++ ((s.cores.filter fun c : CoreId × Core => !c.2.running.isEmpty).map fun c => Instr.dispatchRetire c.1)
  ++ ((s.cores.filter fun c : CoreId × Core => !c.2.disp.isEmpty).map fun c => Instr.dispatchStart c.1)

/-- The counters of what a cycle holds: cores, idle cores, parked fibres (R345). -/
def countCycle (s : State) : State :=
  (s.tiles.filter fun t : Nat × Tile => !t.2.banks.isEmpty).foldl (fun s t =>
    (List.range 3).foldl (fun s kind =>
      let c := coreOf t.1 kind
      let fs := s.fibres.filter fun f => f.1.core == c
      let s := s.count t.1 kind 1 1
      let s := s.count t.1 kind 3 (b2n (!fs.any fun f => s.eligible f.2))
      (List.range 13).foldl (fun s r =>
        s.count t.1 kind (0x11 + r) (fs.filter fun f => f.2.status == .parked && f.2.park == r + 1).length) s) s) s

/-- A wheel begins for what has no event of its own: the WFE kind WHEEL (R499) and the residue shares (R38). -/
def wheelTurn (s : State) : State :=
  let s := s.latch evWheel fun _ => true
  (s.tiles.filter fun t : Nat × Tile => !t.2.rspent.isEmpty).foldl (fun s t =>
    (s.modTile t.1 fun x => { x with rspent := [] }).letIn t.1) s

/-- The instruction that a core is about to issue, as far as its fetch buffer or its own store shows it. -/
def peek (s : State) (c : CoreId) : Option Instr :=
  match s.pick c with
  | none => none
  | some slot =>
    let x := s.fib ⟨c, slot⟩
    if inBuffer x x.pc.toNat then (s.fetched ⟨c, slot⟩).toOption
    else match s.home c x.code.space x.pc.toNat with
      | some (.mem pa) =>
        if localCode c (.mem pa) then ((decode (s.readBytes pa 4)).toOption).map fun r => r.1 else none
      | _ => none

/-- The order of the cores' issues within a cycle (R252): reads of a semaphore, increments, writes, then the link cores, the
shape cores and the math cores. -/
def issueRank (s : State) (c : CoreId) : Nat :=
  let sem (r : BitVec 12) : Bool := decide (0x200 ≤ r.toNat) && decide (r.toNat < 0x240)
  match s.peek c with
  | some (.srd _ r) => if sem r then 0 else 3 + c.kind
  | some (.semv _) => 1
  | some (.swr _ r) => if sem r then 2 else 3 + c.kind
  | _ => 3 + c.kind

/-- The cores in the order in which they issue. -/
def issueOrder (s : State) : List CoreId :=
  let cs := s.liveCores.map fun c => (c, s.issueRank c)
  (List.range 7).flatMap fun k => (cs.filter fun x => x.2 == k).map fun x => x.1

/-- Before the first core that neither reads, increments nor writes a semaphore, the waiters take their units (R252). -/
def serveBefore (s : State) (c : CoreId) : State :=
  if s.semWork.isEmpty then s else if 3 ≤ s.issueRank c then s.serveSems else s

/-- The writes of SEIZE of the cycle before take effect (R346). -/
def seizeTiles (s : State) : State :=
  { s with tiles := s.tiles.map fun t : Nat × Tile => match t.2.seizeNext with | some v => (t.1, seizeBanks v t.2) | none => t }

/-- The next cycle begins. -/
def tick (s : State) : State :=
  let s := { s with clock := s.clock + 1 }
  let s := s.halts.visibleFlits
  let s := if s.slotNo = 0 then s.wheelTurn else s
  let s := { s with semOld := [] }.seizeTiles
  let es := (if s.slotNo = 0 then s.wheelEvents else []) ++ s.slotEvents
  { s with agenda := s.agenda ++ es.map (fun e => (s.clock, e)), todo := [] }

/-- What was due in the cycle has happened: its state is counted, and the cores issue in their order (R345, R252). -/
def openCycle (s : State) : State :=
  if s.opened = s.clock then s else let s := s.countCycle; { s with opened := s.clock, todo := s.issueOrder }

/-- Take the first entry of the agenda that is due. -/
def takeDue (clock : Nat) : List (Nat × Instr) → Option (Instr × List (Nat × Instr))
  | [] => none
  | (t, e) :: l =>
    if t ≤ clock then some (e, l)
    else (takeDue clock l).map fun r => (r.1, (t, e) :: r.2)

/-- What the next step does (log 4). Without power nothing acts but the return of power (R351). -/
def nextAction (s : State) : Action :=
  match s.inputs with
  | e :: es =>
    if s.pkg.start.powered ∨ e = .coldStart then .run e { s with inputs := es } else .done { s with inputs := es }
  | [] =>
    if !s.pkg.start.powered then .off
    else match takeDue s.clock s.agenda with
      | some (e, l) => .run e { s with agenda := l }
      | none =>
        let s := s.openCycle
        match s.todo with
        | c :: cs => { s.serveBefore c with todo := cs }.issueCore c
        | [] => .done s.serveSems.tick

/-- Place an instruction's word at PC of the root core's boot fibre and make that fibre's issue the next step:
the fetch buffer is emptied, no input and no event comes before it, and it is alone in `todo` (log 6). -/
def placeWord (s : State) (nbits w : Nat) : State :=
  let f : FibreRef := ⟨.root, 0⟩
  let s := { s with mem := setBytes s.mem (paOf 7 0 ((s.fib f).pc.toNat % 2 ^ 19)) (leBytes 4 (w % 2 ^ min nbits 32)) }
  { (s.modFib f fun x => { x with fbuf := none, readyFrom := s.clock }) with
    inputs := [], agenda := [], todo := [.root], opened := s.clock, semWork := [] }

end State

end Sys2Proof.Machine
end

