-- ==== Sys2Proof/Machine/EvDebug.lean ====
section
/-! DEFINITION. The debug core and the cluster debug modules (14 R338 to R342). A command is the word written to DBCMD; it
completes at once (log 17). -/

namespace Sys2Proof.Machine

/-- The target fibre, the register or slot number and the word index of a command (R340). -/
def dbgTarget (w : BitVec 64) : FibreRef := fibreOf (field w 52 32)
def dbgReg (w : BitVec 64) : Nat := field w 31 16
def dbgWord (w : BitVec 64) : Nat := field w 15 0

/-- The places that a register number names for a core, but the system registers (R341, R193): 0 g, 1 PC, 2 k, 3 v, 4 a,
5 m, with the register's number. -/
def dbgPlace (c : CoreId) (r i : Nat) : Option (Nat × Nat) :=
  let vn := if isService c ∨ c.kind = 0 then 0 else if c.kind = 2 then 32 else 16
  let an := if !isService c ∧ c.kind = 2 then 8 else 0
  if 0x1000 ≤ r ∧ r < 0x1008 ∧ i = 0 then some (0, r - 0x1000)
  else if r = 0x1008 ∧ i = 0 then some (1, 0)
  else if 0x1010 ≤ r ∧ r < 0x1014 ∧ i < 2 then some (2, r - 0x1010)
  else if 0x1100 ≤ r ∧ r < 0x1100 + vn ∧ i < 16 then some (3, r - 0x1100)
  else if 0x1200 ≤ r ∧ r < 0x1200 + an ∧ i < 32 then some (4, r - 0x1200)
  else if 0x1300 ≤ r ∧ r < 0x1300 + an ∧ i = 0 then some (5, r - 0x1300)
  else none

/-- Word i of a number, and the number with another word there. -/
def wordAt (x i : Nat) : Word := word (x / 2 ^ (64 * i))
def putWord (x i : Nat) (v : Word) : Nat := x - (wordAt x i).toNat * 2 ^ (64 * i) + v.toNat * 2 ^ (64 * i)

namespace State

/-- The debug core's answer: a status, the cause of a FAULT, the tag of a k transfer (R340). -/
def dbgDone (s : State) (status cause : Nat) (tag : Bool) : State :=
  s.modPkg fun k => { k with dbg := { k.dbg with status, cause, tag } }

/-- DENIED (R342): the partition's debug enable is clear, or a service core of a DEPLOYED package. -/
def dbgDenied (s : State) (c : CoreId) : Bool :=
  if isService c then s.pkg.start.lc == 2 else decide (48 ≤ s.partOf c) || !(s.part (s.partOf c)).dbgen

/-- A command for the core of its target: its op code, then FORMAT for a core that does not exist, DENIED, and for the
commands 3 to 7 NOT_HALTED and NO_FIBRE (R341, R342); then its effect. In recovery the host does not reach it (R357). -/
def dbgRun (s : State) (w : BitVec 64) (op : Nat) (act : State → FibreRef → State) : Out :=
  let f := dbgTarget w
  if field w 63 56 ≠ op ∨ s.pkg.start.phase = 3 then .next s
  else if !f.valid then .next (s.dbgDone 1 0 false)
  else if s.dbgDenied f.core then .next (s.dbgDone 4 0 false)
  else if 3 ≤ op ∧ op ≤ 7 ∧ !(s.core f.core).halted then .next (s.dbgDone 2 0 false)
  else if 3 ≤ op ∧ op ≤ 7 ∧ (s.fib f).status = .free then .next (s.dbgDone 3 0 false)
  else .next (act s f)

/-- What a register word holds, and its tag (R341). -/
def dbgRead (s : State) (f : FibreRef) (r i : Nat) : Option (Word × Bool) :=
  let x := s.fib f
  let c := s.core f.core
  if r < 0x1000 then (if (sysPriv r).isSome ∧ i = 0 then some (s.sysRead f r, false) else none)
  else match dbgPlace f.core r i with
    | some (0, n) => some (lget 0 x.g n, false)
    | some (1, _) => some (x.pc, false)
    | some (2, n) => let k := lget .null x.k n
      some (wordAt k.bits.toNat i, k.tag)
    | some (3, n) => some (wordAt (tget 0 c.v n).toNat i, false)
    | some (4, n) => some (wordAt (tget 0 c.a n).toNat i, false)
    | some (_, n) => some (wordAt (tget 0 c.m n).toNat i, false)
    | none => none

/-- A debug write of VLEASE (R83, R341): the target takes a free lease, or gives its own back when all that it dispatched has
retired. A write that would have to wait is refused (DESIGN CHOICE, log 65). -/
def dbgLease (s : State) (f : FibreRef) (v : Word) : Option State :=
  let c := s.core f.core
  if !isVecCore f.core then some s
  else if bitN v.toNat 31 then
    (if (s.fib f).vl then some s else if c.lease.isNone ∧ c.leaseWait.isEmpty then some (s.grantLease f) else none)
  else if !(s.fib f).vl then some s
  else if s.dispatchedOf f then none else some ((s.dropLease f).passLease f.core)

/-- Write a register word (R341); a k write clears the tag. A value that a system register refuses is a FORMAT, and so is a PC that is no
multiple of 4 (R362; log 65). -/
def dbgWrite (s : State) (f : FibreRef) (r i : Nat) (v : Word) : Option State :=
  if r < 0x1000 then
    (if (sysPriv r).isNone ∨ i ≠ 0 ∨ (s.sysRefuse f r v 0).isSome then none
     else if r = 0x30 then s.dbgLease f v else some (s.sysWrite f r v))
  else match dbgPlace f.core r i with
    | some (0, n) => some (s.modFib f fun x => { x with g := lset x.g n v })
    | some (1, _) => if v.toNat % 4 ≠ 0 then none else some (s.modFib f fun x => { x with pc := v })
    | some (2, n) => some (s.modFib f fun x =>
        let k := lget .null x.k n
        { x with k := lset x.k n ⟨BitVec.ofNat 128 (putWord k.bits.toNat i v), false⟩ })
    | some (3, n) => some (s.modCore f.core fun c => { c with v := tmod 0 c.v n fun x => BitVec.ofNat 1024 (putWord x.toNat i v) })
    | some (4, n) => some (s.modCore f.core fun c => { c with a := tmod 0 c.a n fun x => BitVec.ofNat 2048 (putWord x.toNat i v) })
    | some (_, n) => some (s.modCore f.core fun c => { c with m := tmod 0 c.m n fun _ => v.truncate 32 })
    | none => none

/-- The physical pieces of the 8 bytes at DBARG in a fibre's view, when it has them. -/
def dbgPieces (s : State) (f : FibreRef) (c : Cap) (write : Bool) : Except (Nat × Nat) (List (Nat × Nat)) :=
  s.physPieces f.core (s.partOf f.core) c.space s.pkg.dbg.arg.toNat 8 write

/-- The access touches an active window (R342). -/
def dbgWindow (s : State) (f : FibreRef) (c : Cap) (write : Bool) : Bool :=
  match s.dbgPieces f c write with
  | .ok ps => ps.any fun p => !(s.metersAt p.1 p.2).isEmpty || s.codeTouched p.1 p.2
  | .error _ => false

/-- A memory access of the debug core through a capability register of its target (R341): every check of R144 and of the
fibre's own LD or ST, without a trap; at a register of space 8, and at memory. -/
def dbgAccess (s : State) (f : FibreRef) (n : Nat) (write : Bool) (onReg : State → Nat → Nat → Nat → State)
    (onMem : State → List (Nat × Nat) → State) : State :=
  let c := lget .null (s.fib f).k n
  let a := s.pkg.dbg.arg.toNat
  let fault (e : Nat) : State := s.dbgDone 5 e false
  if s.dbgWindow f c write then s.dbgDone 4 0 false
  else match s.checkCapAt f.core ((s.fib f).pl == 3) c a 8 (if write then pW else pR) write false with
    | .error e => fault e
    | .ok h =>
      if a % 8 ≠ 0 then fault 8
      else match h with
        | .reg die block off =>
          (match { s with cur := f }.regTrap die block off a n false write with
           | some (e, _) => fault e
           | none => onReg s die block off)
        | _ => match s.dbgPieces f c write with
          | .error (e, _) => fault e
          | .ok ps => if !write ∧ (s.readPieces ps).2.isSome then fault 0x0B else onMem s ps

/-- DBDATA takes a word, and the command is done. -/
def dbgData (s : State) (v : Word) (tag : Bool) : State :=
  (s.modPkg fun k => { k with dbg := { k.dbg with data := v } }).dbgDone 0 0 tag

end State

/-- HALT (R338, R339): a trigger at the target's cluster; a service core belongs to none. -/
def execDbgHalt (w : BitVec 64) (s : State) : Out :=
  s.dbgRun w 1 fun s f => (if isService f.core then s else s.haltTrigger f.core).dbgDone 0 0 false

/-- RESUME (R341): the core issues again from the next cycle. -/
def execDbgResume (w : BitVec 64) (s : State) : Out :=
  s.dbgRun w 2 fun s f =>
    let s := s.modCore f.core fun c => { c with halted := false, step1 := none }
    let wait (x : FibreRef × Fibre) : FibreRef × Fibre :=
      if x.1.core = f.core then (x.1, { x.2 with readyFrom := max x.2.readyFrom (s.clock + 1) }) else x
    { s with fibres := s.fibres.map wait }.dbgDone 0 0 false

/-- STEP (R341). -/
def execDbgStep (w : BitVec 64) (s : State) : Out :=
  s.dbgRun w 3 fun s f => (s.modCore f.core fun c => { c with step1 := some f.slot }).dbgDone 0 0 false

/-- READ_REG (R341). -/
def execReadReg (w : BitVec 64) (s : State) : Out :=
  s.dbgRun w 4 fun s f =>
    match s.dbgRead f (dbgReg w) (dbgWord w) with
    | some (v, tag) => s.dbgData v tag
    | none => s.dbgDone 1 0 false

/-- WRITE_REG (R341). -/
def execWriteReg (w : BitVec 64) (s : State) : Out :=
  s.dbgRun w 5 fun s f =>
    match s.dbgWrite f (dbgReg w) (dbgWord w) s.pkg.dbg.data with
    | some t => t.dbgDone 0 0 false
    | none => s.dbgDone 1 0 false

/-- READ_MEM (R341, R342). -/
def execReadMem (w : BitVec 64) (s : State) : Out :=
  s.dbgRun w 6 fun s f =>
    s.dbgAccess f (dbgReg w % 4) false
      (fun s die block off => s.dbgData (s.regRead die block off (s.regPart f.core block)) false)
      (fun s ps => s.dbgData (word (leNat (s.readPieces ps).1)) false)

/-- A register of block 0x02 belongs to a window that is on (R129, R313). -/
def State.windowOn (s : State) (die off : Nat) : Bool :=
  if off < 0x60000 then field (s.regRead die 2 (off / 16 * 16) 63) 63 52 != 0 else bitN (s.regRead die 2 off 63).toNat 63

/-- WRITE_MEM (R341, R342): it never clears a window. -/
def execWriteMem (w : BitVec 64) (s : State) : Out :=
  s.dbgRun w 7 fun s f =>
    s.dbgAccess f (dbgReg w % 4) true
      (fun s die block off =>
        if block = 2 ∧ s.windowOn die off then s.dbgDone 4 0 false else
        (s.now (regWriteEvent die block off (s.regPart f.core block) s.pkg.dbg.data)).dbgDone 0 0 false)
      (fun s ps => (State.writePieces ps (leBytes 8 s.pkg.dbg.data.toNat) s).dbgDone 0 0 false)

/-- ARM (R338, R341). -/
def execArm (w : BitVec 64) (s : State) : Out :=
  s.dbgRun w 8 fun s f =>
    let v := s.pkg.dbg.arg
    if isService f.core then s.dbgDone 1 0 false
    else (s.modCluster (tileCluster (coreTile f.core)) fun x =>
      { x with armed := field v 47 0, xo := bitN v.toNat 48, xi := bitN v.toNat 49 }).dbgDone 0 0 false

/-- BKPT (R338, R341): there are four slots. -/
def execBkpt (w : BitVec 64) (s : State) : Out :=
  s.dbgRun w 9 fun s f =>
    let k := s.pkg.dbg
    if isService f.core ∨ 4 ≤ dbgReg w then s.dbgDone 1 0 false
    else (s.modCluster (tileCluster (coreTile f.core)) fun x =>
      { x with bkpts := tset x.bkpts (dbgReg w) (field k.arg 55 0, field k.data 47 0) }).dbgDone 0 0 false

/-- CROSS_HALT (R339). -/
def execCrossHalt (s : State) : Out :=
  .next ((s.clusters.filter fun c => c.2.xi).foldl (fun s c => s.haltCluster c.1) s)

end Sys2Proof.Machine
end

