-- ==== Sys2Proof/Machine/EvDoe.lean ====
section
/-! DEFINITION. The DOE mailbox (12 R305; 19 R456; 22 R518) and the entropy source (18 R450). -/

namespace Sys2Proof.Machine

/-- The empty object that repeats a request's vendor ID and type (R305). -/
def emptyObject (dwords : List (BitVec 32)) : List (BitVec 32) := [BitVec.ofNat 32 ((dwords.headD 0).toNat % 2 ^ 24), 2]

/-- The mailbox's own answer to an object, or none for what it passes to s0 (R518). -/
def doeAnswer (dwords : List (BitVec 32)) : Option (List (BitVec 32)) :=
  let h := (dwords.headD 0).toNat
  let len := (lget 0 dwords 1).toNat % 2 ^ 18
  if h % 2 ^ 24 = 0x0101AB ∧ 3 ≤ len ∧ len ≤ 1024 ∧ len = dwords.length then none
  else if h % 2 ^ 24 = 1 ∧ len = 3 ∧ dwords.length = 3 then
    some [1, 3, if (lget 0 dwords 2).toNat % 256 = 1 then 0x000101AB else 0x01000001]
  else some (emptyObject dwords)

namespace State

/-- Change the mailbox. -/
def modDoe (s : State) (h : Doe → Doe) : State := s.modPkg fun k => { k with doe := h k.doe }

/-- An object enters s0: the root core's fibres that wait for words take them, and WFE sees the event (R456, R499). -/
def enterDoe (s : State) (o : List (BitVec 32)) : State :=
  ((s.modDoe fun d => { d with s0 := d.s0 ++ o }).strmWake .root 0).latch evStrm fun f => f.core == .root

/-- s0 has room for all dwords of an object (R305). -/
def doeFits (s : State) (o : List (BitVec 32)) : Bool := decide (s.pkg.doe.s0.length + o.length ≤ 1024)

end State

/-- DOE_OBJECT (R305, R518): while an object is held the mailbox is busy, and further objects wait at the host. -/
def execDoeObject (dwords : List (BitVec 32)) (s : State) : Out :=
  if s.pkg.doe.held.isSome then .next s
  else match doeAnswer dwords with
    | some a => .next (s.modDoe fun d => { d with own := d.own ++ a })
    | none => .next (if s.doeFits dwords then s.enterDoe dwords else s.modDoe fun d => { d with held := some dwords })

/-- DOE_DELIVER (R305). -/
def execDoeDeliver (s : State) : Out :=
  match s.pkg.doe.held with
  | some o => .next (if s.doeFits o then (s.modDoe fun d => { d with held := none }).enterDoe o else s)
  | none => .next s

/-- DOE_HOST_READ (R456): the mailbox's own answers, then the words of s1; a SPUSH that waited for room writes its word. -/
def execDoeHostRead (n : Nat) (s : State) : Out :=
  let k := min n s.pkg.doe.own.length
  let s := s.modDoe fun d => { d with own := d.own.drop k, s1 := d.s1.drop (n - k) }
  .next (if k < n then s.strmWake .root 1 else s)

/-- DOE_ABORT (R305): requests that have not been answered are discarded, and s0 and s1 are empty; the connection state of
the responder stays. -/
def execDoeAbort (s : State) : Out :=
  .next ((s.modDoe fun _ => {}).strmWake .root 1)

/-- ENTROPY_HEALTH_TEST (R450). -/
def execEntropyHealthTest (ok : Bool) (s : State) : Out := .next (s.modPkg fun k => { k with entropyOk := ok })

end Sys2Proof.Machine
end

