-- ==== Sys2Proof/Machine/EvFibre.lean ====
section
/-! DEFINITION. The end of a fibre's busy time, the end of a fibre, the delivery of what is pending, and walks (03 R67 to
R69, R77, R88 to R91; 10 R263, R264; 18 R419, R420). -/

namespace Sys2Proof.Machine

namespace State

/-! ## The end of a busy time -/

/-- The first extension of a fibre that has its value is done (R420). -/
def doneFirst (f : FibreRef) : List RootWork → List RootWork
  | [] => []
  | w :: l => if w.who = f ∧ w.meas.isSome ∧ !w.done then { w with done := true } :: l else w :: doneFirst f l

/-- The root core's work of a fibre ends with its busy time (R419, R420). -/
def endWork (s : State) (f : FibreRef) : State :=
  if f.core ≠ .root then s else
  let s := (s.modPkg fun k => { k with work := doneFirst f k.work }).settleWork
  if !s.hasWork f then s
  else if 16 ≤ (s.fib f).outs then s.parkF f 2 .retry
  else s.postWork f

/-! ## The end of a fibre -/

/-- The walk packets that wait for a slot on a die are offered again (R88). -/
def offerWalks (s : State) (die : Nat) : State :=
  (s.walkers.filter fun w => w.2.die == die && w.2.arrived.isSome && w.2.into.isNone).foldl
    (fun s w => s.schedOnce s.clock (.walkPacket w.1)) s

/-- H receives the oldest SAVE_FAULT that waits, as a new fibre of the management core, when a slot is free (R278). -/
def nextSaveFault (s : State) : State :=
  match s.pkg.saveFaults, s.freeSlot .mgmt 0 224 with
  | info :: l, some n =>
    let f : FibreRef := ⟨.mgmt, n⟩
    ((s.modPkg fun k => { k with saveFaults := l }).setFib f { status := .ready, readyFrom := s.clock + 1, tdie := 6, pl := 2 }).trapEntry
      f 0x1B info false 0
  | _, _ => s

/-- A slot becomes FREE: what waits for a slot of its pool may take it (R74, R81, R88). -/
def vacate (s : State) (f : FibreRef) : State :=
  let s := { s with fibres := tdel s.fibres f }
  if f.slot < 224 then (if f.core = .mgmt then s.nextSaveFault else s)
  else if f.slot < 240 then
    (s.schedOnce s.clock (.handlerStart f.core true)).schedOnce s.clock (.handlerStart f.core false)
  else s.offerWalks f.core.die

/-- The task of a fibre that has ended counts one fibre less; with the last it completes (R77, R110). -/
def leaveTask (s : State) (x : Fibre) : State :=
  if !x.inTask then s else
  let s := s.modDie x.tdie fun d => { d with tasks := tmod {} d.tasks x.taskix fun t => { t with fibres := t.fibres - 1 } }
  let t := tget {} (s.die x.tdie).tasks x.taskix
  if t.fibres = 0 ∧ t.pendCores.isEmpty ∧ t.going.isEmpty ∧ t.state = .running then s.schedOnce s.clock (.taskCompletion x.tdie x.taskix) else s

/-- The empty reply of a handler that ends with its reservation unused (R77). -/
def emptyReply (s : State) (f : FibreRef) : State :=
  let x := s.fib f
  match x.rpl, x.replyTo with
  | true, some (dst, entry) =>
    let (id, s) := s.newId
    let m : Message := { src := f, srcPart := s.partOf f.core, dst, handler := 0, words := [], reply := true, reserved := false, entry }
    { s with messages := s.messages ++ [(id, m)] }.inject (coreNode f.core)
      { reply := true, part := m.srcPart, dst := coreNode dst, ev := some (.emptyReply id), since := s.clock + 1 }
  | _, _ => s

/-- What a fibre leaves behind when it ends with an imprecise fault pending (R263, R264). -/
def lateFault (s : State) (f : FibreRef) : State :=
  match (s.fib f).pendFault with
  | some p => s.reportFibre f 2 p.cause (word p.seq) p.einfo
  | none => s

/-! ## Walks -/

/-- The cores of a kind on a die to which a walk may go, in order (R88 step 4). -/
def walkCores (s : State) (w : WalkPkt) : List CoreId :=
  let all := ((List.range 256).map fun t => tileNo w.die t).filter fun n => (s.tile n).ptag == w.part
  let near (n : Nat) : Bool :=
    match w.home with
    | .mem pa => (w.space == 1 && paIdx pa == n) || (w.space == 2 && tileCluster (paIdx pa) == tileCluster n)
    | _ => false
  (all.filter near ++ all.filter fun n => !near n).map fun n => coreOf n w.src.core.kind

/-- The first of the cores with a free walker slot, and the slot (R88 step 4). -/
def walkSlot (s : State) (w : WalkPkt) : Option FibreRef :=
  (s.walkCores w).findSome? fun c => (s.freeSlot c 240 16).map fun n => ⟨c, n⟩

/-- A packet of a walk under way changes. -/
def modWalker (s : State) (id : Nat) (h : WalkPkt → WalkPkt) : State :=
  { s with walkers := s.walkers.map fun w => if w.1 = id then (id, h w.2) else w }

/-- The home die refuses a packet (R90); the time that it waited there counts at its fibre (R349). -/
def refuseWalk (s : State) (id : Nat) (w : WalkPkt) (code : Nat) : State :=
  let held := match w.arrived with | some t => s.clock - t | none => 0
  let s := s.modFib w.src fun x => { x with delay := x.delay + held }
  (s.modWalker id fun w => { w with arrived := none }).sendEv (blockNode w.die) (coreNode w.src.core) true w.part (.walkFail id code)

/-- The 192 bytes of a walk packet (R89). -/
def walkBytes (f : FibreRef) (part : Nat) (x : Fibre) : List Byte :=
  let cap (n : Nat) : List Byte := leBytes 16 (lget .null x.k n).bits.toNat
  let tags := b2n x.code.tag * 16 + ((List.range 4).map fun n => b2n (lget .null x.k n).tag * 2 ^ n).foldl (· + ·) 0
  leBytes 8 (fibreId f + part % 64 * 2 ^ 21) ++ leBytes 8 x.pc.toNat ++ leBytes 8 (fstWord x).toNat
    ++ ((List.range 8).flatMap fun n => leBytes 8 (lget 0 x.g n).toNat)
    ++ cap 0 ++ cap 1 ++ leBytes 8 tags ++ cap 2 ++ cap 3 ++ leBytes 16 x.code.bits.toNat ++ List.replicate 16 0

/-- The fibre that a walk installs from its packet (R88 step 5, R89, R500). What the packet does not carry is as in a new fibre, but
for TASKSEQ and the membership of its task (log 82). -/
def walked (s : State) (w : WalkPkt) : Fibre :=
  let dword (n : Nat) : Nat := sliceNat w.bytes n 8
  let fst := dword 16
  let tags := dword 120
  let cap (at' n : Nat) : Cap := ⟨BitVec.ofNat 128 (sliceNat w.bytes at' 16), bitN tags n⟩
  { status := .ready, readyFrom := s.clock + 1, pc := word (dword 8), g := (List.range 8).map fun n => word (dword (24 + 8 * n)),
    k := [cap 88 0, cap 104 1, cap 128 2, cap 144 3], code := cap 160 4, tdie := bits fst 50 48, taskix := bits fst 47 36,
    pl := bits fst 35 34, trap := bitN fst 33, vl := bitN fst 32, msg := bitN fst 31, rpl := bitN fst 30, outs := bits fst 23 16,
    walks := min 4095 (bits fst 11 0 + 1), inTask := w.inTask, taskseq := w.taskseq, latch := 127 }

/-- Install a walking fibre in a slot (R88 step 5); its waiting counts on the core on which it goes on (R349). -/
def installWalk (s : State) (id : Nat) (w : WalkPkt) (f : FibreRef) : State :=
  let held := match w.arrived with | some t => s.clock - t | none => 0
  let s := s.addDelay f.core 13 ((s.fib w.src).delay + held)
  let s := (s.setFib f (s.walked w)).modWalker id fun w => { w with into := some f }
  s.sendEv (coreNode f.core) (coreNode w.src.core) true w.part (.walkAck id)

end State

/-- BUSY_EXPIRY (R67, R69). -/
def execBusyExpiry (f : FibreRef) (s : State) : Out :=
  if (s.fib f).status ≠ .busy then .next s
  else .next ((s.modFib f fun x => { x with status := .ready, readyFrom := s.clock }).endWork f)

/-- EXIT_COMPLETE (R77, R110). -/
def execExitComplete (f : FibreRef) (s : State) : Out :=
  let x := s.fib f
  if x.cont ≠ .exit then .next s
  else .next ((((s.lateFault f).emptyReply f).vacate f).leaveTask x)

/-- IMPRECISE_DELIVERY (R263). -/
def execImpreciseDelivery (f : FibreRef) (s : State) : Out :=
  let x := s.fib f
  match x.pendFault with
  | some p =>
    .next ((s.modFib f fun x => { x with pendFault := none, eseq := p.seq % 65536 }).trapEntry f p.cause p.einfo true x.pc)
  | none =>
    if x.pendStop then .next ((s.modFib f fun x => { x with pendStop := false }).trapEntry f 0x13 0 true x.pc) else .next s

/-- WALK_DEPARTURE (R88 steps 2 and 3): the packet of R89 is three flits of the request network, of which the last brings it. -/
def execWalkDeparture (f : FibreRef) (s : State) : Out :=
  match (s.fib f).cont with
  | .walkWait space h =>
    let (id, s) := s.newId
    let p := s.partOf f.core
    let s := s.parkF f 13 (.walking id)
    let x := s.fib f
    let w : WalkPkt := { src := f, part := p, die := homeDie h, space, home := h, bytes := State.walkBytes f p x, taskseq := x.taskseq, inTask := x.inTask }
    let s := { s with walkers := s.walkers ++ [(id, w)] }
    let s := (s.modFib f fun x => { x with delay := 0 }).breakFor f
    let flit (e : Option Instr) : RFlit := { reply := false, part := p, dst := blockNode w.die, ev := e, since := s.clock + 1 }
    let n := coreNode f.core
    .next (((s.inject n (flit none)).inject n (flit none)).inject n (flit (some (.walkPacket id))))
  | _ => .next s

/-- WALK_PACKET (R88, R90): the packet is at its home die, new or waiting for a slot. Where the partition has no core of the kind left
there, it is refused at once with code 3, of a tile that leaves (DESIGN CHOICE, log 82). -/
def execWalkPacket (id : Nat) (s : State) : Out :=
  match tfind s.walkers id with
  | none => .next s
  | some w =>
    if w.into.isSome then .next s
    else if !s.dieOpen w.die then .next (s.refuseWalk id w 2)
    else if (s.walkCores w).isEmpty then .next (s.refuseWalk id w 3)
    else match s.walkSlot w with
      | some f => .next (s.installWalk id w f)
      | none =>
        if w.arrived.isSome then .next s
        else .next ((s.modWalker id fun w => { w with arrived := some s.clock }).sched (s.clock + 64 * 1024) (.walkTimeout id))

/-- WALK_ACK (R67, R88 step 6): the source slot becomes FREE; what became pending for it since goes to the new slot. -/
def execWalkAck (id : Nat) (s : State) : Out :=
  match tfind s.walkers id with
  | none => .next s
  | some w =>
    let x := s.fib w.src
    let s := { s with walkers := tdel s.walkers id }
    if x.cont ≠ .walking id then .next s
    else match w.into with
      | none => .next s
      | some f =>
        let s := s.modFib f fun y => { y with
          pendFault := if y.pendFault.isSome then y.pendFault else x.pendFault, pendStop := y.pendStop || x.pendStop, pendUe := y.pendUe || x.pendUe }
        .next (s.vacate w.src)

/-- WALK_FAIL (R67, R90): the fibre resumes with the trap (R349). -/
def execWalkFail (id code : Nat) (s : State) : Out :=
  match tfind s.walkers id with
  | none => .next s
  | some w =>
    let x := s.fib w.src
    let s := { s with walkers := tdel s.walkers id }
    if x.cont ≠ .walking id then .next s
    else
      let s := (s.addDelay w.src.core 13 x.delay).modFib w.src fun x => { x with delay := 0 }
      .next ((s.ready w.src).trapEntry w.src 0x18 (word code) false x.pc)

/-- WALK_TIMEOUT (R90): no slot has freed within 64 wheels. -/
def execWalkTimeout (id : Nat) (s : State) : Out :=
  match tfind s.walkers id with
  | none => .next s
  | some w => if w.into.isSome ∨ w.arrived.isNone then .next s else .next (s.refuseWalk id w 1)

end Sys2Proof.Machine
end

