-- ==== Sys2Proof/Machine/Vec.lean ====
section
/-! DEFINITION. Vector, accumulator and mask registers, their lanes and masks (07 R192 to R194), the dispatch of an
instruction of the vector, accumulator, matrix and shape groups (R195 to R197, R262; 20 R480, R481), and the
dependences and timing of its start (R219). -/

namespace Sys2Proof.Machine

/-! ## Lanes and masks -/

/-- The values and flags of the active lanes; an inactive lane keeps its old value (R194). -/
def mapLanes (w : Nat) (mask : BitVec 32) (old : BitVec 1024) (f : Nat → Nat × Nat) : BitVec 1024 × Nat :=
  let rs := (List.range (1024 / w)).map fun l => if laneOn mask w l then f l else (laneOf old w l, 0)
  (ofLanes 1024 w (rs.map fun r : Nat × Nat => r.1), rs.foldl (fun a r => a ||| r.2) 0)

/-- The width of a lane of a type (R192). -/
def laneWidth (t : BitVec 3) : Nat := Instr.laneBits t

/-- The floating format of a lane type (R192). -/
def laneFmt (t : BitVec 3) : Fmt :=
  match t.toNat with
  | 4 => fmt16 | 5 => fmtBf | 7 => fmt64 | _ => fmt32

/-- The modifier of a mod field: zero in a masked form (R366). -/
def modOf (m : BitVec 4) : Nat := if Instr.masked m then 0 else m.toNat

/-- What an instruction computes: its register writes, its flags, and the word that VEXT returns. -/
structure VecOut where
  wr : List (Nat × BitVec 2048) := []
  flags : Nat := 0
  result : Word := 0
  deriving Repr

/-- A result for a v register. -/
def vOut (d : BitVec 5) (r : BitVec 1024 × Nat) : VecOut := { wr := [(d.toNat, r.1.setWidth 2048)], flags := r.2 }

/-! ## Dependences (R195) -/

/-- The registers that govern a masked form: its mask, and the old destination. -/
def govern (d : Nat) (m : BitVec 4) : List Nat := if Instr.masked m then [40 + maskNo m, d] else []

/-- The registers that an instruction reads. -/
def regsRead : Instr → List Nat
  | .vadd d a b _ m => [a.toNat, b.toNat] ++ govern d.toNat m
  | .vsub d a b _ m => [a.toNat, b.toNat] ++ govern d.toNat m
  | .vmul d a b _ m => [a.toNat, b.toNat] ++ govern d.toNat m
  | .vmin d a b _ m => [a.toNat, b.toNat] ++ govern d.toNat m
  | .vmax d a b _ m => [a.toNat, b.toNat] ++ govern d.toNat m
  | .vand d a b _ m => [a.toNat, b.toNat] ++ govern d.toNat m
  | .vor d a b _ m => [a.toNat, b.toNat] ++ govern d.toNat m
  | .vxor d a b _ m => [a.toNat, b.toNat] ++ govern d.toNat m
  | .vsh d a b _ m => [a.toNat, b.toNat] ++ govern d.toNat m
  | .vclz d a _ m => a.toNat :: govern d.toNat m
  | .vffs d a _ m => a.toNat :: govern d.toNat m
  | .vpopc d a _ m => a.toNat :: govern d.toNat m
  | .vfadd d a b _ m => [a.toNat, b.toNat] ++ govern d.toNat m
  | .vfsub d a b _ m => [a.toNat, b.toNat] ++ govern d.toNat m
  | .vfmul d a b _ m => [a.toNat, b.toNat] ++ govern d.toNat m
  | .vfma d a b _ m => [a.toNat, b.toNat, d.toNat] ++ govern d.toNat m
  | .vfmin d a b _ m => [a.toNat, b.toNat] ++ govern d.toNat m
  | .vfmax d a b _ m => [a.toNat, b.toNat] ++ govern d.toNat m
  | .vexp2 d a _ m => a.toNat :: govern d.toNat m
  | .vlog2 d a _ m => a.toNat :: govern d.toNat m
  | .vrcp d a _ m => a.toNat :: govern d.toNat m
  | .vrsq d a _ m => a.toNat :: govern d.toNat m
  | .vtanh d a _ m => a.toNat :: govern d.toNat m
  | .vcmp d a b _ m => [a.toNat, b.toNat] ++ govern (40 + d.toNat) m
  | .vsel _ a b _ n => [a.toNat, b.toNat, 40 + n.toNat]
  | .vperm d a b _ m => [a.toNat, b.toNat] ++ govern d.toNat m
  | .vbcst d _ _ m => govern d.toNat m
  | .vcvt d a _ _ _ m => a.toNat :: govern d.toNat m
  | .vext _ a _ _ _ => [a.toNat]
  | .vins d _ _ _ _ => [d.toNat]
  | .vred d a _ _ m => a.toNat :: govern d.toNat m
  | .vld d _ m _ _ _ => govern d.toNat m
  | .vst d _ m _ _ _ => d.toNat :: govern d.toNat m
  | .vgth d _ m v _ => v.toNat :: govern d.toNat m
  | .vsct d _ m v _ => [d.toNat, v.toNat] ++ govern d.toNat m
  | .vmac d a b _ m => [32 + d.toNat, a.toNat, b.toNat] ++ govern (32 + d.toNat) m
  | .vnrw _ a _ _ => [32 + a.toNat]
  | _ => []

/-- The v fields of an instruction that it only writes, for the check of R19. -/
def regsWritten : Instr → List Nat
  | .vadd d _ _ _ _ => [d.toNat]
  | .vsub d _ _ _ _ => [d.toNat]
  | .vmul d _ _ _ _ => [d.toNat]
  | .vmin d _ _ _ _ => [d.toNat]
  | .vmax d _ _ _ _ => [d.toNat]
  | .vand d _ _ _ _ => [d.toNat]
  | .vor d _ _ _ _ => [d.toNat]
  | .vxor d _ _ _ _ => [d.toNat]
  | .vsh d _ _ _ _ => [d.toNat]
  | .vclz d _ _ _ => [d.toNat]
  | .vffs d _ _ _ => [d.toNat]
  | .vpopc d _ _ _ => [d.toNat]
  | .vperm d _ _ _ _ => [d.toNat]
  | .vbcst d _ _ _ => [d.toNat]
  | .vcvt d _ _ _ _ _ => [d.toNat]
  | .vins d _ _ _ _ => [d.toNat]
  | .vred d _ _ _ _ => [d.toNat]
  | .vld d _ _ _ _ _ => [d.toNat]
  | .vgth d _ _ _ _ => [d.toNat]
  | _ => []

/-- On the shape core, a v field above 15 or a mask traps ILLEGAL (R19, R480). -/
def shapeBad (c : CoreId) (i : Instr) : Bool :=
  c.kind == 1 && (regsRead i ++ regsWritten i).any fun k => decide (16 ≤ k)

/-! ## Timing (R219, R440) -/

/-- The latency of an instruction from its start, with its accesses in the own tile store. -/
def vecLatency : Instr → Nat
  | .vmul _ _ _ _ _ => 4
  | .vfadd _ _ _ _ _ => 4
  | .vfsub _ _ _ _ _ => 4
  | .vfmul _ _ _ _ _ => 4
  | .vfma _ _ _ _ _ => 4
  | .vfmin _ _ _ _ _ => 4
  | .vfmax _ _ _ _ _ => 4
  | .vexp2 _ _ _ _ => 10
  | .vlog2 _ _ _ _ => 10
  | .vrcp _ _ _ _ => 10
  | .vrsq _ _ _ _ => 10
  | .vtanh _ _ _ _ => 10
  | .vperm _ _ _ _ _ => 3
  | .vred _ _ _ _ _ => 7
  | .vcvt _ _ _ _ _ _ => 4
  | .vnrw _ _ _ _ => 4
  | .vmac _ _ _ _ _ => 4
  | .vaclr _ => 1
  | .vld _ _ _ _ _ _ => 6
  | .vst _ _ _ _ _ _ => 6
  | .mrd _ _ => 4
  | .mrdRel _ _ => 4
  | .mrel _ => 1
  | .mrcl _ => 1
  | .mstat _ _ => 1
  | _ => 2

/-- The special-function instructions, which occupy their unit for 2 cycles. -/
def isSfu : Instr → Bool
  | .vexp2 _ _ _ _ => true
  | .vlog2 _ _ _ _ => true
  | .vrcp _ _ _ _ => true
  | .vrsq _ _ _ _ => true
  | .vtanh _ _ _ _ => true
  | _ => false

/-- A gang operation, which passes into the gang queue (R196). -/
def isGangOp : Instr → Bool
  | .mfmt _ => true
  | .mgang _ => true
  | .mma _ _ _ _ _ => true
  | .mmaHold _ _ _ _ _ => true
  | .mmaHb _ _ _ _ => true
  | .mzero _ _ => true
  | _ => false

/-- The instruction belongs to the matrix group, whose faults are MAT_FAULT (R198). -/
def isMtx : Instr → Bool
  | .mrd _ _ => true
  | .mrdRel _ _ => true
  | .mrel _ => true
  | .mrcl _ => true
  | .mstat _ _ => true
  | i => isGangOp i

/-- A source register may be used in this cycle: no started instruction still computes it (R219). A VMAC takes the
result of a VMAC into the same accumulator one cycle after its start. -/
def sourceReady (c : Core) (clock : Nat) (i : Instr) (key : Nat) : Bool :=
  let mac (j : Instr) : Bool := match j with | .vmac _ _ _ _ _ => true | _ => false
  match (c.running.filter fun d => (tfind d.wr key).isSome).getLast? with
  | none => true
  | some d => d.reads == 0 && (decide (d.doneAt ≤ clock) || (mac d.i && mac i && decide (32 ≤ key) && decide (key < 40) && decide (d.startAt < clock)))

/-- The accumulator slot that an instruction names, or zero (R199, R217, R218). -/
def slotOf (d : Disp) : Nat :=
  match d.i with
  | .mrd a _ => (lget 0 d.g a.toNat).toNat % 16
  | .mrdRel a _ => (lget 0 d.g a.toNat).toNat % 16
  | .mrel z => z.toNat
  | .mrcl z => z.toNat
  | .mstat a _ => (lget 0 d.g a.toNat).toNat % 16
  | i => State.gangOpSlot i

/-- A core dispatched one number before another: they count modulo 2^16 (R262). -/
def seqBefore (a b : Nat) : Bool := a != b && decide ((b + 65536 - a) % 65536 < 32768)

namespace State

/-! ## Dispatch (R195, R197, R262, R480, R481) -/

/-- Dispatch the executing instruction: the lease first, then an entry of the 16 (R82, R195). The counter of R262 counts it and
gives it its number (log 18). VEXT and MSTAT park until they retire (R197). -/
def vecDispatch (s : State) (i : Instr) : Out :=
  s.withLease fun s =>
    let c := s.core s.cur.core
    if 16 ≤ c.disp.length + c.running.length then .next (s.parkMe 11 .retry)
    else
      let x := s.me
      let no := (c.dispNo + 1) % 65536
      let d : Disp := { seq := no, slot := s.cur.slot, i, pc := x.pc, g := x.g, k := x.k, pl := x.pl }
      let e : RingEntry := { word := wordOf i, addr := x.pc.toNat, seq := no, valid := true, state := 0, fibre := fibreId s.cur }
      let s := (s.modCore s.cur.core fun c =>
        { c with disp := c.disp ++ [d], dispNo := no, ring := tset c.ring (no % 64) e }).countCore s.cur.core 0x20 1
      match i with
      | .vext g _ _ _ _ => .next (s.parkMe 11 (.dispatch g d.seq))
      | .mstat _ g => .next (s.parkMe 11 (.dispatch g d.seq))
      | _ => .next (s.retire 1)

/-- An instruction of these groups: core kind, encoding, register limits, dispatch (R480). -/
def vecIssue (s : State) (grp : Group) (i : Instr) (limit : State → Option Word) : Out :=
  s.guard grp i fun s =>
    if shapeBad s.cur.core i then s.illegal i
    else match limit s with
      | some v => s.raise 1 v
      | none => s.vecDispatch i

/-- No register limit. -/
def noLimit (_ : State) : Option Word := none

/-! ## Faults of dispatched instructions (R198, R199) -/

/-- The gang operations that a fibre dispatched after a number and that have not joined are discarded (R198). -/
def dropLaterOps (s : State) (f : FibreRef) (seq : Nat) : State :=
  let n := tileGang (coreTile f.core)
  let late (o : GangOp) : Bool := o.fibre == f && seqBefore seq o.d.seq
  let ops := (((s.gang n).queues.flatMap (·.2)).filter late)
  if ops.isEmpty then s else
  ops.foldl (fun s o => s.ringState f.core o.d.seq 3)
    (s.modGang n fun g => { g with queues := g.queues.map fun q => (q.1, q.2.filter fun o => !late o) })

/-- A dispatched instruction of a core faults at the head of what has started: it and everything that its fibre has
dispatched after it are discarded, and the fibre receives its fault (R198). -/
def vecFault (s : State) (c : CoreId) (d : Disp) (sub : Nat) (addr : Word) : State :=
  let f : FibreRef := ⟨c, d.slot⟩
  let mine := (s.core c).running.filter fun x => x.slot == d.slot
  let s := s.modCore c fun x => { x with running := x.running.filter fun y => y.slot != d.slot }
  let s := mine.foldl (fun s x => s.ringState c x.seq 3) s
  let s := match (s.fib f).cont with
    | .dispatch _ seq => if mine.any (fun x => x.seq == seq) then s.ready f else s
    | _ => s
  let s := (s.discardQueued f).dropLaterOps f d.seq
  let s := { s with flight := s.flight.filter fun a : Nat × Access =>
    !(a.2.who == f && (match a.2.op with | .laneRead q => mine.any fun x => x.seq == q | _ => false)) }
  s.imprecise f (if isMtx d.i then 0x11 else 0x10) (vecInfo addr.toNat (slotOf d) sub) d.seq

end State

end Sys2Proof.Machine
end

