-- ==== Sys2Proof/Machine/Vmem.lean ====
section
/-! DEFINITION. The VMEM group (20 R491 to R493): the checks of its lanes (07 R199; 10 R267), their reads and their
writes on the vector path (08 R224, R225). The lanes are checked and translated together at the instruction's start,
and written at its retirement. -/

namespace Sys2Proof.Machine

/-- The subcode of R199 for a cause that an address meets (R376): 6 PAGE, 7 PAGE_PERM, 3 CAP_SPACE. -/
def pageSub (cause : Nat) : Nat := if cause = 9 then 6 else if cause = 0xA then 7 else 3

/-- The fibre of a dispatched instruction. -/
def dispFibre (c : CoreId) (d : Disp) : FibreRef := ⟨c, d.slot⟩

/-- The instruction writes memory (R492). -/
def vmemWrites : Instr → Bool
  | .vst _ _ _ _ _ _ => true
  | .vsct _ _ _ _ _ => true
  | _ => false

/-- The v register that a VMEM instruction moves. -/
def vmemReg : Instr → BitVec 5
  | .vld d _ _ _ _ _ => d
  | .vst d _ _ _ _ _ => d
  | .vgth d _ _ _ _ => d
  | .vsct d _ _ _ _ => d
  | _ => 0

namespace State

/-- Steps 1 to 6 of R144 and the windows of R147 and R313 for a span, as a subcode of R199. A use of a capability
with O fails (R141). -/
def spanSub (s : State) (core : CoreId) (pl : Nat) (c : Cap) (a n align : Nat) (write : Bool) : Option Nat :=
  match capSteps c (isService core) a n (if write then pW else pR) false with
  | some e => some (e - 3)
  | none =>
    let homes := (pieces homeUnit (n / homeUnit + 2) a n).map fun p => (s.home core c.space p.1, p.2)
    if homes.any (fun h => h.1.isNone) then some 3
    else if homes.any (fun h => match h.1 with | some (.mem pa) => pl != 3 && s.windowBad pa h.2 c.meter | _ => false) then some 9
    else if write && homes.any (fun h => match h.1 with | some (.mem pa) => pl != 3 && s.codeTouched pa h.2 | _ => false) then some 2
    else if a % align ≠ 0 ∨ c.space = 8 then some 5
    else none

/-- The lowest byte of a span at which one of those checks fails with a subcode (R199, R440). -/
def spanByte (s : State) (core : CoreId) (pl : Nat) (c : Cap) (a n : Nat) (write : Bool) (sub : Nat) : Nat :=
  match capSteps c (isService core) a n (if write then pW else pR) false with
  | some e => if e = 7 then s.failingByte core (pl == 3) c a n write 7 else a
  | none =>
    if sub = 3 then s.failingByte core (pl == 3) c a n write 6
    else if sub = 9 ∨ sub = 2 then s.failingByte core (pl == 3) c a n write 5 else a

/-- The offset of the first byte of some physical pieces of a span that a window refuses to a meter (R147). -/
def refusedIn (s : State) (meter : Nat) : Nat → List (Nat × Nat) → Nat
  | off, [] => off
  | off, (pa, n) :: l =>
    match (pieces 4096 (n / 4096 + 2) pa n).find? fun q => s.windowBad q.1 q.2 meter with
    | some q => off + (q.1 - pa)
    | none => s.refusedIn meter (off + n) l

/-- The physical pieces of a span that passed those checks, by the translations that its instruction has taken, or a subcode and the
address (R157, R123, R147). -/
def spanPhys (s : State) (core : CoreId) (d : Disp) (c : Cap) (a n : Nat) (write : Bool) : Except (Nat × Nat) (List (Nat × Nat)) :=
  match s.physSpan core (lookIn d.xs c.space) c.space write (n / 4096 + 2) a n with
  | .error (e, x) => .error (pageSub e, x)
  | .ok ps =>
    if d.pl ≠ 3 ∧ (ps.any fun p => s.windowBad p.1 p.2 c.meter) then .error (9, a + s.refusedIn c.meter 0 ps) else .ok ps

/-- The address in its space of a page of a gateway (R121). -/
def gateAddr (space gw page : Nat) : Nat := page * 4096 + (if space = 4 then gw * 2 ^ 53 else 0)

/-- An instruction takes the translation of a page from its gateway's cache, or asks the gateway for it (R158). -/
def askPage (c : CoreId) (cap : Cap) (x : Disp × State) (p : Nat × Nat × Nat) : Disp × State :=
  let (d, s) := x
  if (lookIn d.xs p.1 p.2.1 (p.2.2 * 4096)).isSome || d.asked.contains p then (d, s)
  else match s.cached p.2.1 (s.partOf c) p.1 (p.2.2 * 4096) with
    | some t => ({ d with xs := (p.2.1, t) :: d.xs }, s)
    | none =>
      let a := gateAddr p.1 p.2.1 p.2.2
      match s.home c p.1 a with
      | some h => ({ d with asked := p :: d.asked, checks := d.checks + 1 }, (s.launch (dispFibre c d) (.laneCheck d.seq) cap a 0 h false).2)
      | none => (d, s)

/-- An instruction seeks the translations of spans of a capability that pass the checks of R144, each page once (R158). -/
def askSpans (c : CoreId) (cap : Cap) (spans : List (Nat × Nat)) (x : Disp × State) : Disp × State :=
  ((spans.flatMap fun p => x.2.gatePages c cap.space p.1 p.2).eraseDups).foldl (askPage c cap) x

/-- The instruction at the head of a core's dispatch queue, with what it has taken and asked for. -/
def setHead (s : State) (c : CoreId) (d : Disp) : State := s.modCore c fun x => { x with disp := d :: x.disp.drop 1 }

/-- An earlier access of the fibre to these bytes has not been performed: a scalar or lane access under way, or the
write of an instruction that has started and not retired (R225). -/
def laneHeld (s : State) (c : CoreId) (slot : Nat) (ps : List (Nat × Nat)) : Bool :=
  s.flightMeets ⟨c, slot⟩ ps || s.outMeets ⟨c, slot⟩ ps

/-- The lane lies in the core's own tile store. -/
def ownPieces (c : CoreId) (ps : List (Nat × Nat)) : Bool :=
  !ps.isEmpty && ps.all fun p => paKind p.1 == 1 && paIdx p.1 == coreTile c

/-- Send an access of the vector path to a home, translated already. -/
def launchLane (s : State) (c : CoreId) (d : Disp) (op : AccOp) (cap : Cap) (lane a n : Nat) (ps : List (Nat × Nat)) : State :=
  match s.home c cap.space a with
  | none => s
  | some h =>
    let (id, t) := s.launch (dispFibre c d) op cap a n h false
    t.modAccess id fun x =>
      { x with pa := (ps.head?).map (·.1), kn := lane, atRoot := d.pl == 3, pieces := if ps.length ≤ 1 then [] else ps,
               stage := match h with | .gateway _ _ => .queued | _ => .sent }

/-- Read a span for a dispatched instruction: at once from the own tile store, else by an access (R224). -/
def readLane (c : CoreId) (cap : Cap) (x : Disp × State) (r : Nat × Nat × Nat × List (Nat × Nat)) : Disp × State :=
  let (d, s) := x
  let (lane, a, n, ps) := r
  if ownPieces c ps then
    let (bs, err) := s.readPieces ps
    match err with
    | some _ => (if d.fault.isNone then { d with fault := some (8, word a), flane := lane } else d, s)
    | none => ({ d with buf := d.buf ++ [(vaKey cap.space a, bs)] }, s)
  else ({ d with reads := d.reads + 1 }, s.launchLane c d (.laneRead d.seq) cap lane a n ps)

/-- Write a span at the retirement of its instruction: at once to the own tile store, else by an access that is
acknowledged (R224). One that a window has come to refuse is not performed (R129; log 86). -/
def writeLane (c : CoreId) (d : Disp) (cap : Cap) (s : State) (o : Nat × List (Nat × Nat) × List Byte) : State :=
  let (a, ps, bs) := o
  if ownPieces c ps then
    if ps.any fun p => s.windowFault p.1 p.2 cap.meter (d.pl == 3) true then s else
    let bad := ps.any fun p => s.writeMeetsError p.1 p.2
    let s := writePieces ps bs s
    if bad then s.reportUe (dispFibre c d) a else s
  else s.launchLane c d (.laneWrite d.seq bs) cap 0 a bs.length ps

/-- A start takes the instruction from the dispatch queue into what runs (R219, R262). -/
def beginDisp (s : State) (c : CoreId) (d : Disp) : State :=
  ((s.modCore c fun x => { x with disp := x.disp.drop 1, running := x.running ++ [d] }).ringState c d.seq 1).spend c.die 1

/-- The results of the checks of the lanes, in lane order: the first fault, or their physical pieces (R267). -/
def vmemCheck (s : State) (c : CoreId) (d : Disp) (cap : Cap) (n : Nat) (write : Bool) :
    List (Nat × Nat) → Except (Nat × Nat × Nat) (List (Nat × Nat × Nat × List (Nat × Nat)))
  | [] => .ok []
  | (l, a) :: rest =>
    match s.spanSub c d.pl cap a n n write with
    | some e => .error (e, a, l)
    | none =>
      match s.spanPhys c d cap a n write with
      | .error (e, x) => .error (e, x, l)
      | .ok ps =>
        match s.vmemCheck c d cap n write rest with
        | .error e => .error e
        | .ok r => .ok ((l, a, n, ps) :: r)

/-- The start of a VMEM instruction (R492): once it has the translations of its lanes (R158, R266), they are checked; then its reads
begin, or what it writes is fixed. While it waits for a page, or an earlier access of the fibre holds it back (R225), it stays at
the head of the queue. -/
def startVmem (s : State) (c : CoreId) (d : Disp) (k : BitVec 2) (n : Nat) : Option State :=
  let x := s.core c
  let cap := lget .null d.k k.toNat
  let write := vmemWrites d.i
  let lanes := vmemLanes x d
  let occ := match d.i with
    | .vgth _ _ _ _ _ => ceilDiv lanes.length 4
    | .vsct _ _ _ _ _ => ceilDiv lanes.length 4
    | _ => 1
  let reg := vmemReg d.i
  let sound := lanes.filter fun l => (s.spanSub c d.pl cap l.2 n n write).isNone
  let (d, s) := askSpans c cap (sound.map fun l => (l.2, n)) (d, s)
  let head := d
  let d := { d with lanes }
  let d := { d with startAt := s.clock, doneAt := s.clock + vmemTail d }
  let busy (s : State) : State := s.modCore c fun x => { x with memFree := s.clock + occ }
  if d.checks ≠ 0 then some (s.setHead c head)
  else if d.fault.isSome then some (busy (s.beginDisp c { d with doneAt := s.clock + 1 }))
  else match s.vmemCheck c d cap n write lanes with
  | .error (e, a, l) => some (busy (s.beginDisp c { d with fault := some (e, word a), flane := l, doneAt := s.clock + 1 }))
  | .ok rs =>
    if s.laneHeld c d.slot (rs.flatMap fun r => r.2.2.2) then some (s.setHead c head)
    else
      if write then
        let v := vOf x reg
        some (busy (s.beginDisp c { d with out := rs.map fun r => (r.2.1, r.2.2.2, leBytes n (laneOf v (8 * n) r.1)) }))
      else
        let d := { d with wr := [(reg.toNat, (vOf x reg).setWidth 2048)] }
        let (d, s) := rs.foldl (readLane c cap) (d, s)
        some (busy (s.beginDisp c d))

end State

/-- VLD (R492): dispatch. -/
def execVld (d : BitVec 5) (k : BitVec 2) (m : BitVec 4) (x : BitVec 1) (g : BitVec 3) (o : BitVec 9) (s : State) : Out :=
  s.vecIssue .vec (.vld d k m x g o) State.noLimit

/-- VST (R492): dispatch. -/
def execVst (d : BitVec 5) (k : BitVec 2) (m : BitVec 4) (x : BitVec 1) (g : BitVec 3) (o : BitVec 9) (s : State) : Out :=
  s.vecIssue .vec (.vst d k m x g o) State.noLimit

/-- VGTH (R492): dispatch. -/
def execVgth (d : BitVec 5) (k : BitVec 2) (m : BitVec 4) (v : BitVec 5) (w : BitVec 1) (s : State) : Out :=
  s.vecIssue .vec (.vgth d k m v w) State.noLimit

/-- VSCT (R492): dispatch. -/
def execVsct (d : BitVec 5) (k : BitVec 2) (m : BitVec 4) (v : BitVec 5) (w : BitVec 1) (s : State) : Out :=
  s.vecIssue .vec (.vsct d k m v w) State.noLimit

end Sys2Proof.Machine
end

