-- ==== Sys2Proof/Machine/Shape.lean ====
section
/-! DEFINITION. Square-scaled blocks (06 R174 to R183) and the SHAPE group (18 R439 to R444). -/

namespace Sys2Proof.Machine

/-! ## Blocks -/

/-- The format of the elements of a block: a floating format, or the width of a signed integer (R165, R167). -/
def elemFmt (code : Nat) : Option Fmt :=
  match code with
  | 1 => some fmtE4M3 | 2 => some fmtE5M2 | 3 => some fmtE2M1 | _ => none

/-- WellFormed of R175 for a block of the form SQ8 (1) or SQ4 (2). -/
def blockWf (form : Nat) (bs : List Byte) : Bool := formOk form bs && (slice bs 20 12).all (· == 0)

/-- The value of an element code (R166, R167). -/
def elemValue (code x : Nat) : FpVal :=
  match elemFmt code with
  | some f => fpDecode f x
  | none => ofInt (sext x (if code = 5 then 4 else 8)) 0 false

/-- A value times a power of two. -/
def scaleBy (k : Int) : FpVal → FpVal
  | .fin n m e => .fin n m (e + k)
  | v => v

/-- The element codes of a block, row by row (R174). -/
def blockCodes (form : Nat) (bs : List Byte) : List Nat :=
  (List.range 1024).map fun n => payloadElem (form == 2) (bs.drop 32) (n / 32) (n % 32)

/-- The micro-exponent of a row or column from its word (R174). -/
def microExp (w i : Nat) : Nat := w / 4 ^ i % 4

/-- DecodeSQ of R176 for all elements, row by row. -/
def decodeSq (form : Nat) (bs : List Byte) : List FpVal :=
  let t := (lget 0 bs 0).toNat
  if !blockWf form bs ∨ t = 255 then List.replicate 1024 .nan
  else
    let rw := sliceNat bs 1 8
    let cw := sliceNat bs 9 8
    let code := (lget 0 bs 17).toNat
    (blockCodes form bs).zipIdx.map fun x =>
      scaleBy ((t : Int) - 127 + microExp rw (x.2 / 32) + microExp cw (x.2 % 32)) (elemValue code x.1)

/-- The payload of a block from its element codes, row by row (R174). -/
def packCodes (four : Bool) : List Nat → List Byte
  | x :: y :: l => if four then BitVec.ofNat 8 (x % 16 + y % 16 * 16) :: packCodes four l
                   else BitVec.ofNat 8 x :: BitVec.ofNat 8 y :: packCodes four l
  | [x] => [BitVec.ofNat 8 x]
  | [] => []

/-- A block from its fields (R174): tile exponent, row and column words, format, generation, payload. -/
def makeBlock (t rw cw code gen : Nat) (payload : List Byte) : List Byte :=
  leBytes 1 t ++ leBytes 8 rw ++ leBytes 8 cw ++ leBytes 1 code ++ leBytes 2 gen ++ List.replicate 12 0 ++ payload

/-- P of R179. -/
def aimExp (code : Nat) : Int :=
  match code with
  | 1 => 8 | 2 => 15 | 3 => 2 | 4 => 6 | _ => 2

/-- M of R180: the exponent of a finite non-zero value. -/
def expOf : FpVal → Option Int
  | .fin _ m e => if m = 0 then none else some ((Nat.log2 m : Nat) + e)
  | _ => none

def maxOpt : Option Int → Option Int → Option Int
  | some a, some b => some (max a b)
  | some a, none => some a
  | none, b => b

/-- A limited scale for a need d: between 0 and 3 (R180). -/
def needScale (d : Option Int) (sub : Int) : Nat :=
  match d with
  | some x => (min 3 (max 0 (x - sub))).toNat
  | none => 0

/-- Round to an element of a format with sat = 1 (R169, R180): code, flags. -/
def elemRound (code mode : Nat) (v : FpVal) : Nat × Nat :=
  match elemFmt code with
  | some f => round f mode true v
  | none =>
    let w := if code = 5 then 4 else 8
    match v with
    | .fin neg m e =>
      let (x, nx) := roundInt mode neg m e
      let lim := max (-(2 ^ (w - 1) : Nat) : Int) (min ((2 ^ (w - 1) : Nat) - 1) x)
      if lim ≠ x then (wrap w lim, flagOF + flagNX)
      else (wrap w x, (if nx then flagNX else 0) + (if nx ∧ m ≠ 0 ∧ (Nat.log2 m : Int) + e < 0 then flagUF else 0))
    | _ => (0, 0)

/-- EncodeSQ of R180: the block and the flags of R181. -/
def encodeSq (xs : List Nat) (code mode gen : Nat) : List Byte × Nat :=
  let vs := xs.map (fpDecode fmt32)
  let bad (v : FpVal) : Bool := match v with | .nan => true | .inf _ => code != 2 | _ => false
  let size := codeBytes code
  if vs.any bad then (makeBlock 255 0 0 code gen (List.replicate (size - 32) 0), flagNV)
  else
    let p := aimExp code
    let ms := vs.map expOf
    let t : Int := match ms.foldl maxOpt none with
      | some g => max (-127) (g - p - 6)
      | none => -127
    let ds := ms.map fun m => m.map fun x => x - p - t
    let col (j : Nat) : Option Int := ((List.range 32).map fun i => lget none ds (32 * i + j)).foldl maxOpt none
    let cs := (List.range 32).map fun j => needScale (col j) 3
    let row (i : Nat) : Option Int :=
      ((List.range 32).map fun j => (lget none ds (32 * i + j)).map fun x => x - ((lget 0 cs j : Nat) : Int)).foldl maxOpt none
    let rs := (List.range 32).map fun i => needScale (row i) 0
    let es := vs.zipIdx.map fun x =>
      elemRound code mode (scaleBy (-(t + ((lget 0 rs (x.2 / 32) : Nat) : Int) + ((lget 0 cs (x.2 % 32) : Nat) : Int))) x.1)
    let wordOfs (l : List Nat) : Nat := l.foldr (fun x acc => x + 4 * acc) 0
    (makeBlock (t + 127).toNat (wordOfs rs) (wordOfs cs) code gen (packCodes (size == 544) (es.map (·.1))),
      es.foldl (fun a e => a ||| e.2) 0)

/-- The code of the largest magnitude with the sign of an element (R183). -/
def largestCode (code x : Nat) : Nat :=
  match code with
  | 4 => if bitN x 7 then 0x80 else 0x7F
  | 5 => if bitN x 3 then 8 else 7
  | 1 => x / 128 * 128 + 0x7E
  | 2 => x / 128 * 128 + 0x7B
  | _ => x / 8 * 8 + 7

/-- The zero of the sign of an element (R183). -/
def zeroCode (code x : Nat) : Nat :=
  match code with
  | 1 => x / 128 * 128
  | 2 => x / 128 * 128
  | 3 => x / 8 * 8
  | _ => 0

/-- ComposeSQ of R183: the block and the flags. -/
def composeSq (form : Nat) (bs : List Byte) (k : Int) (sat : Bool) : List Byte × Nat :=
  let size := blkBytes form
  let code := (lget 0 bs 17).toNat
  if !blockWf form bs then
    (255 :: (List.replicate 16 0 ++ slice bs 17 15 ++ List.replicate (size - 32) 0), flagNV)
  else
    let gen := (sliceNat bs 18 2 + 1) % 65536
    let head (t rw cw : Nat) (payload : List Byte) : List Byte := makeBlock t rw cw code gen payload
    let t := (lget 0 bs 0).toNat
    let rw := sliceNat bs 1 8
    let cw := sliceNat bs 9 8
    if t = 255 then (head 255 rw cw (bs.drop 32), 0)
    else
      let codes := blockCodes form bs
      let finite (x : Nat) : Bool := match elemValue code x with | .fin _ _ _ => true | _ => false
      let live (x : Nat) : Bool := (expOf (elemValue code x)).isSome
      let t2 : Int := t + k
      if (0 ≤ t2 ∧ t2 ≤ 254) ∨ !codes.any live then (head (min 254 (max 0 t2)).toNat rw cw (bs.drop 32), 0)
      else if 254 < t2 then
        if sat then
          (head 254 (2 ^ 64 - 1) (2 ^ 64 - 1) (packCodes (form == 2) (codes.map fun x => if live x then largestCode code x else x)),
            flagOF + flagNX)
        else (head 255 0 0 (List.replicate (size - 32) 0), flagOF + flagNX)
      else
        (head 0 0 0 (packCodes (form == 2) (codes.map fun x => if finite x then zeroCode code x else x)), flagUF + flagNX)

/-! ## The group -/

/-- The units in which a span is accessed: a block as one unit, or elements (R223, R440). -/
def shapeUnits (a n align : Nat) : List (Nat × Nat) :=
  if align = 32 then [(a, n)] else (List.range (n / align)).map fun i => (a + i * align, align)

/-- What a SHAPE instruction writes for the bytes of its source, and its flags. -/
def shapeCompute (i : Instr) (g : List Word) (form : Nat) (bs : List Byte) : List Byte × Nat :=
  match i with
  | .qenc _ b _ _ r =>
    let v := (lget 0 g b.toNat).toNat
    encodeSq ((List.range 1024).map fun n => sliceNat bs (4 * n) 4) (v % 256) r.toNat (bits v 31 16)
  | .qdec _ b _ _ x r =>
    let v := (lget 0 g b.toNat).toNat
    let (f, n) := match v % 8 with | 0 => (fmt32, 4) | 1 => (fmtBf, 2) | _ => (fmt16, 2)
    let rs := (decodeSq form bs).map fun y => round f r.toNat (x == 1#1) y
    (rs.flatMap fun y => leBytes n y.1, rs.foldl (fun a y => a ||| y.2) 0)
  | .qtrn _ _ _ _ => if formOk form bs then (transposeBlock form bs, 0) else (nanBlock form bs, flagNV)
  | .qscl _ b _ _ x => composeSq form bs (sext (lget 0 g b.toNat).toNat 9) (x == 1#1)
  | _ => ([], 0)

/-- The occupancy of the shape unit (R440). -/
def shapeCycles (i : Instr) (form : Nat) : Nat :=
  match i with
  | .qenc _ _ _ _ _ => if form = 1 then 96 else 80
  | .qdec _ _ _ _ _ _ => if form = 1 then 96 else 80
  | _ => if form = 1 then 40 else 24

namespace State

/-- The physical pieces of the units of a span. -/
def unitPieces (s : State) (c : CoreId) (d : Disp) (cap : Cap) (write : Bool) :
    List (Nat × Nat) → Except (Nat × Nat) (List (Nat × Nat × Nat × List (Nat × Nat)))
  | [] => .ok []
  | (a, n) :: rest =>
    match s.spanPhys c d cap a n write with
    | .error e => .error e
    | .ok ps =>
      match s.unitPieces c d cap write rest with
      | .error e => .error e
      | .ok r => .ok ((0, a, n, ps) :: r)

/-- The checks of a SHAPE instruction: both spans by R144, then their translations; a subcode and the lowest failing byte, or the
units of the source and of the destination (R440). -/
def shapeCheck (s : State) (c : CoreId) (d : Disp) (o : ShapeOp) :
    Except (Nat × Nat) (List (Nat × Nat × Nat × List (Nat × Nat)) × List (Nat × Nat × Nat × List (Nat × Nat))) :=
  match s.spanSub c d.pl o.sc o.sa o.sn o.salign false, s.spanSub c d.pl o.dc o.da o.dn o.dalign true with
  | some e, _ => .error (e, s.spanByte c d.pl o.sc o.sa o.sn false e)
  | none, some e => .error (e, s.spanByte c d.pl o.dc o.da o.dn true e)
  | none, none =>
    match s.unitPieces c d o.sc false (shapeUnits o.sa o.sn o.salign), s.unitPieces c d o.dc true (shapeUnits o.da o.dn o.dalign) with
    | .error e, _ => .error e
    | .ok _, .error e => .error e
    | .ok r, .ok w => .ok (r, w)

/-- The start of a SHAPE instruction (R440): once it has the translations of its spans (R158, R266), they are checked and its source
is read. -/
def startShape (s : State) (c : CoreId) (d : Disp) (o : ShapeOp) : Option State :=
  let t := shapeCycles d.i o.form
  let sound := (s.spanSub c d.pl o.sc o.sa o.sn o.salign false).isNone && (s.spanSub c d.pl o.dc o.da o.dn o.dalign true).isNone
  let (d, s) := if sound then askSpans c o.dc [(o.da, o.dn)] (askSpans c o.sc [(o.sa, o.sn)] (d, s)) else (d, s)
  let head := d
  let d := { d with startAt := s.clock, doneAt := s.clock + t }
  let busy (s : State) : State := s.modCore c fun x => { x with sfuFree := s.clock + t }
  if d.checks ≠ 0 then some (s.setHead c head)
  else if d.fault.isSome then some (busy (s.beginDisp c { d with doneAt := s.clock + 1 }))
  else match s.shapeCheck c d o with
  | .error (e, a) => some (busy (s.beginDisp c { d with fault := some (e, word a), doneAt := s.clock + 1 }))
  | .ok (r, w) =>
    if s.laneHeld c d.slot ((r ++ w).flatMap fun x => x.2.2.2) then some (s.setHead c head)
    else
      let (d, s) := r.foldl (readLane c o.sc) ({ d with out := w.map fun x => (x.2.1, x.2.2.2, []) }, s)
      some (busy (s.beginDisp c d))

/-- At its retirement a SHAPE instruction has its whole source: what it writes, and its flags. -/
def shapeResult (d : Disp) (o : ShapeOp) : Disp :=
  let bs := (shapeUnits o.sa o.sn o.salign).flatMap fun u => tget (List.replicate u.2 0) d.buf (vaKey o.sc.space u.1)
  let (w, fl) := shapeCompute d.i d.g o.form bs
  { d with flags := fl, out := d.out.map fun x => (x.1, x.2.1, slice w (x.1 - o.da) (if o.dalign = 32 then o.dn else o.dalign)) }

end State

/-- The limits of gb (R439, R441 to R444). -/
def gbLimit (b : BitVec 3) (bad : Nat → Bool) (s : State) : Option Word := if bad (s.g b).toNat then some (s.g b) else none

/-- QENC (R442): dispatch. -/
def execQenc (a b : BitVec 3) (z k : BitVec 2) (r : BitVec 3) (s : State) : Out :=
  s.vecIssue .shape (.qenc a b z k r)
    (gbLimit b fun v => v % 256 == 0 || decide (5 < v % 256) || bits v 15 8 != 0 || bits v 63 32 != 0)

/-- QDEC (R441): dispatch. -/
def execQdec (a b : BitVec 3) (z k : BitVec 2) (x : BitVec 1) (r : BitVec 3) (s : State) : Out :=
  s.vecIssue .shape (.qdec a b z k x r) (gbLimit b fun v => decide (16 ≤ v) || decide (2 < v % 8))

/-- QTRN (R444): dispatch. -/
def execQtrn (a b : BitVec 3) (z k : BitVec 2) (s : State) : Out :=
  s.vecIssue .shape (.qtrn a b z k) (gbLimit b fun v => decide (2 ≤ v))

/-- QSCL (R443): dispatch. -/
def execQscl (a b : BitVec 3) (z k : BitVec 2) (x : BitVec 1) (s : State) : Out :=
  s.vecIssue .shape (.qscl a b z k x) (gbLimit b fun v => decide (1024 ≤ v) || v % 512 == 256)

end Sys2Proof.Machine
end

