-- ==== Sys2Proof/Machine/Mtx.lean ====
section
/-! DEFINITION. The MTX group (18 R422 to R431, R435; 07 R196, R204 to R218): the dispatch of its members, the entry of
gang operations into the gang queue, and the instructions that read and free accumulator slots. -/

namespace Sys2Proof.Machine

/-- The tag that a gang operation gives (R422). -/
def gangTag (d : Disp) : Nat :=
  match d.i with
  | .mma _ _ _ _ b => (lget 0 d.g b.toNat).toNat % 4096
  | .mmaHold _ _ _ _ b => (lget 0 d.g b.toNat).toNat % 4096
  | .mmaHb _ _ _ b => (lget 0 d.g b.toNat).toNat % 4096
  | .mzero _ b => (lget 0 d.g b.toNat).toNat % 4096
  | _ => 0

/-- The value that MFMT and MGANG carry. -/
def gangValue (d : Disp) : Nat :=
  match d.i with
  | .mfmt a => (lget 0 d.g a.toNat).toNat
  | .mgang a => (lget 0 d.g a.toNat).toNat
  | _ => 0

/-- The kind of a gang operation: 0 MFMT, 1 MGANG, 2 MMA, 3 `mma.hold`, 4 `mma.hb`, 5 MZERO. -/
def gangKind : Instr → Nat
  | .mfmt _ => 0
  | .mgang _ => 1
  | .mma _ _ _ _ _ => 2
  | .mmaHold _ _ _ _ _ => 3
  | .mmaHb _ _ _ _ => 4
  | _ => 5

/-- A gang operation names a slot; MGANG and MFMT count as naming every one (R196). -/
def namesSlot (i : Instr) (n : Nat) : Bool := decide (gangKind i < 2) || State.gangOpSlot i == n

/-- A row of an accumulator slot as a vector register (R217). -/
def slotRow (a : AccSlot) (r : Nat) : BitVec 1024 :=
  ofLanes 1024 32 ((List.range 32).map fun j => (tget 0 a.vals (32 * r + j)).toNat)

/-- A slot has become FREE. -/
def AccSlot.free : AccSlot := {}

namespace State

/-- The gang and the position of a math core (R17). -/
def gangOf (c : CoreId) : Nat := tileGang (coreTile c)
def posOf (c : CoreId) : Nat := tilePos (coreTile c)

/-- An earlier gang operation of the core that names the slot has not written it (R196), or an earlier instruction that frees it has
not retired. -/
def slotBusy (s : State) (c : CoreId) (n : Nat) : Bool :=
  let g := s.gang (gangOf c)
  (tget [] g.queues (posOf c)).any (fun o => namesSlot o.d.i n) || (g.mmas.any fun m => m.slot == n && m.ops.any (·.fibre.core == c))
    || (s.core c).running.any fun d => d.frees && slotOf d == n

/-- Gang operations that name the slot and wait unjoined in the core's gang queue (R218). -/
def slotQueued (s : State) (c : CoreId) (n : Nat) : Nat :=
  ((tget [] (s.gang (gangOf c)).queues (posOf c)).filter fun o => namesSlot o.d.i n).length

/-- The word of MSTAT (R218). -/
def mstatWord (s : State) (c : CoreId) (n : Nat) : Word :=
  let a := tget {} (s.gang (gangOf c)).slots n
  word (a.state * 2 ^ 62 + s.slotQueued c n % 16 * 2 ^ 58
    + (if a.state = 0 then 0 else a.tag % 4096 * 2 ^ 46 + lget 0 a.members (posOf c) % 2 ^ 21))

/-- Gang operations that a fibre dispatched before a number stand in its gang queue, or have joined and not written their slot. -/
def gangPending (s : State) (f : FibreRef) (seq : Nat) : Bool :=
  let g := s.gang (gangOf f.core)
  let mine (o : GangOp) : Bool := o.fibre == f && seqBefore o.d.seq seq
  f.core.kind == 2 && (g.queues.any (fun q => q.2.any mine) || g.mmas.any fun m => m.ops.any mine)

/-- Set an accumulator slot of a core's gang. -/
def setSlot (s : State) (c : CoreId) (n : Nat) (a : AccSlot) : State :=
  s.modGang (gangOf c) fun g => { g with slots := tset g.slots n a }

/-- A slot instruction acts (R428 to R431): what it writes, whether it frees its slot, or its fault. A fibre of another
partition than the slot's is no member (R216). The slot becomes FREE at the retirement, when no earlier fault can discard the
instruction any more (R198). -/
def slotAct (s : State) (c : CoreId) (d : Disp) : Disp :=
  let n := slotOf d
  let a := tget {} (s.gang (gangOf c)).slots n
  let mine := lget 0 a.members (posOf c) == fibreId ⟨c, d.slot⟩
  let fail (sub : Nat) : Disp := { d with fault := some (sub, 0) }
  let read (r : BitVec 3) (v : BitVec 5) (rel : Bool) : Disp :=
    let row := (lget 0 d.g r.toNat).toNat / 256 % 32
    if a.state = 0 then fail 13
    else if a.state = 1 ∧ !mine then fail 11
    else if a.bad.contains row then fail 8
    else { d with wr := [(v.toNat, (slotRow a row).setWidth 2048)], frees := rel }
  if a.state ≠ 0 ∧ a.part ≠ s.partOf c then fail 11 else
  match d.i with
  | .mrd r v => read r v false
  | .mrdRel r v => read r v true
  | .mrel _ => if a.state = 1 then (if mine then { d with frees := true } else fail 11) else d
  | .mrcl _ => if a.state = 1 then fail 13 else { d with frees := a.state == 2 }
  | .mstat _ _ => { d with result := s.mstatWord c n }
  | _ => d

/-- The start of a slot instruction, once the operations of R196 have written its slot. -/
def startSlot (s : State) (c : CoreId) (d : Disp) : Option State :=
  if s.slotBusy c (slotOf d) then none
  else some (s.beginDisp c (s.slotAct c { d with startAt := s.clock, doneAt := s.clock + vecLatency d.i }))

/-- A gang operation passes into the gang queue: its dispatch entry frees. By a fibre that is not the core's member it is discarded,
once all that was dispatched before it is complete (R196, R198, R206). A fibre whose own MGANG stands in the queue is taken for the
member that this MGANG's join makes it: the operations join in the queue's order (log 19). -/
def enterGang (s : State) (c : CoreId) (d : Disp) : Option State :=
  let n := gangOf c
  let g := s.gang n
  let q := tget [] g.queues (posOf c)
  let f : FibreRef := ⟨c, d.slot⟩
  if 8 ≤ q.length then none
  else
    let t := (s.modCore c fun x => { x with disp := x.disp.drop 1 }).wakeEng c
    if gangKind d.i ≠ 1 ∧ !(q.any fun o => gangKind o.d.i == 1 && o.fibre == f) ∧ (!g.formed ∨ lget ⟨.root, 0⟩ g.members (posOf c) ≠ f) then
      if s.gangPending f d.seq ∨ !(s.core c).running.isEmpty then none else some ((t.ringState c d.seq 3).vecFault c d 11 0)
    else some (t.modGang n fun g => { g with queues := tset g.queues (posOf c) (q ++ [{ d, fibre := f, mark := t.nextId }]) })

end State

/-- The limits of R208, R206, R368, R217 and R218 on the registers of the MTX group. -/
def fmtLimit (v : Nat) : Bool :=
  v % 16 + bits v 8 8 * 256 != v || v % 4 == 3 || v / 4 % 4 == 3 || ((v % 4 == 2) != (v / 4 % 4 == 2))

/-- MFMT (R424): dispatch. -/
def execMfmt (a : BitVec 3) (s : State) : Out := s.vecIssue .math (.mfmt a) (gbLimit a fmtLimit)

/-- MGANG (R425): dispatch. -/
def execMgang (a : BitVec 3) (s : State) : Out := s.vecIssue .math (.mgang a) (gbLimit a fun v => decide (65536 ≤ v))

/-- MMA (R426): dispatch. -/
def execMma (z : BitVec 4) (k l : BitVec 2) (a b : BitVec 3) (s : State) : Out :=
  s.vecIssue .math (.mma z k l a b) (gbLimit b fun v => decide (4096 ≤ v))

/-- `mma.hold` (R426): dispatch. -/
def execMmaHold (z : BitVec 4) (k l : BitVec 2) (a b : BitVec 3) (s : State) : Out :=
  s.vecIssue .math (.mmaHold z k l a b) (gbLimit b fun v => decide (4096 ≤ v))

/-- `mma.hb` (R426): dispatch. -/
def execMmaHb (z : BitVec 4) (k : BitVec 2) (a b : BitVec 3) (s : State) : Out :=
  s.vecIssue .math (.mmaHb z k a b) (gbLimit b fun v => decide (4096 ≤ v))

/-- MZERO (R435): dispatch. -/
def execMzero (z : BitVec 4) (b : BitVec 3) (s : State) : Out :=
  s.vecIssue .math (.mzero z b) (gbLimit b fun v => decide (4096 ≤ v))

/-- MRD (R429): dispatch. -/
def execMrd (a : BitVec 3) (d : BitVec 5) (s : State) : Out :=
  s.vecIssue .math (.mrd a d) (gbLimit a fun v => v % 16 + bits v 12 8 * 256 != v)

/-- `mrd.rel` (R429): dispatch. -/
def execMrdRel (a : BitVec 3) (d : BitVec 5) (s : State) : Out :=
  s.vecIssue .math (.mrdRel a d) (gbLimit a fun v => v % 16 + bits v 12 8 * 256 != v)

/-- MREL (R430): dispatch. -/
def execMrel (z : BitVec 4) (s : State) : Out := s.vecIssue .math (.mrel z) State.noLimit

/-- MRCL (R428): dispatch. -/
def execMrcl (z : BitVec 4) (s : State) : Out := s.vecIssue .math (.mrcl z) State.noLimit

/-- MSTAT (R431): dispatch; the fibre parks until it retires. -/
def execMstat (a d : BitVec 3) (s : State) : Out := s.vecIssue .math (.mstat a d) (gbLimit a fun v => decide (16 ≤ v))

end Sys2Proof.Machine
end

