-- ==== Sys2Proof/Machine/EvGang.lean ====
section
/-! DEFINITION. The gang: joins, operand fetches, sums and slot writes (07 R205 to R215, R220; 02 R55, R56; 06 R182,
R184; 08 R234; 13 R327, R328, R330; 18 R426, R427, R435). -/

namespace Sys2Proof.Machine

/-! ## The sum of an MMA (R182, R184) -/

/-- The bytes of an operand of a class (R208). -/
def operandBytes (cls : Nat) : Nat := match cls with | 0 => 1056 | 1 => 544 | _ => 2048

/-- The cycles for which an MMA occupies the array (R209). -/
def arrayTime (sa sb : Nat) : Nat := if sa = 2 then 32 else if sa = 1 ∧ sb = 1 then 8 else 16

/-- The 1,024 values of an operand, row by row (R176, R210). -/
def operandValues (cls : Nat) (bs : List Byte) : List FpVal :=
  if cls = 2 then (List.range 1024).map fun n => fpDecode fmtBf (sliceNat bs (2 * n) 2) else decodeSq (cls + 1) bs

/-- The rows of 32 of a matrix. -/
def rowsOf (vs : List FpVal) : List (List FpVal) := (List.range 32).map fun i => (vs.drop (32 * i)).take 32

/-- The columns of a matrix given by its rows. -/
def colsOf (rows : List (List FpVal)) : List (List FpVal) := (List.range 32).map fun j => rows.map fun r => lget .nan r j

/-- One result of an MMA (R184) from the old value, a row of A and a column of B: its code and its flags. -/
def mmaValue (sat : Bool) (c : FpVal) (row col : List FpVal) : Nat × Nat :=
  let ps := row.zip col
  if fpIsNaN c ∨ ps.any (fun p : FpVal × FpVal => fpIsNaN p.1 || fpIsNaN p.2) then (canonNaN fmt32, 0)
  else
    let sum := ps.foldl (fun (a : FpVal × Nat) p =>
      let x := fpMul p.1 p.2
      let y := fpAdd a.1 x.1
      (y.1, a.2 ||| x.2 ||| y.2)) (c, 0)
    let r := round fmt32 0 sat sum.1
    (r.1, r.2 ||| sum.2)

/-- All results of an MMA (R210): the new values of its slot, row by row, and its flags. -/
def mmaSlot (m : Mma) (old : AccSlot) : List (Nat × BitVec 32) × Nat :=
  let mat (i cls : Nat) : List (List FpVal) := rowsOf (operandValues cls (lget [] m.blocks i))
  let as := (List.range 4).map fun q => mat q m.sa
  let bs := (List.range 4).map fun q => colsOf (mat (4 + q) m.sb)
  let rows := (List.range 32).map fun i => as.flatMap fun a => lget [] a i
  let cols := (List.range 32).map fun j => bs.flatMap fun b => lget [] b j
  let rs := (List.range 1024).map fun n =>
    (n, mmaValue m.sat (fpDecode fmt32 (tget 0 old.vals n).toNat) (lget [] rows (n / 32)) (lget [] cols (n % 32)))
  (rs.map fun r => (r.1, BitVec.ofNat 32 r.2.1), rs.foldl (fun a r => a ||| r.2.2) 0)

/-! ## Joins -/

/-- The heads of a join agree (R205). -/
def headsAgree (x y : Disp) : Bool :=
  gangKind x.i == gangKind y.i && State.gangOpSlot x.i == State.gangOpSlot y.i && gangTag x == gangTag y
    && (if gangKind x.i = 1 then gangValue x % 65536 == gangValue y % 65536 else gangValue x == gangValue y)

/-- Why a joined operation on a slot is discarded, as a subcode (R215, R426). -/
def slotRefuses (g : Gang) (d : Disp) : Option Nat :=
  let a := tget {} g.slots (State.gangOpSlot d.i)
  let k := gangKind d.i
  if 2 ≤ k ∧ k ≤ 4 ∧ !g.valid then some 14
  else if k = 4 ∧ !g.hbv then some 13
  else if a.state = 1 ∧ !a.dying ∧ a.tag ≠ gangTag d then some 12
  else if a.state = 2 ∨ a.dying then some 15
  else none

namespace State

/-- Report a fault to the four members of a joined operation (R205, R211, R426). -/
def faultAll (s : State) (n : Nat) (ops : List GangOp) (addr sub : Nat) : State :=
  ops.foldl (fun s o => s.gangFault n o addr sub) s

/-- The joined operations of a gang have had their effect: they retire, and what waits for that goes on (R84). -/
def gangRetire (s : State) (ops : List GangOp) (flags : Nat) : State :=
  ops.foldl (fun s o =>
    ((s.modCore o.fibre.core fun c => { c with fpst := c.fpst ||| flags }).ringState o.fibre.core o.d.seq 2).recheck o.fibre) s

/-- Open a FREE slot with the tag and the members of a joined operation, for their partition (R215, R216). -/
def openSlot (s : State) (n slot tag : Nat) : State :=
  let g := s.gang n
  if (tget {} g.slots slot).state = 0 then
    let part := match g.members.head? with | some f => s.partOf f.core | none => 63
    s.setGang n { g with slots := tset g.slots slot { state := 1, part, tag, members := g.members.map fibreId } }
  else s

/-- The values of a slot become +0 (R435). -/
def zeroSlot (s : State) (n slot : Nat) : State :=
  s.modGang n fun g => { g with slots := tmod {} g.slots slot fun a => { a with vals := [], bad := [] } }

/-- MGANG joins (R206). -/
def joinMgang (s : State) (n : Nat) (ops : List GangOp) (token : Nat) : State :=
  let g := s.gang n
  let members := ops.map (·.fibre)
  let ids := members.map fibreId
  let s := s.setGang n { g with
    formed := true, token, members, valid := false, hbv := false,
    slots := g.slots.map fun x => (x.1, if x.2.members = ids then x.2 else orphan g.mmas x.1 x.2) }
  s.gangRetire ops 0

/-- MFMT joins (R208, R424). -/
def joinMfmt (s : State) (n : Nat) (ops : List GangOp) (v : Nat) : State :=
  (s.modGang n fun g => { g with sat := bitN v 8, sb := v / 4 % 4, sa := v % 4, valid := true, hbv := false }).gangRetire ops 0

/-- MZERO joins: its zeros follow the operations joined before it on its slot (R435, R215). -/
def joinMzero (s : State) (n slot tag : Nat) (ops : List GangOp) : State :=
  let s := s.openSlot n slot tag
  let g := s.gang n
  if g.mmas.any fun m => m.slot == slot then
    let m : Mma := ⟨slot, tag, 3, ops, s.clock, 0, 0, false, 0, [], false, s.clock, s.clock, s.clock, 0, [], 0, 0, g.hbv⟩
    s.setGang n { g with mmas := g.mmas ++ [m] }
  else (s.zeroSlot n slot).gangRetire ops 0

/-- An MMA joins (R426): it waits for the operand network. -/
def joinMma (s : State) (n slot tag var : Nat) (ops : List GangOp) : State :=
  let s := s.openSlot n slot tag
  let g := s.gang n
  let m : Mma := ⟨slot, tag, var, ops, s.clock, g.sa, g.sb, g.sat, if g.sa = 2 then 2 else 1, [], false, 0, 0, 0, 0, [], 0, 0, g.hbv⟩
  let s := s.setGang n { g with mmas := g.mmas ++ [m], hbv := g.hbv || var == 1 }
  ops.foldl (fun s o => s.countCore o.fibre.core 0x21 1) s

/-- The four heads of a gang's queues (R205). -/
def gangHeads (g : Gang) : List GangOp := (List.range 4).filterMap fun q => (tget [] g.queues q).head?

/-- A head may join: nothing that its fibre dispatched before it can still fault and so discard it (R198), and no instruction before it
still has to free its slot (R215; log 96). -/
def headReady (s : State) (o : GangOp) : Bool :=
  !(s.core o.fibre.core).running.any fun e => seqBefore e.seq o.d.seq &&
    ((e.slot == o.fibre.slot && (e.reads != 0 || e.fault.isSome)) || (e.frees && namesSlot o.d.i (slotOf e)))

/-- The partitions of a gang's tiles hold no stopped one. -/
def gangRuns (s : State) (n : Nat) : Bool := (List.range 4).all fun q => !s.stopped (s.tile (gangTile n q)).ptag

end State

/-- GANG_JOIN (R205, R206, R215). -/
def execGangJoin (n : Nat) (s : State) : Out :=
  let g := s.gang n
  match State.gangHeads g with
  | [a, b, c, d] =>
    if !s.gangRuns n ∨ !([a, b, c, d].all s.headReady) then .next s
    else
      let ops := [a, b, c, d]
      let s := s.setGang n { g with queues := g.queues.map fun q => (q.1, q.2.drop 1) }
      if !ops.all fun o => headsAgree a.d o.d then .next (s.faultAll n ops 0 10)
      else
        let s := ops.foldl (fun s o => s.ringState o.fibre.core o.d.seq 1) s
        let slot := State.gangOpSlot a.d.i
        let tag := gangTag a.d
        match gangKind a.d.i with
        | 0 => .next (s.joinMfmt n ops (gangValue a.d))
        | 1 => .next (s.joinMgang n ops (gangValue a.d % 65536))
        | k =>
          match slotRefuses g a.d with
          | some sub => .next (s.faultAll n ops 0 sub)
          | none => if k = 5 then .next (s.joinMzero n slot tag ops) else .next (s.joinMma n slot tag (k - 2) ops)
  | _ => .next s

/-! ## The operand network (R55, R56, R211 to R214) -/

/-- An operand of a joined MMA: its block's place, its capability, its address and its class. -/
structure Operand where
  op : GangOp
  b : Bool
  cap : Cap
  addr : Nat
  cls : Nat
  deriving Repr

/-- The operands that an MMA fetches, in the order of R426. -/
def operandsOf (m : Mma) : List Operand :=
  m.ops.flatMap fun o =>
    let k (r : BitVec 2) : Cap := lget .null o.d.k r.toNat
    let one (r : BitVec 2) (a : BitVec 3) (b : Bool) : Operand :=
      { op := o, b, cap := k r, addr := State.halfAddr (k r) (lget 0 o.d.g a.toNat) b, cls := if b then m.sb else m.sa }
    match o.d.i with
    | .mma _ k l a _ => [one k a false, one l a true]
    | .mmaHold _ k l a _ => [one k a false, one l a true]
    | .mmaHb _ k a _ => [one k a false]
    | _ => []

namespace State

/-- The checks of an operand at its fetch, as a subcode, or its physical address (R144, R147, R210, R211, R328,
R426). -/
def operandCheck (s : State) (n : Nat) (o : Operand) : Except Nat Nat :=
  let c := o.op.fibre.core
  let size := operandBytes o.cls
  match capSteps o.cap false o.addr size pR true with
  | some e => .error (e - 3)
  | none =>
    match s.home c o.cap.space o.addr, s.home c o.cap.space (o.addr + size - 1) with
    | some (.mem pa), some (.mem last) =>
      if (paKind pa ≠ 1 ∧ paKind pa ≠ 2) ∨ tileCluster (paIdx pa) ≠ n / 4 ∨ last ≠ pa + size - 1 then .error 3
      else if o.op.d.pl ≠ 3 ∧ s.windowBad pa size o.cap.meter then .error 9
      else if o.addr % 32 ≠ 0 then .error 5
      else if s.meterShut o.cap.meter then .error 9
      else .ok pa
    | _, _ => .error 3

/-- The lowest byte of an operand at which that check fails with a subcode (R199, R211): the first outside KBounds, the first in a
window, else the operand's address. -/
def operandByte (s : State) (o : Operand) (sub : Nat) : Nat :=
  let c := o.op.fibre.core
  let size := operandBytes o.cls
  match capSteps o.cap false o.addr size pR true with
  | some e => if e = 7 then s.failingByte c false o.cap o.addr size false 7 else o.addr
  | none =>
    match s.home c o.cap.space o.addr with
    | some (.mem pa) => if sub = 9 ∧ o.op.d.pl ≠ 3 ∧ s.windowBad pa size o.cap.meter then o.addr + s.refusedIn o.cap.meter 0 [(pa, size)] else o.addr
    | _ => o.addr

/-- The first failing operand of an MMA, with the lowest failing byte, or the physical addresses of all (R211). -/
def operandsCheck (s : State) (n : Nat) : List Operand → Except (Nat × Nat) (List (Operand × Nat))
  | [] => .ok []
  | o :: l =>
    match s.operandCheck n o with
    | .error e => .error (e, s.operandByte o e)
    | .ok pa =>
      match s.operandsCheck n l with
      | .error e => .error e
      | .ok r => .ok ((o, pa) :: r)

/-- The block that an operand names in this period: its physical address and size; a half of a BF16 operand (R213). -/
def periodBlock (m : Mma) (x : Operand × Nat) : Nat × Nat :=
  if x.1.cls = 2 then (if m.toFetch = 2 then (x.2, 1024) else (x.2 + 1024, 1024)) else (x.2, operandBytes x.1.cls)

/-- Earlier posted and vector accesses of each member to the gang's cluster have been performed, the writes of started instructions
among them (R234). -/
def fetchFree (s : State) (n : Nat) (m : Mma) : Bool :=
  let near (pa : Nat) : Bool := (paKind pa == 1 || paKind pa == 2) && tileCluster (paIdx pa) == n / 4
  m.ops.all fun o =>
    (!s.flight.any fun a =>
      a.2.who == o.fibre && a.2.stage != .performed
        && (match a.2.op with | .laneWrite q _ => seqBefore q o.d.seq | .laneRead q => seqBefore q o.d.seq | _ => a.2.posted && decide (a.1 < o.mark))
        && (match a.2.pa with | some pa => near pa | none => false))
    && !(s.core o.fibre.core).running.any fun e =>
      e.slot == o.fibre.slot && seqBefore e.seq o.d.seq && e.out.any fun w => w.2.1.any fun p => near p.1

/-- The reads of a period so far: tile stores with their count, cluster-store reads, and the blocks read (R55). -/
structure Reads where
  tiles : List (Nat × Nat) := []
  cluster : Nat := 0
  seen : List Nat := []
  deriving Repr

/-- The blocks fit within the remaining reads of the period (R55, R56); a block named twice is read once. -/
def fitReads (r : Reads) : List Nat → Option Reads
  | [] => some r
  | pa :: l =>
    if r.seen.contains pa then fitReads r l
    else if paKind pa = 1 then
      let k := tget 0 r.tiles (paIdx pa)
      if 2 ≤ k then none else fitReads { r with tiles := tset r.tiles (paIdx pa) (k + 1), seen := pa :: r.seen } l
    else if 8 ≤ r.cluster then none else fitReads { r with cluster := r.cluster + 1, seen := pa :: r.seen } l

/-- A joined MMA of a gang is replaced. -/
def setMma (s : State) (n : Nat) (m m' : Mma) : State :=
  s.modGang n fun g => { g with mmas := g.mmas.map fun x => if x.joinAt = m.joinAt then m' else x }

/-- A slot that a break left behind becomes ORPHAN once no joined operation on it is left (R207, R215). -/
def settleSlot (mmas : List Mma) (n : Nat) (a : AccSlot) : AccSlot :=
  if a.dying ∧ !mmas.any (fun x => x.slot == n) then { a with state := 2, dying := false } else a

/-- A joined MMA is discarded for an operand or a lost held block: nothing is written or counted, and held-B is as before an
`mma.hold` that is discarded (R211, R426). -/
def dropMma (s : State) (n : Nat) (m : Mma) (addr sub : Nat) : State :=
  let s := s.modGang n fun g =>
    let mmas := g.mmas.filter fun x => x.joinAt != m.joinAt
    let slots := g.slots.map fun x => (x.1, settleSlot mmas x.1 x.2)
    if m.var = 1 then
      let later (x : Mma) : Bool := x.var == 1 && decide (m.joinAt < x.joinAt)
      { g with
        mmas := mmas.map fun x => if later x then { x with hbvWas := x.hbvWas && m.hbvWas } else x
        slots, hbv := g.hbv && (m.hbvWas || mmas.any later), heldB := if m.hbvWas then g.heldB else [] }
    else { g with mmas, slots }
  s.faultAll n m.ops addr sub

/-- The bytes of an operand that a period reads: all of it, or a half of a BF16 operand (R213). -/
def periodBytes (cls : Nat) : Nat := if cls = 2 then 1024 else operandBytes cls

/-- The reads of an operand are counted once it has been read whole (R327, R330; log 95). -/
def countOperand (s : State) (m : Mma) (x : Operand × Nat) : State :=
  let one (s : State) (k : Nat) (replay : Bool) : State :=
    if k = 0 then s else s.countRead x.1.op.fibre.core x.1.cap.meter (k * periodBytes x.1.cls) (x.1.op.d.pl == 3) replay
  one (one s m.fresh false) m.again true

/-- The blocks of an MMA arrive in this period; after the last of them its compute is placed (R212 to R214). -/
def serveMma (s : State) (n : Nat) (m : Mma) (xs : List (Operand × Nat)) (buffer : Bool) : State :=
  match (xs.filter fun x => let b := periodBlock m x; (s.readError b.1 b.2).isSome).head? with
  | some x => s.dropMma n m x.1.addr 8
  | none =>
    let m := if 0 < m.replay then { m with again := m.again + 1 } else { m with fresh := m.fresh + 1 }
    let s := s.spend (n / 64) 2
    let got (b : Bool) : List (List Byte) :=
      (xs.filter fun x => x.1.b == b).map fun x => let p := periodBlock m x; s.readBytes p.1 p.2
    let new := got false ++ got true
    let blocks := if m.blocks.isEmpty then new else List.zipWith (· ++ ·) m.blocks new
    if m.toFetch = 2 then s.setMma n m { m with toFetch := 1, blocks, buffer, replay := m.replay - 1 }
    else
      let g := s.gang n
      let held := if m.kept.isEmpty then g.heldB.map (·.2) else m.kept
      if m.var = 2 ∧ held.length ≠ 4 then s.dropMma n m 0 13
      else
        let start := max (s.clock + 16) g.arrayFree
        let stop := start + arrayTime m.sa m.sb
        let s := xs.foldl (fun s x => s.countOperand m x) s
        let m' := { m with
          fresh := 0, again := 0, toFetch := 0, blocks := if m.var = 2 then blocks ++ held else blocks, buffer := buffer || m.buffer, replay := 0, kept := []
          startAt := start, freeAt := stop, writeAt := stop + 3 }
        let s := s.modGang n fun g => { g with arrayFree := stop }
        let s := if m.var = 1 then s.modGang n fun g => { g with heldB := (List.range 4).map fun q => (q, lget [] blocks (4 + q)) } else s
        s.setMma n m m'

/-- A free operand buffer at the start of this period (R213). -/
def bufferFree (s : State) (g : Gang) : Bool :=
  decide ((g.mmas.filter fun m => m.buffer && (m.toFetch != 0 || decide (s.clock < m.freeAt))).length < 2)

/-- A joined MMA that the network may serve in this period (R213, R214, R234). -/
def servable (s : State) (n : Nat) (m : Mma) : Bool := decide (m.joinAt < s.clock) && s.fetchFree n m

/-- Serve one gang in a period, within the reads that remain (R56, R213): its first MMA that is not fetched, with the
next one when both take the held block. In its second period a BF16 operand has its buffer, which the first of a pair shares. -/
def serveGang (s : State) (n : Nat) (r : Reads) : State × Reads :=
  let g := s.gang n
  match g.mmas.filter fun m => m.toFetch != 0 with
  | [] => (s, r)
  | m :: rest =>
    let shared := m.var == 2 && rest.head?.any fun m2 => m2.var == 2 && m2.buffer && decide (m2.toFetch = 1)
    let second := (m.buffer || shared) && decide (m.toFetch = 1) && m.sa == 2
    if !s.servable n m ∨ (!second ∧ !s.bufferFree g) then (s, r)
    else
      let mate := match rest.head? with
        | some m2 => if m.var = 2 ∧ m2.var = 2 ∧ m2.toFetch = m.toFetch ∧ m2.sa = m.sa ∧ s.servable n m2 then some m2 else none
        | none => none
      match s.operandsCheck n (operandsOf m) with
      | .error (e, a) => (s.dropMma n m a e, r)
      | .ok xs =>
        let pair := match mate with
          | some m2 =>
            (match s.operandsCheck n (operandsOf m2) with
             | .ok ys => (fitReads r ((xs.map fun x => (periodBlock m x).1) ++ ys.map fun y => (periodBlock m2 y).1)).map fun r' => (m2, ys, r')
             | .error _ => none)
          | none => none
        match pair with
        | some (m2, ys, r') => ((s.serveMma n m xs false).serveMma n m2 ys true, r')
        | none =>
          match fitReads r (xs.map fun x => (periodBlock m x).1) with
          | some r' => (s.serveMma n m xs true, r')
          | none => (s, r)

end State

/-- OPERAND_PERIOD (R55, R56, R220): the gangs of a cluster in order. -/
def execOperandPeriod (cluster : Nat) (s : State) : Out :=
  if (s.die (cluster / 16)).mgate then .next s
  else
    .next ((List.range 4).foldl (fun (x : State × State.Reads) i =>
      if x.1.gangRuns (4 * cluster + i) then x.1.serveGang (4 * cluster + i) x.2 else x) (s, {})).1

namespace State

/-- A joined operation writes its slot (R214, R435); a slot that a break left behind becomes ORPHAN after its last
(R207). -/
def writeSlot (s : State) (n : Nat) (m : Mma) : State :=
  let g := s.gang n
  let a := tget {} g.slots m.slot
  let (a, fl) := if m.var = 3 then ({ a with vals := [], bad := [] }, 0)
    else let r := mmaSlot m a; ({ a with vals := r.1 }, r.2)
  let mmas := g.mmas.filter fun x => x.joinAt != m.joinAt
  (s.setGang n { g with mmas, slots := tset g.slots m.slot (settleSlot mmas m.slot a) }).gangRetire m.ops fl

/-- The joined operations whose results are there, in join order: none before an earlier one on its slot. -/
def dueWrites (clock : Nat) : List Mma → List Nat → List Mma
  | [], _ => []
  | m :: l, busy =>
    if m.toFetch = 0 ∧ m.writeAt ≤ clock ∧ !busy.contains m.slot then m :: dueWrites clock l busy
    else dueWrites clock l (m.slot :: busy)

end State

/-- MMA_SLOT_WRITE (R214, R172). -/
def execMmaSlotWrite (n : Nat) (s : State) : Out :=
  if !s.gangRuns n then .next s
  else .next ((State.dueWrites s.clock (s.gang n).mmas []).foldl (fun s m => s.writeSlot n m) s)

end Sys2Proof.Machine
end

