-- ==== Sys2Proof/Machine/Lost.lean ====
section
/-! DEFINITION. What becomes of a request or a reply that is lost with a compute die (08 R237, R238; 10 R280; 19 R462,
R479; 20 R492; 12 R297). -/

namespace Sys2Proof.Machine

namespace State

/-- EINFO of MEM_UE for a home that a die reset has lost (R269). -/
def lostInfo (a : Nat) : Word := word (va56 a + 2 ^ 61)

/-- A move has lost a unit: its semaphore is never incremented, its task is marked, and its place in the queue is free
(R111, R238, R280). -/
def loseMove (s : State) (id : Nat) : State :=
  match s.move id with
  | none => s
  | some m =>
    let c := m.who.core
    let x := s.fib m.who
    let s := { s with moves := tdel s.moves id, flight := s.flight.filter fun a : Nat × Access =>
      match a.2.op with | .moveRead n _ => n != id | .moveWrite n _ _ => n != id | .moveCheck n _ => n != id | _ => true }
    let s := (s.leaveGateways id).modCore c fun x => { x with moves := x.moves.filter (· != id) }
    let s := s.reportFibre m.who 6 0 (word (va56 m.sa)) 0
    let s := if x.inTask then s.modDie x.tdie fun d => { d with tasks := tmod {} d.tasks x.taskix fun t => { t with dieReset := true } } else s
    let s :=
      match s.moves.find? (fun y => y.2.who.core == c && y.2.checking && (s.fib y.2.who).park == 11 && (s.fib y.2.who).cont == .move y.1) with
      | some (next, w) => s.moveEnter next w
      | none => s
    s.recheck m.who

/-- A posted access is acknowledged at the reset, and reported when it was never performed (R280, R492). -/
def losePosted (s : State) (id : Nat) (a : Access) : State :=
  let s := s.dropAccess id
  if 256 ≤ a.who.slot then s else
  let s := if a.stage = .performed then s else s.reportFibre a.who 4 0 (word a.va) 0
  match a.op with
  | .laneWrite _ _ => s.recheck a.who
  | _ => (s.modFib a.who fun x => { x with outs := x.outs - 1 }).recheck a.who

/-- An access is lost with a die (R280). -/
def loseAccess (s : State) (id : Nat) : State :=
  match s.access id with
  | none => s
  | some a =>
    let s := s.leaveGateways id
    let x := s.fib a.who
    match a.op with
    | .moveRead mv _ => s.loseMove mv
    | .moveWrite mv _ _ => s.loseMove mv
    | .fetch =>
      let s := s.dropAccess id
      if x.cont = .fetch then (s.ready a.who).trapEntry a.who 0x0B (lostInfo x.pc.toNat) false x.pc else s
    | .laneRead seq => (s.dropAccess id).laneBack seq { a with fault := some (0x0B, word a.va) }
    | .laneCheck seq => (s.dropAccess id).laneChecked seq { a with fault := some (0x0B, word a.va) }
    | _ =>
      if x.cont = .access id ∨ x.cont = .accept id then
        (((s.dropAccess id).addDelay a.who.core a.dclass a.wait).ready a.who).trapEntry a.who 0x0B (lostInfo a.va) false x.pc
      else match a.op with
        | .piece => (s.dropAccess id).gatherFault a.who 0x0B (lostInfo a.va)
        | .moveCheck mv _ => (s.dropAccess id).moveFault mv 0x0B (lostInfo a.va)
        | _ => a.merged.foldl (fun s n => match s.access n with | some b => s.losePosted n b | none => s) (s.losePosted id a)

/-- An access that stands at its gateway and whose fibre has gone stands under slot 256; an atomic that was to be sent once more, to
be merged, waits for its units there (R237). -/
def standAlone (s : State) (id : Nat) (a : Access) : State :=
  let b := { a with who := (⟨a.who.core, 256⟩ : FibreRef), router := false }
  let sent := (s.agenda.any fun x => x.2 == .homeAccess id) || (s.tiles.any fun t => (t.2.rwait ++ t.2.rbuf.flatMap fun r => r.2.flits).any
    fun f => f.ev == some (.homeAccess id)) || (s.pkg.rwait ++ s.pkg.rbuf.flatMap fun r => r.2.flits).any fun f => f.ev == some (.homeAccess id)
  let s := s.setAccess id b
  match s.accHome b, a.pa with
  | some (.gateway gw _), some pa =>
    if a.router ∧ a.stage = .queued ∧ !sent then s.modGw gw fun g => { g with queue := g.queue ++ [(id, servicePort pa)] }
    else if a.router then s.setAccess id { b with router := true } else s
  | _, _ => s

/-- The reply of an access is lost (R280). An access that its gateway has accepted and not performed is performed there, though its
fibre traps (R237). -/
def loseReply (s : State) (id : Nat) : State :=
  match s.access id with
  | none => s
  | some a =>
    if a.stage = .performed then s.loseAccess id
    else
      let x := s.fib a.who
      let t := s.standAlone id a
      if x.cont = .accept id then ((t.addDelay a.who.core a.dclass a.wait).ready a.who).trapEntry a.who 0x0B (lostInfo a.va) false x.pc else t

/-- A reply for a core that has been reset is counted there (R448). -/
def countReply (s : State) (m : Message) : State :=
  if m.reply then s.modCore m.dst fun c => { c with dropped := c.dropped + 1 } else s

/-- A message is lost: the I/O die sends its sender a NACK; a reply's reservation at the requester is free
(R280, R462). -/
def loseMessage (s : State) (id : Nat) : State :=
  match tfind s.messages id with
  | none => s
  | some m =>
    let s := if m.reply then s.freeSend m.dst m.entry else s
    (if isService m.dst || s.dieOpen m.dst.die then s else s.countReply m).later (.nack id)

/-- The I/O die refuses a message in place of a handler that has gone with its core (R462). -/
def nackEntry (s : State) (src : CoreId) (entry : Nat) : State :=
  let (id, s) := s.newId
  let m : Message := { src := ⟨src, 0⟩, srcPart := s.partOf src, dst := src, handler := 0, words := [], reply := false, reserved := true, entry }
  { s with messages := s.messages ++ [(id, m)] }.later (.nack id)

/-- What a lost flit carried is lost as its own rule says; what no rule of its own ends, the I/O die ends (DESIGN CHOICE, log 112). -/
def loseEvent (s : State) (e : Instr) : State :=
  match e with
  | .homeAccess id => s.loseAccess id
  | .accessReply id => s.loseReply id
  | .accessAck id => s.loseAccess id
  | .fetchRefill f =>
    (match s.flight.find? fun a : Nat × Access => a.2.who == f && a.2.op == AccOp.fetch with
     | some (id, _) => s.loseAccess id
     | none => s)
  | .messageArrival id => s.loseMessage id
  | .nack id => (match tfind s.messages id with
     | some m => if isService m.src.core || s.dieOpen m.src.core.die then s.later e else { s with messages := tdel s.messages id }
     | none => s)
  | .walkPacket id => s.later (.walkFail id 2)
  | .taskRecord id =>
    (match tfind s.subs id with
     | some b => { s with subs := tset s.subs id { b with answer := some (b.answer.getD (word (2 ^ 63 + 4 * 2 ^ 48))) } }.later e
     | none => s)
  | e => s.later e

/-- A flit is lost (R28, R297): a circuit request with it. -/
def loseFlit (s : State) (f : RFlit) : State :=
  match f.req, f.ev with
  | some _, _ => s
  | none, some e => s.loseEvent e
  | none, none => s

end State

end Sys2Proof.Machine
end

