-- ==== Sys2Proof/Machine/EvGateway.lean ====
section
/-! DEFINITION. The gateways (05 R128, R154 to R164; 10 R266): walks, service budgets, invalidation. -/

namespace Sys2Proof.Machine

/-- The units that an access takes at a gateway (R162). -/
def serviceUnits (a : Access) : Nat :=
  match a.op with
  | .atomic _ _ _ _ => 2
  | _ => match a.pa with
    | some pa => (touched 64 pa (max a.size 1)).length
    | none => 1

/-- The units that a port of a gateway serves in a slot (R162, R164). The 960 of a port of the I/O die are spread evenly over the slots
of the wheel, at most one in each, and one that is not used is lost (DESIGN CHOICE, log 97). -/
def portAllowance (gw slot : Nat) : Nat := if gw = 6 then 960 * (slot + 1) / 1024 - 960 * slot / 1024 else 48

/-- The units of a slot that remain for the service cores and context saves (R162, R164; log 97). -/
def serviceAllowance (gw slot : Nat) : Nat := if gw = 6 then 60 * (slot + 1) / 1024 - 60 * slot / 1024 else 3

namespace State

/-- The units of a partition at a port of a gateway (R162, R164, R283). -/
def unitShare (s : State) (gw port p : Nat) : Nat :=
  if gw = 6 then tget 0 (s.part p).ports port else tget 0 (s.part p).hbm gw

/-- Spend units of a partition at a port in this wheel. -/
def spendUnits (s : State) (gw port p n : Nat) : State :=
  s.modGw gw fun g => { g with spent := tmod 0 g.spent (port, p) (· + n) }

def spentUnits (s : State) (gw port p : Nat) : Nat := tget 0 (s.die gw).gw.spent (port, p)

/-- A walk by its number, with its gateway. -/
def walkOf (s : State) (id : Nat) : Option (Nat × Walk) :=
  s.dies.findSome? fun d => (d.2.gw.walks.find? fun w => w.id == id).map fun w => (d.1, w)

/-- The partition of which the write of a completion entry waits under an id (R164). -/
def postOf (s : State) (id : Nat) : Option Nat :=
  (s.parts.find? fun p => p.2.vf.postUnit == some (id, false)).map (·.1)

/-- What waits at a gateway under an id, an access, the page-table reads of a walk or the write of a completion entry: its partition,
and the units that it is still owed (R162, R164). -/
def owedAt (s : State) (gw id : Nat) : Option (Nat × Nat) :=
  let paid := tget 0 (s.die gw).gw.paid id
  match s.access id with
  | some a => some (a.part, serviceUnits a - paid)
  | none => match s.walkOf id with
    | some w => w.2.owed.map fun n => (w.2.part, n - paid)
    | none => (s.postOf id).map fun p => (p, 1 - paid)

/-- An atomic that waits at a gateway. -/
def isAtomic (op : AccOp) : Bool := match op with | .atomic _ _ _ _ => true | _ => false

/-- The oldest request of a partition at a port that may be served, and the units it is owed. An atomic waits for those that reached
its location before it, but for those of a stopped partition (R161, R272; log 43). -/
def headIn (s : State) (gw port p : Nat) : List Access → List (Nat × Nat) → Option (Nat × Nat)
  | _, [] => none
  | ahead, q :: l =>
    let atom := (s.access q.1).filter fun a => isAtomic a.op
    let rest := ahead ++ (atom.filter fun a => !s.stopped a.part).toList
    let waits := atom.any fun a => ahead.any fun b => meets (a.pa.getD 0) a.size (b.pa.getD 0) b.size
    match s.owedAt gw q.1 with
    | some (p', n) => if q.2 = port ∧ p' = p ∧ !waits then some (q.1, n) else s.headIn gw port p rest l
    | none => s.headIn gw port p rest l

/-- The same in the queue of a gateway; none while the partition is stopped (R272). -/
def headAt (s : State) (gw port p : Nat) : Option (Nat × Nat) :=
  if s.stopped p then none else s.headIn gw port p [] (s.die gw).gw.queue

/-- A request has all its units: an access is performed (R221), after the time it waited here (R349); a walk has its reads, and a
completion entry may be written. -/
def serveRequest (s : State) (id : Nat) : State :=
  let s := s.leaveGateways id
  match s.access id with
  | some a =>
    (match s.accHome a with
     | some h => s.performAt id { a with wait := a.wait + (s.clock - a.due) } h (a.pa.getD 0)
     | none => s.dropAccess id)
  | none =>
    match s.walkOf id with
    | some (gw, _) => (s.modGw gw fun g => { g with walks := g.walks.map fun w => if w.id = id then { w with owed := some 0 } else w }).now (.pageWalk gw id)
    | none => match s.postOf id with
      | some p => (s.modVf p fun v => { v with postUnit := some (id, true) }).now (.completionPost p)
      | none => s

/-- A request of a partition gets k of the units that it is owed; with less than all it keeps them until it has the rest (R162,
R163; log 43). -/
def payRequest (s : State) (gw port p id owed k : Nat) : State :=
  let s := s.spendUnits gw port p k
  if k < owed then s.modGw gw fun g => { g with paid := tmod 0 g.paid id (· + k) } else s.serveRequest id

/-- Serve partitions in turn from a place in the order, as long as units are left and some partition has a request and is given units
for it (R163): the units left and the state. -/
def serveTurns (gw port : Nat) (given : State → Nat → Nat) : Nat → List Nat → Nat → State → Nat × State
  | 0, _, left, s => (left, s)
  | fuel + 1, order, left, s =>
    if left = 0 then (0, s) else
    match order.findSome? fun p => if given s p = 0 then none else (s.headAt gw port p).map fun h => (p, h) with
    | none => (left, s)
    | some (p, id, owed) =>
      let k := min owed (min left (given s p))
      let turn := (order.dropWhile (· != p)).drop 1 ++ order.takeWhile (· != p) ++ [p]
      serveTurns gw port given fuel turn (left - k) (s.payRequest gw port p id owed k)

/-- The units of a slot that no service core takes go to the contexts that are being written at the gateway, in order (R162): the units
that the first page still needs, and the page itself once it has them. -/
def paySave (s : State) (gw k : Nat) : State :=
  if k = 0 then s else
  match (s.die gw).gw.saves with
  | [] => s
  | x :: l => (s.modGw gw fun g => { g with saves := { x with paid := x.paid + k } :: l }).now (.saveComplete x.part)

/-- One port of a gateway serves a slot: the service cores and the context saves within what remains for them, the partitions below
their budget up to it, then all others (R162, R163, R164). -/
def servePort (s : State) (gw port : Nat) : State :=
  let slot := s.slotNo
  let order := (List.range 48).map fun i => (s.wheel + i) % 48
  let left := portAllowance gw slot
  let svc := min (serviceAllowance gw slot) left
  let (l, s) := serveTurns gw port (fun _ p => if p = 63 then svc else 0) svc [63] svc s
  let saving := if gw = 6 ∨ (s.die gw).gw.saves.isEmpty then 0 else l
  let s := s.paySave gw saving
  let left := left - (svc - l) - saving
  let (left, s) := serveTurns gw port (fun s p => s.unitShare gw port p - s.spentUnits gw port p) left order left s
  let (left, s) := serveTurns gw port (fun _ _ => left) left order left s
  (serveTurns gw port (fun _ _ => left) left [63] left s).2

/-- The ports of a gateway at which something waits, the contexts that are being written among it. -/
def busyPorts (s : State) (gw : Nat) : List Nat :=
  let g := (s.die gw).gw
  ((if g.saves.isEmpty then [] else [0]) ++ g.queue.map fun q : Nat × Nat => q.2).eraseDups

/-- A walk that has been waiting begins (R158). -/
def startWalk (s : State) (gw : Nat) : State :=
  match (s.die gw).gw.walks.find? fun w => !w.running with
  | some w =>
    let s := s.modGw gw fun g => { g with walks := g.walks.map fun x =>
      if x.id = w.id then { x with running := true, root := s.rootOf gw w.part w.space } else x }
    s.later (.pageWalk gw w.id)
  | none => s

/-- A waiting access goes on after its walk (R157, R266). -/
def afterWalk (s : State) (ok : Bool) (id : Nat) : State :=
  match s.access id with
  | none => s
  | some a =>
    if ok then s.arrive id a
    else match s.accHome a, a.op with
      | some h, .moveCheck mv dst =>
        (match s.move mv with
         | some m => s.failAccess id a h 9 (pageInfo a.who.core a.space ((if dst then m.da else m.sa) + m.checks))
         | none => s.dropAccess id)
      | some h, _ => s.failAccess id a h 9 (pageInfo a.who.core a.space a.va)
      | none, _ => s.dropAccess id

/-! ## Invalidation (R128, R158) -/

/-- An address span of an access or a translation meets a page range of a partition in a space at this gateway. -/
def usesPage (gw part space lo n : Nat) (p sp va size : Nat) : Bool :=
  p == part && sp == space && meets lo n (if sp = 4 then va % 2 ^ 53 else va) size && (sp != 4 || va / 2 ^ 53 == gw)

/-- The accesses and moves that use a translation of a range and are not done (R158). -/
def usersOf (s : State) (gw part space lo n : Nat) : List Nat :=
  ((s.flight.filter fun a : Nat × Access => a.2.pa.isSome && a.2.stage != .performed
      && usesPage gw part space lo n a.2.part a.2.space a.2.va (max a.2.size 1)).map (·.1))
  ++ ((s.moves.filter fun m : Nat × Move => m.2.part == part
      && m.2.xs.any fun x => x.1 == gw && x.2.space == space && meets lo n x.2.va (pageBytes x.2.sz)).map (·.1))

/-- The dispatched instructions that use a translation of a range, by core and number (R158). -/
def dispUsers (s : State) (gw part space lo n : Nat) : List (CoreId × Nat) :=
  s.cores.flatMap fun c => if s.partOf c.1 ≠ part then [] else
    ((c.2.disp ++ c.2.running).filter fun d => d.xs.any fun x =>
      x.1 == gw && x.2.space == space && meets lo n x.2.va (pageBytes x.2.sz)).map fun d => (c.1, d.seq)

/-- A dispatched instruction has not retired, or a lane of it has not been performed. -/
def dispBusy (s : State) (u : CoreId × Nat) : Bool :=
  let c := s.core u.1
  (c.disp ++ c.running).any (·.seq == u.2) || s.flight.any fun a => a.2.who.core == u.1 && a.2.stage != .performed
    && (match a.2.op with | .laneRead q => q == u.2 | .laneWrite q _ => q == u.2 | _ => false)

/-- Remove the translations of a range; DONE falls until nothing uses one (R158). -/
def invalidate (s : State) (gw part space lo n : Nat) : State :=
  let users := s.usersOf gw part space lo n
  let disps := s.dispUsers gw part space lo n
  let s := s.modGw gw fun g => { g with
    done := false, invWait := users, invDisp := disps,
    cache := g.cache.filter fun x => !(x.part == part && x.space == space && meets lo n x.va (pageBytes x.sz)) }
  s.sched (s.clock + 1) (.invalidationDone gw)

/-- The first held command that is not discarded, as its event, and those behind it (R128). -/
def heldInv (die : Nat) : List Word → Option (Instr × List Word)
  | [] => none
  | v :: l =>
    let sp := field v 55 52
    if sp < 4 ∨ 6 < sp ∨ (field v 63 62 = 1 ∧ 9 < field v 51 48) then heldInv die l
    else some (if field v 63 62 = 1 then .invalidatePage die v else .invalidateAll die v, l)

/-- A command is held while another is under way (R128). -/
def holdInv (s : State) (gw : Nat) (v : Word) : State := s.modGw gw fun g => { g with invHeld := g.invHeld ++ [v] }

end State

/-- PAGE_WALK (R154 to R158, R162, R266): the walk's reads wait for service units at the gateway of the die that holds the tables;
with them the walk ends, and each waiting access goes on or faults, in arrival order. Where the tables lie on another die that is not
OPEN, the reads are lost, and what waits for them is lost with them (R13, R280). -/
def execPageWalk (gw id : Nat) (s : State) : Out :=
  match (s.die gw).gw.walks.find? fun w => w.id == id with
  | none => .next s
  | some w =>
    if s.stopped w.part then .next (s.holdEvent w.part (.pageWalk gw id))
    else
      let r := w.root
      if !s.tablesOpen gw r then
        let s := s.modGw gw fun g => { g with walks := g.walks.filter fun y => y.id != id }
        .next ((w.waiters.foldl (fun s i => s.loseAccess i) s).startWalk gw)
      else
      let n := if bitN r.toNat 63 then s.walkReads (w.va * 4096) (field r 55 53) 4 (field r 52 12 * 4096) else 0
      if w.owed = none ∧ n ≠ 0 then
        .next ((s.modGw gw fun g => { g with walks := g.walks.map fun y => if y.id = id then { y with owed := some n } else y }).modGw
          (field r 55 53) fun g => { g with queue := g.queue ++ [(id, 0)] })
      else if w.owed.any (0 < ·) then .next s
      else
      let x := s.walkUnder r gw w.part w.space (w.va * 4096)
      let s := s.modGw gw fun g => { g with walks := g.walks.filter fun y => y.id != id }
      let s := match x with | some x => s.cacheXlat gw x | none => s
      .next ((w.waiters.foldl (fun s i => s.afterWalk x.isSome i) s).startWalk gw)

/-- GATEWAY_SLOT (R162 to R164). What has been given up meanwhile waits no longer. -/
def execGatewaySlot (gw : Nat) (s : State) : Out :=
  let s := s.modGw gw fun g => { g with queue := g.queue.filter fun q => (s.owedAt gw q.1).isSome }
  .next ((s.busyPorts gw).foldl (fun s p => s.servePort gw p) s)

/-- GATEWAY_WHEEL_RESET (R163). -/
def execGatewayWheelReset (gw : Nat) (s : State) : Out := .next (s.modGw gw fun g => { g with spent := [] })

/-- INVALIDATE_PAGE (R128, R158). A write with SZ from 10 to 15, to which the spec gives no effect, has none (DESIGN CHOICE, log 116). -/
def execInvalidatePage (die : Nat) (v : BitVec 64) (s : State) : Out :=
  let sz := field v 51 48
  let sp := field v 55 52
  let g := (s.die die).gw
  if !g.done then .next (s.holdInv die v)
  else if sp < 4 ∨ 6 < sp ∨ 9 < sz then .next s
  else
    let b := pageBytes sz
    .next (s.invalidate die (field v 61 56) sp (g.invva.toNat / b * b) b)

/-- INVALIDATE_ALL (R128, R158). -/
def execInvalidateAll (die : Nat) (v : BitVec 64) (s : State) : Out :=
  let sp := field v 55 52
  if !(s.die die).gw.done then .next (s.holdInv die v)
  else if sp < 4 ∨ 6 < sp then .next s
  else .next (s.invalidate die (field v 61 56) sp 0 (2 ^ 56))

/-- INVALIDATION_DONE (R128, R158): once nothing uses a removed translation, DONE returns to 1, and the next command that was held
and is not discarded takes effect. -/
def execInvalidationDone (die : Nat) (s : State) : Out :=
  let g := (s.die die).gw
  let busy := g.invDisp.filter s.dispBusy
  if g.done then .next s
  else if !g.invWait.isEmpty ∨ !busy.isEmpty then .next (s.modGw die fun g => { g with invDisp := busy })
  else match State.heldInv die g.invHeld with
    | none => .next (s.modGw die fun g => { g with done := true, invHeld := [], invDisp := [] })
    | some (e, l) => .next ((s.modGw die fun g => { g with done := true, invHeld := l, invDisp := [] }).now e)

end Sys2Proof.Machine
end

