-- ==== Sys2Proof/Machine/EvReg.lean ====
section
/-! DEFINITION. Writes of device registers as they are performed at their blocks (04 R112 to R120; 05 R126 to
R131; 10 R265, R270; 14 R346, R348; 15 R352). Die 7 names the host's own registers: block 0 BAR 0 of the
physical function, block 1 BAR 0 of the virtual function p (log 20). -/

namespace Sys2Proof.Machine

namespace State

/-! ## MSI-X (R117, R119) -/

/-- The message of a vector in this wheel. -/
def msixSend (s : State) (p vec : Nat) : State :=
  s.modVf p fun x => { x with msiWheel := tset x.msiWheel vec (s.wheel + 1), msiSent := tmod 0 x.msiSent vec (· + 1) }

/-- A deferred message of a vector is sent in the wheel for which it is due. -/
def msixDue (s : State) (p vec : Nat) : State :=
  let v := s.vf p
  if v.msiDefer.contains vec ∧ tget 0 v.msiWheel vec ≠ s.wheel + 1 then
    (s.modVf p fun x => { x with msiDefer := setOut x.msiDefer vec }).msixSend p vec
  else s

/-- An event of a vector: one message a wheel, a second one deferred to the next. A deferred message that is due counts first. -/
def msix (s : State) (p vec : Nat) : State :=
  let s := s.msixDue p vec
  if tget 0 (s.vf p).msiWheel vec = s.wheel + 1 then
    (s.modVf p fun x => { x with msiDefer := setIn x.msiDefer vec }).schedOnce ((s.wheel + 1) * 1024) (.msixDeferred p vec)
  else s.msixSend p vec

/-! ## Block 0x00 -/

/-- A write of a block-0x00 register without a row of its own (R120, R126). -/
def write00 (s : State) (off p : Nat) (v : Word) : State :=
  if !(s.part p).active then s
  else if 0x41800 ≤ off ∧ off < 0x41838 then s.modVf p fun x => { x with mbow := tset x.mbow ((off - 0x41800) / 8) v }
  else if off = 0x41840 then s.modVf p fun x => { x with mbofull := x.mbofull && !bitN v.toNat 8 }
  else s

/-! ## Blocks 0x01 to 0x04 -/

def write01 (s : State) (die off : Nat) (v : Word) : State :=
  if off = 0x1000 then s.modGw die fun g => { g with invva := word (field v 55 0) } else s

def write02 (s : State) (die off : Nat) (v : Word) : State :=
  let len : Word := word (field v 24 0)
  let setLen (t : List (Nat × (Word × Word))) (i : Nat) : List (Nat × (Word × Word)) := tmod (0, 0) t i fun w => (w.1, len)
  if off < 0x4000 then s.modTile (tileNo die (off / 64)) fun t => { t with mwin := setLen t.mwin (off % 64 / 16) }
  else if off < 0x5000 then s.modDie die fun d => { d with mwinDie := setLen d.mwinDie ((off - 0x4000) / 16) }
  else if off < 0x60000 then s.modDie die fun d => { d with mwinHbm := setLen d.mwinHbm ((off - 0x5000) / 16) }
  else if off < 0x62000 then
    s.modTile (tileNo die ((off - 0x60000) / 32)) fun t => { t with cwin := tset t.cwin ((off % 32) / 8) (cwinMask v) }
  else s.modDie die fun d => { d with cwin := tset d.cwin ((off - 0x62000) / 8) (word (field (cwinMask v) 52 0 + b2n (bitN v.toNat 63) * 2 ^ 63)) }

def write03 (s : State) (die off : Nat) (v : Word) : State :=
  if 0x10000 ≤ off ∧ off < 0x20000 then
    let w := word (b2n (bitN v.toNat 63) * 2 ^ 63 + field v 52 12 * 2 ^ 12)
    s.modDie die fun d => { d with ctxbase := tset d.ctxbase ((off - 0x10000) / 8) w }
  else if 0x20000 ≤ off ∧ off < 0x28000 then
    let o := off - 0x20000
    s.evWrite (tileNo die (o / 128)) (o % 128 / 16) (decide (o % 16 = 8)) false v
  else s

def write04 (s : State) (off : Nat) (v : Word) : State :=
  if 0x40000 ≤ off ∧ off < 0x50000 then s.modPart ((off - 0x40000) / 8) fun p => { p with dbgen := bitN v.toNat 0 }
  else if 0x80000 ≤ off ∧ off < 0xC0000 then s.writeBytes (paOf 7 1 (off - 0x80000)) (leBytes 8 v.toNat)
  else s

/-! ## The host's registers -/

/-- A WARM start waits for saves, restores and a reconfiguration list (R355). -/
def warmWaits (s : State) : Bool := s.parts.any (fun p : Nat × Part => p.2.gs == 2 || p.2.gs == 4) || s.pkg.rc.busy

/-- What a STCMD WARM has waited for is over (R355). -/
def warmCheck (s : State) : State :=
  if s.pkg.start.warmWait ∧ !s.warmWaits then
    (s.modPkg fun k => { k with start := { k.start with warmWait := false } }).now .warmStart
  else s

/-- The metered windows that are active in HBM, where alone a preserved range lies: physical address and length (R129, R354). -/
def activeWins (s : State) : List (Nat × Nat) :=
  s.dies.flatMap fun d : Nat × Die => (d.2.mwinHbm.map fun w : Nat × Word × Word => winOf w.2).filterMap fun w =>
    if w.1 != 0 then some (paOf 4 d.1 w.2.1, w.2.2.1) else none

/-- STCMD of R352: COLD also from recovery (R357). A WARM waits while R355 says so. -/
def startCommand (s : State) (v : Word) : State :=
  let ph := s.pkg.start.phase
  let waits := s.warmWaits
  let wins := s.activeWins
  if field v 1 0 = 2 ∧ (ph = 2 ∨ ph = 3) then s.now .coldStart
  else if field v 1 0 = 1 ∧ ph = 2 then
    let s := s.modPkg fun k => { k with start := { k.start with warmWins := wins, warmWait := waits } }
    if waits then s else s.now .warmStart
  else s

/-- BAR 0 of the physical function (R284, R340, R352). A debug command with an op of R341 has a row of its own;
any other returns FORMAT. In recovery the host reaches the device by the DOE mailbox and STCMD only (R357). -/
def writePf (s : State) (off : Nat) (v : Word) : State :=
  if s.pkg.start.phase = 3 ∧ off ≠ 0x1008 then s else
  match off with
  | 0x1008 => s.startCommand v
  | 0x1010 => s.modPkg fun k => { k with start := { k.start with prlist := v } }
  | 0x1018 => s.now (.lcreq v)
  | 0x2000 => s.modPkg fun k => { k with rc := { k.rc with addr := v } }
  | 0x2008 => s.now .rcgo
  | 0x3000 =>
    if 1 ≤ field v 63 56 ∧ field v 63 56 ≤ 9 then s
    else s.modPkg fun k => { k with dbg := { k.dbg with status := 1, cause := 0, tag := false } }
  | 0x3008 => s.modPkg fun k => { k with dbg := { k.dbg with arg := v } }
  | 0x3010 => s.modPkg fun k => { k with dbg := { k.dbg with data := v } }
  | _ => s

/-- BAR 0 of a virtual function (R112, R113, R119), for what has no row of its own. -/
def writeVf (s : State) (p off : Nat) (v : Word) : State :=
  s.modVf p fun x =>
    if off < 0x78 then { x with tsub := tset x.tsub (off / 8) v }
    else if off = 0x80 then { x with lost := x.lost && !bitN v.toNat 14 }
    else if 0x100 ≤ off ∧ off < 0x138 then
      if x.txbusy then { x with txlost := true } else { x with mbtx := tset x.mbtx ((off - 0x100) / 8) v }
    else if off = 0x140 then { x with txfull := x.txfull && !bitN v.toNat 62, txlost := x.txlost && !bitN v.toNat 61 }
    else x

/-! ## Trace units (R348) -/

/-- A trace unit in the hands of an owner. -/
def claimTrace (clock owner p : Nat) (v : Word) (x : Cluster) : Cluster :=
  { x with trOwner := owner, trPart := p, trSel := traceFields v, trPos := 0, trAt := clock }

/-- A guest's write of TRCLAIM. -/
def traceGuest (s : State) (die c p : Nat) (v : Word) : State :=
  let n := die * 16 + c
  let s := if bitN v.toNat 61 then s.modCluster n fun x => { x with trLost := tset x.trLost p false } else s
  let x := s.cluster n
  let mine := decide (x.trOwner = 1 ∧ x.trPart = p)
  let own := tfind (s.die die).granules (field v 46 40) == some p
  if bitN v.toNat 0 then
    if !own then s
    else if mine then s.modCluster n fun x => { x with trSel := traceFields v }
    else if x.trOwner = 0 ∨ (x.trOwner = 1 ∧ x.trAt = s.clock ∧ p < x.trPart) then s.modCluster n (claimTrace s.clock 1 p v)
    else s
  else if mine then s.modCluster n fun x => { x with trOwner := 0, trPart := 0, trSel := traceFields v }
  else s

/-- H's write of TRCLAIM. -/
def traceHyper (s : State) (die c : Nat) (v : Word) : State :=
  let n := die * 16 + c
  let x := s.cluster n
  if bitN v.toNat 0 then
    if x.trOwner = 0 ∨ (x.trOwner = 1 ∧ x.trAt = s.clock) then s.modCluster n (claimTrace s.clock 2 0 v)
    else if x.trOwner = 2 then s.modCluster n fun x => { x with trSel := traceFields v }
    else s.modCluster n fun x => { x with trTake := some v }
  else if x.trOwner = 2 then s.modCluster n fun x => { x with trOwner := 0, trPart := 0, trSel := traceFields v }
  else s.modCluster n fun x => { x with trTake := none }

/-! ## Metered windows (R129) -/

/-- The window w with a new base is refused: a reserved bit, or a reach beyond its target. -/
def mwbaseBad (v : Word) (len : Word) (tile : Bool) (size : Nat) : Bool :=
  field v 63 52 != 0 && (v != mwbaseMask v tile || decide (size < field v 44 12 * 4096 + field len 24 0 * 4096))

/-- The new pair of a window whose MWBASE is written. -/
def mwbasePut (v : Word) (tile : Bool) (size : Nat) (w : Word × Word) : Word × Word :=
  if mwbaseBad v w.2 tile size then w else (mwbaseMask v tile, w.2)

/-- The management core's boot fibre (R65, R135, R254); its PC is a multiple of 4 (R362, log 102). -/
def mgmtBoot (s : State) : Fibre :=
  let k (sp : Nat) : Cap := ⟨BitVec.ofNat 128 (primalBits sp), true⟩
  { status := .ready, readyFrom := s.clock + 1, pc := word s.pkg.mgcode.cursor &&& ~~~3#64, k := [k 8, k 4, k 5, k 6],
    code := s.pkg.mgcode, tdie := 6, pl := 2 }

end State

/-- REGISTER_WRITE (R126, R113, R119, R129, R130, R131, R270, R284, R340, R342, R352). -/
def execRegisterWrite (die block off p : Nat) (v : BitVec 64) (s : State) : Out :=
  .next (if die = 7 then (if block = 0 then s.writePf off v else s.writeVf p off v)
    else if block = 1 then s.write01 die off v
    else if block = 2 then s.write02 die off v
    else if block = 3 then s.write03 die off v
    else if block = 4 then s.write04 off v
    else s.write00 off p v)

/-- REPHEAD (R265): a write with a reserved bit changes nothing. -/
def execRephead (die p : Nat) (v : BitVec 64) (s : State) : Out :=
  if !(s.part p).active ∨ 64 ≤ v.toNat then .next s
  else .next (s.modDie die fun d => { d with rings := tmod {} d.rings p fun r => { r with head := v.toNat } })

/-- REPLOST (R265). -/
def execReplost (die p : Nat) (s : State) : Out :=
  if !(s.part p).active then .next s
  else .next (s.modDie die fun d => { d with rings := tmod {} d.rings p fun r => { r with lost := 0 } })

/-- MBIHEAD (R120). -/
def execMbihead (p : Nat) (v : BitVec 64) (s : State) : Out :=
  if !(s.part p).active then .next s else .next (s.modVf p fun x => { x with mbihead := v.toNat % 16 })

/-- MBOGO (R119, R120). -/
def execMbogo (p : Nat) (v : BitVec 64) (s : State) : Out :=
  let x := s.vf p
  if !(s.part p).active then .next s
  else if 16 ≤ x.mbrx.length then .next (s.modVf p fun x => { x with mbofull := true })
  else
    let m : List Word := (List.range 7).map (fun i => tget 0 x.mbow i) ++ [v]
    .next ((s.modVf p fun x => { x with mbrx := x.mbrx ++ [m], mbofull := false }).msix p 1)

/-- MSIX_DEFERRED (R117, R119). -/
def execMsixDeferred (p vec : Nat) (s : State) : Out := .next (s.msixDue p vec)

/-- TROOT_WRITE (R128): a reserved bit or die 6 or 7 discards the write. -/
def execTrootWrite (die off : Nat) (v : BitVec 64) (s : State) : Out :=
  let p := off / 16
  if field v 62 56 ≠ 0 ∨ field v 11 0 ≠ 0 ∨ 6 ≤ field v 55 53 then .next s
  else if off % 16 = 0 then .next (s.modGw die fun g => { g with roots := tset g.roots p v })
  else if die = 6 then .next (s.modGw die fun g => { g with rootsB := tset g.rootsB p v })
  else .next s

/-- MWBASE_WRITE (R129). -/
def execMwbaseWrite (die off : Nat) (v : BitVec 64) (s : State) : Out :=
  if off < 0x4000 then
    .next (s.modTile (tileNo die (off / 64)) fun t =>
      { t with mwin := tmod (0, 0) t.mwin (off % 64 / 16) (State.mwbasePut v true (2 ^ 20)) })
  else if off < 0x5000 then
    .next (s.modDie die fun d => { d with mwinDie := tmod (0, 0) d.mwinDie ((off - 0x4000) / 16) (State.mwbasePut v false (2 ^ 27)) })
  else
    .next (s.modDie die fun d => { d with mwinHbm := tmod (0, 0) d.mwinHbm ((off - 0x5000) / 16) (State.mwbasePut v false hbmBytes) })

/-- PWRLIM_WRITE (R131): outside 1,000 to 3,000 it is ignored. -/
def execPwrlimWrite (v : BitVec 64) (s : State) : Out :=
  let n := field v 15 0
  if n < 1000 ∨ 3000 < n then .next s else .next (s.modPkg fun k => { k with pwrlim := n })

/-- MGRUN (R65, R131); in recovery only the root core runs (R357). -/
def execMgrun (v : BitVec 64) (s : State) : Out :=
  if bitN v.toNat 0 ∧ !s.pkg.mgrun ∧ s.pkg.start.phase ≠ 3 then
    .next ((s.setFib ⟨.mgmt, 0⟩ s.mgmtBoot).modPkg fun k => { k with mgrun := true })
  else .next s

/-- SEIZE_WRITE (R346): it takes effect in the next cycle. -/
def execSeizeWrite (die t : Nat) (v : BitVec 64) (s : State) : Out :=
  .next (s.modTile (tileNo die t) fun x => { x with seizeNext := some (v.toNat % 16) })

/-- TRCLAIM_WRITE (R348). -/
def execTrclaimWrite (die c p : Nat) (hview : Bool) (v : BitVec 64) (s : State) : Out :=
  if hview then .next (s.traceHyper die c v)
  else if (s.part p).active then .next (s.traceGuest die c p v) else .next s

/-- TRACE_TAKEOVER (R348). -/
def execTraceTakeover (die c : Nat) (s : State) : Out :=
  let n := die * 16 + c
  let x := s.cluster n
  match x.trTake with
  | none => .next s
  | some v =>
    .next (s.modCluster n fun x =>
      { State.claimTrace s.clock 2 0 v x with
        trTake := none, trLost := if x.trOwner = 1 then tset x.trLost x.trPart true else x.trLost })

end Sys2Proof.Machine
end

