-- ==== Sys2Proof/Machine/EvTask.lean ====
section
/-! DEFINITION. The task units (04 R94 to R111; 05 R127; 19 R478, R479): acceptance, placement, dispatch, completion and
queries. -/

namespace Sys2Proof.Machine

/-! ## The record (R97 to R99) -/

/-- The fields of a footprint (R99). -/
structure Foot where
  kinds : Nat
  shape : Nat
  n : Nat
  h : Nat
  w : Nat
  deriving Repr

/-- The footprint in a record. -/
def footOf (v : Nat) : Foot := ⟨bits v 23 21, bits v 20 19, bits v 18 10, bits v 9 5, bits v 4 0⟩

/-- A footprint breaks R99. -/
def footBad (v : Nat) : Bool :=
  let f := footOf v
  bits v 63 24 != 0 || f.kinds == 0 || f.n == 0 || decide (256 < f.n) ||
    (if f.shape = 0 then f.h != 0 || f.w != 0
     else f.h == 0 || decide (16 < f.h) || f.w == 0 || decide (16 < f.w) || f.n != f.w * f.h
       || (decide (2 ≤ f.shape) && f.w % 4 != 0) || (f.shape == 3 && f.h % 4 != 0))

/-- The end of a space's address range (R98, R121). -/
def spaceEnd (space : Nat) : Nat :=
  match space with
  | 1 => 1536 * 2 ^ 20
  | 2 => 1536 * 2 ^ 20
  | 3 => 5 * 2 ^ 27 + 80 * 2 ^ 20
  | 4 => 6 * 2 ^ 53
  | _ => 2 ^ 56

/-- A base address breaks the layout of its space (R98). -/
def baseBad (space a : Nat) : Bool :=
  match space with
  | 1 => bits a 55 32 != 0 || decide (1536 ≤ bits a 31 20)
  | 2 => bits a 55 32 != 0 || decide (1536 ≤ bits a 31 20)
  | 3 => bits a 55 30 != 0 || decide (5 < bits a 29 27) || decide (79 < bits a 26 20)
  | 4 => decide (5 < bits a 55 53)
  | _ => false

/-- A declared range from its two words, low then high (R98): absent, present, or refused. -/
def rangeOf (lo len : Nat) : Except Unit (Option Range) :=
  if !bitN lo 63 then (if lo = 0 ∧ len = 0 then .ok none else .error ())
  else
    let space := bits lo 59 56
    let base := bits lo 55 0
    if bitN lo 62 ∨ bitN lo 60 ∨ space = 0 ∨ 6 < space ∨ baseBad space base ∨ len = 0 ∨ spaceEnd space < base + len then .error ()
    else .ok (some { space, base, len, w := bitN lo 61 })

/-- The ranges of a record; none where one breaks R98. -/
def rangesOf (rec : List Byte) : Option (List Range) :=
  (List.range 4).foldr (fun i l =>
    match l, rangeOf (sliceNat rec (48 + 16 * i) 8) (sliceNat rec (56 + 16 * i) 8) with
    | some l, .ok (some r) => some (r :: l)
    | some l, .ok none => some l
    | _, _ => none) (some [])

/-- A record breaks R97 or R99 (R100 RECORD). -/
def recordBad (rec : List Byte) (host : Bool) : Bool :=
  let z (i n : Nat) : Bool := sliceNat rec i n == 0
  let flags := sliceNat rec 4 1
  bitN flags 3 || bitN flags 7 || !z 5 1 || !z 7 1 || !z 22 2 || !z 120 8
    || (if host then !z 34 6 else !z 0 4 || !z 32 16)
    || footBad (sliceNat rec 24 8) || (rangesOf rec).isNone

/-! ## Footprints (R99, R103, R104) -/

namespace State

/-- The tiles of a partition on a die, by tile-in-die number. -/
def tilesOn (s : State) (p die : Nat) : List Nat :=
  ((List.range 256).map fun t => tileNo die t).filter fun n => (s.tile n).ptag == p && decide (p < 48)

/-- The rectangles of a shape on a partition's tiles of a die, by origin in order (R99, R103): origin and tiles. -/
def rectSets (s : State) (p die : Nat) (f : Foot) : List ((Nat × Nat) × List Nat) :=
  let own := s.tilesOn p die
  own.filterMap fun n =>
    let x := tileX n
    let y := tileY n
    let tiles := (List.range f.n).map fun i => 48 * (y + i / f.w) + x + i % f.w
    if (2 ≤ f.shape ∧ x % 4 ≠ 0) ∨ (f.shape = 3 ∧ y % 4 ≠ 0) ∨ 16 < x % 16 + f.w ∨ 16 < y % 16 + f.h ∨ !tiles.all own.contains then none
    else some ((x, y), tiles)

/-- A footprint has a place on a partition's tiles of a die with every core free (R100 FOOTPRINT). -/
def footFits (s : State) (p die : Nat) (f : Foot) : Bool :=
  if f.shape = 0 then decide (f.n ≤ (s.tilesOn p die).length) else !(s.rectSets p die f).isEmpty

/-- The cores of some kinds on some tiles. -/
def coresOf (tiles : List Nat) (kinds : Nat) : List CoreId :=
  tiles.flatMap fun n => ((List.range 3).filter fun k => bitN kinds k).map fun k => coreOf n k

/-- A placed task on a die holds a core, or a dispatch flit for it is on its way (R103). -/
def heldBy (t : Task) (c : CoreId) : Bool :=
  t.state == .running && t.tiles.contains (coreTile c) && bitN t.kinds c.kind && !t.pendCores.contains c

/-- A core holds no dispatched fibre of any task and is reserved for none (R103, R104). -/
def coreFree (s : State) (c : CoreId) : Bool :=
  !(s.die c.die).tasks.any fun t => heldBy t.2 c || (t.2.state == .running && t.2.pendCores.contains c)

/-- A core is reserved for a task (R104). -/
def coreTaken (s : State) (c : CoreId) : Bool :=
  (s.die c.die).tasks.any fun t => t.2.state == .running && t.2.pendCores.contains c

/-- The free cores among those of a set of tiles. -/
def freeIn (s : State) (kinds : Nat) (tiles : List Nat) : Nat := ((coresOf tiles kinds).filter s.coreFree).length

/-- The better of two sets: the one with more free cores, the first among equals (R104). -/
def betterSet (s : State) (kinds : Nat) (best : Option ((Nat × Nat) × List Nat)) (x : (Nat × Nat) × List Nat) :
    Option ((Nat × Nat) × List Nat) :=
  match best with
  | none => if s.freeIn kinds x.2 = 0 then none else some x
  | some b => if s.freeIn kinds b.2 < s.freeIn kinds x.2 then some x else some b

/-- The tiles of an ANY footprint when not all their cores are free: those with the most free cores (R104), and among equals
those with the lowest numbers (DESIGN CHOICE, log 77). -/
def anyBest (s : State) (f : Foot) (own : List Nat) : List Nat :=
  let by' (k : Nat) : List Nat := own.filter fun n => s.freeIn f.kinds [n] == k
  let pick := ((by' 3 ++ by' 2 ++ by' 1 ++ by' 0).take f.n)
  own.filter pick.contains

/-- The origin and the tiles on which a task is placed (R103, R104); none while it does not fit. -/
def placeOf (s : State) (t : Task) (die : Nat) : Option ((Nat × Nat) × List Nat) :=
  let f : Foot := ⟨t.kinds, t.shape, t.n, t.h, t.w⟩
  let open' (n : Nat) : Bool := (coresOf [n] f.kinds).all fun c => !s.coreTaken c
  let own := (s.tilesOn t.part die).filter open'
  if f.shape = 0 then
    let whole := own.filter fun n => s.freeIn f.kinds [n] == (coresOf [n] f.kinds).length
    if f.n ≤ whole.length then some ((0, 0), whole.take f.n)
    else if t.co ∨ own.length < f.n ∨ s.freeIn f.kinds (s.anyBest f own) = 0 then none
    else some ((0, 0), s.anyBest f own)
  else
    let sets := (s.rectSets t.part die f).filter fun x => x.2.all open'
    match sets.find? fun x => s.freeIn f.kinds x.2 == (coresOf x.2 f.kinds).length with
    | some x => some x
    | none => if t.co then none else sets.foldl (s.betterSet f.kinds) none

/-! ## Acceptance (R94 to R100) -/

/-- A die's queue of free entries has one (R94): the entry, and the die without it. -/
def takeEntry (d : Die) : Option (Nat × Die) :=
  if d.nextFresh < 4096 then some (d.nextFresh, { d with nextFresh := d.nextFresh + 1 })
  else match d.freed with
    | x :: l => some (x, { d with freed := l })
    | [] => none

/-- The entries that a partition holds on a die (R95). -/
def sharesHeld (s : State) (p die : Nat) : Nat :=
  ((s.die die).tasks.filter fun t : Nat × Task => t.2.part == p && t.2.state != .done).length

/-- The argument of a record (R97, R108, R142); none where it is refused with ARG. The offset is added without wrapping; an index of 64 or
more is refused with ARG too, and a moved cursor at the top lies outside the bounds (DESIGN CHOICE, log 76). -/
def recordArg (s : State) (b : Submission) : Option Cap :=
  if b.who.isNone then
    let c := tget .null (s.part b.part).atab (sliceNat b.body 32 2)
    let cur := c.cursor + sliceNat b.body 40 8
    if 64 ≤ sliceNat b.body 32 2 ∨ !c.tag ∨ (cur : Int) < c.bounds.1 ∨ c.bounds.2 ≤ (cur : Int) then none
    else some (c.withCursor cur true)
  else if !b.argGiven then some .null
  else if !b.arg.tag ∨ b.arg.sealOf ≠ 0 ∨ !b.arg.has Cap.permG then none
  else some b.arg

/-- The kernel-table entry that a record names, and the address of its entry (R97, R100 KERNEL); ENTRY is added to the cursor
without wrapping (DESIGN CHOICE, log 76). -/
def recordKernel (s : State) (b : Submission) : Option (Cap × Nat) :=
  let c := tget .null (s.part b.part).ktab (sliceNat b.body 6 1)
  let a := c.cursor + sliceNat b.body 8 8
  if !c.tag ∨ (a : Int) < c.bounds.1 ∨ c.bounds.2 ≤ (a : Int) ∨ a % 4 ≠ 0 then none else some (c, a)

/-- The meters that a kernel's manifest names (R100, R312). -/
def kernelMeters (s : State) (p : Nat) (c : Cap) : List Nat :=
  match (s.part p).kernels.find? fun k => k.1 == c with
  | some k => k.2
  | none => []

/-- The host's sequence number against the one that is expected (R114). -/
def seqCode (last seq : Nat) : Nat :=
  let d := (seq + 2 ^ 33 - (last + 1)) % 2 ^ 32
  if d = 0 then 0 else if d < 2 ^ 31 then 2 else 1

/-- The check of a record (R100): its status, or the task that it is. -/
def recordCheck (s : State) (b : Submission) : Except Nat Task :=
  let rec' := b.body
  let f := footOf (sliceNat rec' 24 8)
  let sq := if b.who.isNone then seqCode (s.vf b.part).lastAcc (sliceNat rec' 0 4) else 0
  if sq ≠ 0 then .error sq
  else if recordBad rec' b.who.isNone then .error 3
  else if 6 ≤ b.die ∨ !s.dieOpen b.die ∨ (s.tilesOn b.part b.die).isEmpty then .error 4
  else match s.recordKernel b with
    | none => .error 5
    | some (code, entry) =>
      match s.recordArg b with
      | none => .error 6
      | some arg =>
        if (takeEntry (s.die b.die)).isNone ∨ tget 0 (s.part b.part).shares b.die ≤ s.sharesHeld b.part b.die then .error 7
        else if !s.footFits b.part b.die f then .error 8
        else if arg.tag ∧ arg.meter ≠ 0 ∧ !(s.kernelMeters b.part code).contains arg.meter then .error 9
        else
          let flags := sliceNat rec' 4 1
          .ok { part := b.part, host := b.who.isNone, seq := sliceNat rec' 0 4, ord := tget 0 (s.die b.die).ord b.part,
                pri := flags % 4, co := bitN flags 2, ts := sliceNat rec' 16 6, kinds := f.kinds, shape := f.shape, n := f.n,
                h := f.h, w := f.w, code, entry := word entry, arg, ranges := (rangesOf rec').getD [],
                ctag := word (sliceNat rec' 112 8), state := .queued, acc := s.nextId }

/-- The task unit looks for a task to place at a time, unless it does so earlier (R102). -/
def placeBy (s : State) (die t : Nat) : State :=
  if s.agenda.any fun e => e.2 == .taskPlace die && decide (e.1 ≤ t) then s else s.sched t (.taskPlace die)

/-- Accept a record: an entry, an ORD, and the search for a place 63 cycles after it reached the unit (R94, R96,
R106). -/
def acceptTask (s : State) (b : Submission) (t : Task) : Nat × State :=
  match takeEntry (s.die b.die) with
  | none => (0, s)
  | some (ix, d) =>
    let s := s.setDie b.die { d with tasks := tset d.tasks ix t, ord := tset d.ord b.part ((t.ord + 1) % 2 ^ 32) }
    let s := if t.host then s.modVf b.part fun v => { v with lastAcc := t.seq } else s
    (ix, ({ s with nextId := s.nextId + 1 }).placeBy b.die (s.clock + 63))

/-- The result word of TASKQ (R108). -/
def taskqWord (die ix ord : Nat) : Word := word (die * 2 ^ 44 + ix * 2 ^ 32 + ord)

/-- The answer to a record: to the host's status register, or back to its fibre (R108, R113). -/
def answerRecord (s : State) (id : Nat) (b : Submission) (code : Nat) (w : Word) : State :=
  match b.who with
  | none => ({ s with subs := tdel s.subs id }).modVf b.part fun v => { v with busy := false, code }
  | some f =>
    ({ s with subs := tset s.subs id { b with answer := some w } }).sendEv (blockNode (min b.die 5)) (coreNode f.core) true b.part
      (.taskRecord id)

/-- The answer reaches the fibre (R70, R108, R349). -/
def taskqBack (s : State) (id : Nat) (b : Submission) (w : Word) : State :=
  let s := { s with subs := tdel s.subs id }
  match b.who with
  | none => s
  | some f =>
    match (s.fib f).cont with
    | .taskq d =>
      let s := (s.addDelay f.core 9 (s.fib f).delay).modFib f fun x => { x with delay := 0 }
      (s.setGOf f d w).complete f
    | _ => s

/-- A fibre's end or a task's completion is still due in this cycle (R101). -/
def endsDue (s : State) : Bool :=
  s.agenda.any fun e => decide (e.1 ≤ s.clock) &&
    (match e.2 with | .exitComplete _ => true | .taskCompletion _ _ => true | _ => false)

/-! ## Start and placement (R101 to R105) -/

/-- Two declared ranges conflict (R101). -/
def rangesConflict (a b : Range) : Bool := a.space == b.space && meets a.base a.len b.base b.len && (a.w || b.w)

/-- Two tasks conflict (R101). -/
def tasksConflict (a b : Task) : Bool := a.ranges.any fun r => b.ranges.any (rangesConflict r)

/-- The key of one task is smaller than that of another (R96). -/
def keyBefore (a b : Task) : Bool := decide (a.ts < b.ts) || (a.ts == b.ts && decide (a.acc < b.acc))

/-- A queued task may start (R101), and its partition places tasks (R105, R111). -/
def mayStart (s : State) (die ix : Nat) (t : Task) : Bool :=
  t.state == .queued && !s.stopped t.part && (s.part t.part).deferred.isEmpty &&
    !(s.die die).tasks.any fun u => u.1 != ix && u.2.part == t.part && tasksConflict t u.2
      && (u.2.state == .running || (u.2.state == .queued && keyBefore u.2 t))

/-- The effective priority of a task (R102). -/
def effPri (t : Task) : Nat := min 3 (t.pri + t.waited / 64)

/-- A task has held effective priority 3 for 64 wheels (R102). -/
def aged (t : Task) : Bool := decide (64 * (3 - t.pri) + 64 ≤ t.waited)

/-- One task is tried before another (R102). -/
def triedBefore (a b : Nat × Task) : Bool :=
  decide (effPri b.2 < effPri a.2) || (effPri a.2 == effPri b.2 && keyBefore a.2 b.2)

/-- Insert a task in the order of R102. -/
def tryIn (x : Nat × Task) : List (Nat × Task) → List (Nat × Task)
  | [] => [x]
  | y :: l => if triedBefore x y then x :: y :: l else y :: tryIn x l

/-- The task that is placed next, and where (R102). -/
def nextPlace (s : State) (die : Nat) : Option (Nat × Task × (Nat × Nat) × List Nat) :=
  let ts := (((s.die die).tasks.filter fun t : Nat × Task => s.mayStart die t.1 t.2).foldr tryIn []).map
    fun t : Nat × Task => (t.1, t.2, s.placeOf t.2 die)
  let stuck := ts.filter fun t => aged t.2.1 && t.2.2.isNone
  ts.findSome? fun t =>
    match t.2.2 with
    | some (o, tiles) => if stuck.any fun u => u.2.1.part == t.2.1.part then none else some (t.1, t.2.1, o, tiles)
    | none => none

/-- Change an entry of a die's table. -/
def modTask (s : State) (die ix : Nat) (h : Task → Task) : State :=
  s.modDie die fun d => { d with tasks := tmod {} d.tasks ix h }

/-- Place a task (R103, R104): its free cores are on their way to their fibres, the others are reserved. -/
def placeTask (s : State) (die ix : Nat) (t : Task) (o : Nat × Nat) (tiles : List Nat) : State :=
  let cores := coresOf tiles t.kinds
  (s.modTask die ix fun t => { t with
    state := .running, tiles, origin := o, going := cores.filter s.coreFree, pendCores := cores.filter fun c => !s.coreFree c }).sched
    (s.clock + 48) (.taskDispatch die ix)

/-! ## Dispatch (R75, R103) -/

/-- The fibre that the dispatch of a task creates on a core (R75). -/
def taskFibre (s : State) (die ix : Nat) (t : Task) (c : CoreId) : Fibre :=
  let n := coreTile c
  let i := (t.tiles.findIdx? (· == n)).getD 0
  let pos := if t.shape = 0 then i else (tileX n - t.origin.1) + (tileY n - t.origin.2) * 256
  { status := .ready, readyFrom := s.clock + 19, pc := t.entry, code := t.code, k := [t.arg, .null, .null, .null],
    g := [word i, word t.n, word (t.w + t.h * 256), word pos, 0, 0, 0, 0], tdie := die, taskix := ix, inTask := true,
    taskseq := word (t.seq * 2 ^ 32 + t.ord) }

/-- The dispatch flit creates the fibre of a core (R74, R75); on a core without a free slot it creates none (DESIGN CHOICE,
log 78). -/
def dispatchCore (s : State) (die ix : Nat) (t : Task) (c : CoreId) : State :=
  match s.freeSlot c 0 224 with
  | none => s
  | some n => (s.setFib ⟨c, n⟩ (s.taskFibre die ix t c)).modTask die ix fun t => { t with fibres := t.fibres + 1 }

/-! ## Completion (R110, R111) -/

/-- The status of a task that ran (R110). -/
def runStatus (t : Task) : Nat := if t.dieReset then 2 else if t.faulted then 1 else if t.killed then 4 else 0

/-- No task of a partition on a die has a dispatched fibre (R105). -/
def boundary (s : State) (p die : Nat) : Bool :=
  !(s.die die).tasks.any fun t => t.2.part == p && t.2.state == .running

/-- A kernel boundary of a partition may let deferred entries take effect (R289). -/
def atBoundary (s : State) (p die : Nat) : State :=
  if !(s.part p).deferred.isEmpty ∧ s.boundary p die then s.schedOnce s.clock (.deferredEntry p die) else s

/-- The reserved cores of other tasks that a task has given back: their dispatch goes out at once (R104). -/
def passCores (s : State) (die : Nat) : State :=
  ((s.die die).tasks.filter fun t : Nat × Task => t.2.state == .running && !t.2.pendCores.isEmpty).foldl (fun s x =>
    let t := tget {} (s.die die).tasks x.1
    let ready := t.pendCores.filter fun c => !(s.die die).tasks.any fun u => heldBy u.2 c
    if ready.isEmpty then s
    else (s.modTask die x.1 fun t => { t with going := t.going ++ ready, pendCores := t.pendCores.filter fun c => !ready.contains c }).now
      (.taskDispatch die x.1)) s

/-- A task completes with a status (R110): ranges and cores are free, and its entry is to be
posted. -/
def completeTask (s : State) (die ix status : Nat) : State :=
  let t := tget {} (s.die die).tasks ix
  let s := s.modTask die ix fun t => { t with state := .waitPost, status, endWheel := s.wheel, going := [], pendCores := [] }
  let s := s.modVf t.part fun v => { v with held := v.held ++ [(die, ix)] }
  let s := s.schedOnce s.clock (.completionPost t.part)
  ((s.passCores die).atBoundary t.part die).placeBy die (s.clock + 1)

/-! ## The completion queue (R110, R115 to R117) -/

/-- The physical address of a byte of a partition's host space that may be written (R115, R157). -/
def hostPa (s : State) (p a : Nat) : Option Nat :=
  match (match s.cached 6 p 6 a with | some x => some x | none => s.walk 6 p 6 a) with
  | some x => if x.pw then some (xlatPa 6 6 x a) else none
  | none => none

/-- A completion entry (R117). -/
def completionEntry (v : Vf) (die ix : Nat) (t : Task) : List Byte :=
  leBytes 4 v.cseq ++ leBytes 4 (if t.host then t.seq else t.ord) ++ leBytes 2 t.status ++ leBytes 1 (b2n (!t.host) + 2 * die)
    ++ leBytes 1 0 ++ leBytes 2 ix ++ leBytes 2 0 ++ leBytes 8 t.ctag.toNat ++ leBytes 8 t.endWheel

/-- The queue is full (R116). While CQSIZE is 0, of which the spec gives no remainder, it counts as 1 (DESIGN CHOICE, log 51). -/
def cqFull (v : Vf) : Bool := decide ((v.cqtail + 1) % max v.cqsize.toNat 1 = v.cqhead.toNat)

/-- A post failed: the queue is disabled before any byte of the entry is written (R115 PAGE). -/
def cqFail (s : State) (p : Nat) : State := s.modVf p fun v => { v with cqen := false, cqcode := 5, posting := none, postUnit := none }

/-- The queries that wait at a task unit for an entry are answered with its status from the cycle after the completion is posted (R109,
R479). -/
def tellWaiters (s : State) (die ix status : Nat) : State :=
  let mine (q : Query) : Bool := q.here && q.die == die && q.ix == ix
  let told := s.queries.filter fun q : Nat × Query => mine q.2
  let answered (q : Nat × Query) : Nat × Query :=
    if mine q.2 then (q.1, { q.2 with here := false, answer := some (word status) }) else q
  told.foldl (fun s q => s.sendEv (blockNode die) (coreNode q.2.who.core) true q.2.part (.twaitQuery q.1))
    { s with queries := s.queries.map answered }

/-- The next write of an entry has its unit of the host link, or begins to wait for it (R164). -/
def hostUnit (s : State) (p : Nat) : Bool × State :=
  match (s.vf p).postUnit with
  | some (_, true) => (true, s.modVf p fun v => { v with postUnit := none })
  | some (_, false) => (false, s)
  | none =>
    let (id, s) := s.newId
    (false, (s.modVf p fun v => { v with postUnit := some (id, false) }).modGw 6 fun g => { g with queue := g.queue ++ [(id, 8)] })

/-- The second write of an entry, and what follows it (R110, R117, R479, R499). -/
def postDone (s : State) (p pa die ix : Nat) (rest : List (Nat × Nat)) : State :=
  let v := s.vf p
  let s := s.writeBytes pa (leBytes 4 v.cseq)
  let s := s.modVf p fun v => { v with
    cqtail := (v.cqtail + 1) % max v.cqsize.toNat 1, cqseq := v.cseq, cseq := (v.cseq + 1) % 2 ^ 32, held := rest, posting := none,
    postUnit := none }
  let s := (s.msix p 0).modDie die fun d => { d with
    tasks := tmod {} d.tasks ix fun t => { t with state := .done }, freed := d.freed ++ [ix] }
  let s := s.latch evTask fun f => if isService f.core then true else f.core.die == die && s.partOf f.core == p
  let s := s.tellWaiters die ix (tget {} (s.die die).tasks ix).status
  if rest.isEmpty then s else s.now (.completionPost p)

end State

/-- TASK_RECORD (R100, R101, R106, R108): a record at its task unit, or the unit's answer at its fibre. A completion
of the same cycle is applied first. -/
def execTaskRecord (id : Nat) (s : State) : Out :=
  match tfind s.subs id with
  | none => .next s
  | some b =>
    match b.answer with
    | some w => .next (s.taskqBack id b w)
    | none =>
      if s.endsDue then .next (s.now (.taskRecord id))
      else match s.recordCheck b with
        | .error e => .next (s.answerRecord id b e (word (2 ^ 63 + e * 2 ^ 48)))
        | .ok t =>
          let (ix, s) := s.acceptTask b t
          .next (s.answerRecord id b 0 (State.taskqWord b.die ix t.ord))

/-- TASK_PLACE (R102 to R104). -/
def execTaskPlace (die : Nat) (s : State) : Out :=
  match s.nextPlace die with
  | none => .next s
  | some (ix, t, o, tiles) => .next ((s.placeTask die ix t o tiles).placeBy die (s.clock + 1))

/-- PRIORITY_AGING (R102, R111). -/
def execPriorityAging (die : Nat) (s : State) : Out :=
  let older (t : Nat × Task) : Nat × Task :=
    if t.2.state = .queued ∧ !s.stopped t.2.part then (t.1, { t.2 with waited := t.2.waited + 1 }) else t
  .next ((s.modDie die fun d => { d with tasks := d.tasks.map older }).placeBy die s.clock)

/-- TASK_DISPATCH (R75, R104). -/
def execTaskDispatch (die ix : Nat) (s : State) : Out :=
  let t := tget {} (s.die die).tasks ix
  let s := s.modTask die ix fun t => { t with going := [] }
  .next (t.going.foldl (fun s c => s.dispatchCore die ix t c) s)

/-- TASK_COMPLETION (R110): the last fibre of a task has freed its slot. -/
def execTaskCompletion (die ix : Nat) (s : State) : Out :=
  let t := tget {} (s.die die).tasks ix
  if t.state = .running ∧ t.fibres = 0 ∧ t.pendCores.isEmpty ∧ t.going.isEmpty then .next (s.completeTask die ix (State.runStatus t))
  else .next s

/-- COMPLETION_POST (R110, R115, R117): the oldest completed task of a partition is posted when its queue can take the
entry: bytes 4 to 31 first, bytes 0 to 3 in a later write, each for one unit of the host link (R164). While the partition is stopped nothing is posted (DESIGN CHOICE,
log 79). -/
def execCompletionPost (p : Nat) (s : State) : Out :=
  let v := s.vf p
  match v.held with
  | [] => .next s
  | (die, ix) :: rest =>
    if !v.cqen ∨ s.stopped p then .next s
    else match v.posting with
      | some pa =>
        let (ok, s) := s.hostUnit p
        .next (if ok then s.postDone p pa die ix rest else s)
      | none =>
        if State.cqFull v then .next s
        else
          let (ok, s) := s.hostUnit p
          if !ok then .next s else
          let va := v.cqbase.toNat + 32 * v.cqtail
          let s := s.chargeWalk 6 p 6 va
          match s.hostPa p va with
          | none => .next (s.cqFail p)
          | some pa =>
            if s.writeMeetsError pa 32 then .next (s.cqFail p)
            else
              let e := State.completionEntry v die ix (tget {} (s.die die).tasks ix)
              .next (((s.writeBytes (pa + 4) (e.drop 4)).modVf p fun v => { v with posting := some pa }).now (.completionPost p))

/-- TWAIT_QUERY (R109, R479): a query at its task unit, or the unit's answer at its fibre. A query of another partition finds the
entry GONE, but a service core sees those of every partition. While a die is in reset, TWAIT waits until the completions of its tasks
are posted. -/
def execTwaitQuery (id : Nat) (s : State) : Out :=
  match tfind s.queries id with
  | none => .next s
  | some q =>
    match q.answer with
    | some w =>
      let s := { s with queries := tdel s.queries id }
      (match (s.fib q.who).cont with
       | .task d n => .next (if n = id then (s.setGOf q.who d w).complete q.who else s)
       | _ => .next s)
    | none =>
      let reply (n : Nat) : State :=
        ({ s with queries := tset s.queries id { q with here := false, answer := some (word n) } }).sendEv (blockNode q.die) (coreNode q.who.core) true
          q.part (.twaitQuery id)
      match tfind (s.die q.die).tasks q.ix with
      | none => .next (reply (2 ^ 16))
      | some t =>
        if t.ord ≠ q.ord ∨ (t.part ≠ q.part ∧ q.part < 48) then .next (reply (2 ^ 16))
        else if t.state = .done ∨ (t.state = .waitPost ∧ (q.poll ∨ s.dieOpen q.die)) then .next (reply t.status)
        else if q.poll then .next (reply (2 * 2 ^ 16))
        else .next { s with queries := tset s.queries id { q with here := true } }

/-- TKILL (R127): a queued task completes; every fibre of a running task traps STOP, and it is given no more. -/
def execTkill (die p : Nat) (v : BitVec 64) (s : State) : Out :=
  let ix := field v 43 32
  match tfind (s.die die).tasks ix with
  | none => .next s
  | some t =>
    if field v 63 44 ≠ 0 ∨ !(s.part p).active ∨ t.part ≠ p ∨ t.ord ≠ field v 31 0 then .next s
    else if t.state = .queued then .next (s.completeTask die ix 4)
    else if t.state = .running then
      let s := s.modTask die ix fun t => { t with killed := true, pendCores := [], going := [] }
      let fs := s.fibres.filter fun f => f.2.inTask && f.2.tdie == die && f.2.taskix == ix && f.2.status != .free
      let s := fs.foldl (fun s f => s.postStop f.1) s
      .next (if (tget {} (s.die die).tasks ix).fibres = 0 then s.schedOnce s.clock (.taskCompletion die ix) else s)
    else .next s

end Sys2Proof.Machine
end

