-- ==== Sys2Proof/Machine/EvHost.lean ====
section
/-! DEFINITION. The host's writes of a virtual function's registers that have a row of their own: the task port, the
completion queue, the mailbox (04 R112 to R120). A rejected write changes only CQSTAT. -/

namespace Sys2Proof.Machine

/-- CQSIZE is in range (R115). -/
def cqSizeOk (n : Nat) : Bool := decide (16 ≤ n) && decide (n ≤ 65536) && n == 2 ^ Nat.log2 n

namespace State

/-- A write is rejected with a code (R115); an entry that is half written is posted again from its start later (log 51). -/
def cqReject (s : State) (p code : Nat) : State := s.modVf p fun v => { v with cqen := false, cqcode := code, posting := none, postUnit := none }

/-- An address span lies in a partition's host window (R115, R285). -/
def inWindow (s : State) (p a n : Nat) : Bool :=
  let x := s.part p
  decide (x.winBase ≤ a) && decide (a + n ≤ x.winBase + x.winLen)

/-- The die numbers on which a partition holds tiles. -/
def diesOf (s : State) (p : Nat) : List Nat := (List.range 6).filter fun d => s.hasTilesOn p d

end State

/-- HOST_SUBMIT (R113, R114): the record reaches its task unit 40 cycles later (R106). -/
def execHostSubmit (vf : Nat) (w : BitVec 64) (s : State) : Out :=
  let v := s.vf vf
  if v.busy then .next (s.modVf vf fun v => { v with lost := true })
  else
    let body := (List.range 15).flatMap (fun i => leBytes 8 (tget 0 v.tsub i).toNat) ++ leBytes 8 w.toNat
    let (id, s) := s.newId
    let b : Submission := { part := vf, who := none, die := s.recordDie vf body, body, arg := .null, argGiven := false, d := 0 }
    let s := { s with subs := s.subs ++ [(id, b)] }
    .next ((s.modVf vf fun v => { v with busy := true, tsub := tset v.tsub 15 w }).sched (s.clock + 40) (.taskRecord id))

/-- CQBASE_WRITE (R115). -/
def execCqbaseWrite (vf : Nat) (v : BitVec 64) (s : State) : Out :=
  if (s.vf vf).cqen then .next (s.cqReject vf 4)
  else if v.toNat % 4096 ≠ 0 ∨ !s.inWindow vf v.toNat 1 then .next (s.cqReject vf 1)
  else .next (s.modVf vf fun x => { x with cqbase := v })

/-- CQSIZE_WRITE (R115). -/
def execCqsizeWrite (vf : Nat) (v : BitVec 64) (s : State) : Out :=
  if (s.vf vf).cqen then .next (s.cqReject vf 4)
  else if !cqSizeOk v.toNat then .next (s.cqReject vf 2)
  else .next (s.modVf vf fun x => { x with cqsize := v })

/-- CQHEAD_WRITE (R115): the entries before it are free. -/
def execCqheadWrite (vf : Nat) (v : BitVec 64) (s : State) : Out :=
  if (s.vf vf).cqsize.toNat ≤ v.toNat then .next (s.cqReject vf 3)
  else .next ((s.modVf vf fun x => { x with cqhead := v }).schedOnce s.clock (.completionPost vf))

/-- CQ_ENABLE (R115, R116). -/
def execCqEnable (vf : Nat) (s : State) : Out :=
  let v := s.vf vf
  if v.cqen then .next s
  else if !cqSizeOk v.cqsize.toNat then .next (s.cqReject vf 2)
  else if v.cqbase.toNat % 4096 ≠ 0 ∨ !s.inWindow vf v.cqbase.toNat (32 * v.cqsize.toNat) then .next (s.cqReject vf 1)
  else if v.cqsize.toNat ≤ v.cqhead.toNat then .next (s.cqReject vf 3)
  else
    .next ((s.modVf vf fun v => { v with cqen := true, cqcode := 0, cqtail := v.cqhead.toNat }).schedOnce s.clock (.completionPost vf))

/-- CQ_DISABLE (R116). An entry of which only the first write is done is posted again from its start when the queue is enabled (DESIGN
CHOICE, log 51). -/
def execCqDisable (vf : Nat) (s : State) : Out := .next (s.modVf vf fun v => { v with cqen := false, posting := none, postUnit := none })

/-- MBTXGO (R119): the message enters the device ring, or is refused, within 64 cycles. -/
def execMbtxgo (vf : Nat) (v : BitVec 64) (s : State) : Out :=
  if (s.vf vf).txbusy then .next (s.modVf vf fun x => { x with txlost := true })
  else
    let (d, s) := s.draw
    .next ((s.modVf vf fun x => { x with txbusy := true, mbgo := v }).sched (s.clock + 1 + d % 64) (.mailboxEntry vf))

/-- MAILBOX_ENTRY (R119, R120, R265): the ring holds at most 15 unread messages. -/
def execMailboxEntry (vf : Nat) (s : State) : Out :=
  let v := s.vf vf
  if !v.txbusy then .next s
  else if (v.mbitail + 1) % 16 = v.mbihead then .next (s.modVf vf fun v => { v with txbusy := false, txfull := true })
  else
    let m : List Word := (List.range 7).map (fun i => tget 0 v.mbtx i) ++ [v.mbgo]
    let s := s.modVf vf fun v => { v with txbusy := false, mbin := tset v.mbin v.mbitail m, mbitail := (v.mbitail + 1) % 16 }
    .next ((s.diesOf vf).foldl (fun s d => s.report d vf { kind := 8, addr := word v.mbitail }) s)

/-- MBRXACK (R119). -/
def execMbrxack (vf : Nat) (s : State) : Out := .next (s.modVf vf fun v => { v with mbrx := v.mbrx.drop 1 })

end Sys2Proof.Machine
end

