-- ==== Sys2Proof/Machine/Cert.lean ====
section
/-! DEFINITION. The certificates that the attestation checks (12 R295, R296, R302): DER items, X.509 v3 certificates
signed with RSASSA-PSS, the three-certificate chain in SPDM form, and the key hashes that the package certificate lists. -/

namespace Sys2Proof.Machine

/-- An item in DER coding: its tag, its contents, and its bytes as a whole. -/
abbrev DerItem := Nat × List Byte × List Byte

/-- The first item of some bytes, with lengths of up to two bytes, and what follows it. -/
def derItem : List Byte → Option (DerItem × List Byte)
  | t :: l :: r =>
    let h := l.toNat - 128
    let n := if l.toNat < 128 then l.toNat else beNat (r.take h)
    let h := if l.toNat < 128 then 0 else h
    if 2 < h ∨ r.length < h + n then none
    else some ((t.toNat, slice r h n, (t :: l :: r).take (2 + h + n)), r.drop (h + n))
  | _ => none

/-- All items of some bytes, at most so many. -/
def derItems : Nat → List Byte → Option (List DerItem)
  | _, [] => some []
  | 0, _ => none
  | n + 1, bs =>
    match derItem bs with
    | none => none
    | some (x, rest) => (derItems n rest).map (x :: ·)

/-- The object identifier of RSASSA-PSS (RFC 8017), which starts a signature algorithm. -/
def pssOid : List Byte := [0x06, 0x09, 0x2A, 0x86, 0x48, 0x86, 0xF7, 0x0D, 0x01, 0x01, 0x0A]

/-- A certificate: the signed part with its fields, and the signature. -/
structure Cert where
  signed : List Byte
  fields : List DerItem
  sig : List Byte
  deriving DecidableEq, Repr, Inhabited

/-- An item as an X.509 v3 certificate with an RSASSA-PSS signature of 384 bytes (R295). -/
def certOf (c : DerItem) : Option Cert :=
  match derItems 3 c.2.1 with
  | some [t, a, g] =>
    match derItems 16 t.2.1 with
    | some fs =>
      let tags := fs.map fun f : DerItem => f.1
      let v := fs.headD (0, [], [])
      let inner := fs.getD 2 (0, [], [])
      if c.1 = 0x30 ∧ t.1 = 0x30 ∧ tags = [0xA0, 0x02, 0x30, 0x30, 0x30, 0x30, 0x30, 0xA3] ∧ v.2.1 = [2, 1, 2] ∧ inner.2.2 = a.2.2
          ∧ a.2.1.take 11 = pssOid ∧ g.1 = 3 ∧ g.2.1.length = 385 ∧ g.2.1.take 1 = [0]
      then some { signed := t.2.2, fields := fs, sig := g.2.1.drop 1 } else none
    | none => none
  | _ => none

/-- The SubjectPublicKeyInfo of a certificate, in DER coding. -/
def Cert.spki (c : Cert) : List Byte := (c.fields.getD 6 (0, [], [])).2.2

/-- The modulus of a certificate's RSA key. -/
def Cert.modulus (c : Cert) : Option Nat :=
  match derItems 2 (c.fields.getD 6 (0, [], [])).2.1 with
  | some [_, b] =>
    (match derItems 1 (b.2.1.drop 1) with
     | some [k] => (derItems 2 k.2.1).map fun l => beNat (l.headD (0, [], [])).2.1
     | _ => none)
  | _ => none

/-- The hash of a certificate's key (R295). -/
def Cert.keyHash (c : Cert) : List Byte := sha256 c.spki

/-- A certificate is signed by the key of another. -/
def Cert.signedBy (c issuer : Cert) : Bool :=
  match issuer.modulus with
  | some n => pssVerify (beBytes 384 n) (sha256 c.signed) c.sig
  | none => false

/-- The leaf of a chain in SPDM form that is valid to the Seonaolo root CA: its length, two zero bytes, the hash of the root, then
the root CA, the product CA and the leaf, root first (R295, R302). -/
def chainLeaf (bs : List Byte) : Option Cert :=
  match derItems 3 (bs.drop 36) with
  | some [r, p, l] =>
    if sliceNat bs 0 2 ≠ bs.length ∨ sliceNat bs 2 2 ≠ 0 ∨ slice bs 4 32 ≠ sha256 r.2.2 ∨ r.2.2 ≠ Config.rootCaCert then none
    else
      (match certOf r, certOf p, certOf l with
       | some cr, some cp, some cl => if cp.signedBy cr && cl.signedBy cp then some cl else none
       | _, _, _ => none)
  | _ => none

/-- The octets of the Seonaolo extension of a certificate: the last item of the extension with its object identifier (R295). -/
def Cert.keyList (c : Cert) : List Byte :=
  let exts := ((derItems 1 (c.fields.getD 7 (0, [], [])).2.1).bind fun l => derItems 16 (l.headD (0, [], [])).2.1).getD []
  ((exts.filterMap fun e => derItems 3 e.2.1).find? fun l => (l.headD (0, [], [])).2.2 == Config.keyListOid).elim [] fun l =>
    (l.getLastD (0, [], [])).2.1

/-- Entry d of the list of key hashes that a package certificate carries: the last seven times 32 bytes of its extension (R295;
log 113). -/
def Cert.listed (c : Cert) (d : Nat) : List Byte := slice (c.keyList.drop (c.keyList.length - 224)) (32 * d) 32

/-- Entry d of the list in the package's own certificate. -/
def listedHash (d : Nat) : List Byte := ((chainLeaf Config.packageChain).map fun c => c.listed d).getD []

/-- The package certificate is in order: its chain is valid, and entry 6 is the hash of the package identity key (R295, R351). -/
def packageOk : Bool := (chainLeaf Config.packageChain).isSome && listedHash 6 == beBytes 32 (dieKeyHash 6).toNat

/-- The certificate chain of a die, in its store of 16 KiB (R294, R295). -/
def dieStore (d : Nat) : List Byte := (Config.dieChain d).take 16384

/-- The slot-0 chain of a responder (R295). -/
def spdmChain (r : Nat) : List Byte := if r = 6 then Config.packageChain else dieStore r

/-- The root accepts a die by this chain only if its leaf key is entry d of the package certificate's list (R296). -/
def dieListed (d : Nat) (chain : List Byte) : Bool := (chainLeaf chain).any fun c => c.keyHash == listedHash d

/-- A die accepts the root by this chain only if it ends at the Seonaolo root CA and lists the die's own key at its position (R296). -/
def rootListed (d : Nat) (chain : List Byte) : Bool := (chainLeaf chain).any fun c => c.listed d == beBytes 32 (dieKeyHash d).toNat

end Sys2Proof.Machine
end

