-- ==== Sys2Proof/Machine/Store7.lean ====
section
/-! DEFINITION. The space-7 layout of the root firmware (22 R519): the templates and the chain that its image brings, the
staged images, and the places where the responder keeps its messages, its transcripts and its state (22 R520 to R523). -/

namespace Sys2Proof.Machine

/-- The dwords of a list of bytes, the last padded with zeros. -/
def toDwords (bs : List Byte) : List (BitVec 32) :=
  (List.range (ceilDiv bs.length 4)).map fun i => BitVec.ofNat 32 (leNat ((bs.drop (4 * i)).take 4))

/-- VERSION, CAPABILITIES and ALGORITHMS (R301, R519; log 16 for what a die answers). -/
def spdmVersion : List Byte := [0x10, 0x04, 0, 0, 0, 1, 0, 0x12]
def spdmCapabilities (r : Nat) : List Byte :=
  [0x12, 0x61, 0, 0, 0, 0x0E, 0, 0] ++ (if r = 6 then [0x16, 0, 0, 0] else [0xD6, 0x03, 0, 0]) ++ [0, 8, 0, 0, 0, 8, 0, 0]
def spdmAlgorithms (r : Nat) : List Byte :=
  [0x12, 0x63, if r = 6 then 0 else 4, 0, if r = 6 then 0x24 else 0x34, 0, 1, 0, 2, 0, 0, 0, 8, 0, 0, 0, 1, 0, 0, 0]
    ++ List.replicate 16 0
    ++ (if r = 6 then [] else [2, 0x20, 0x10, 0, 3, 0x20, 2, 0, 4, 0x20, 8, 0, 5, 0x20, 1, 0])

/-- The 100-byte prefixes of R519: "dmtf-spdm-v1.2.*" four times, zeros, and the context, padded in front. -/
def spdmPrefix (ctx : List Byte) : List Byte :=
  let v : List Byte := [0x64, 0x6D, 0x74, 0x66, 0x2D, 0x73, 0x70, 0x64, 0x6D, 0x2D, 0x76, 0x31, 0x2E, 0x32, 0x2E, 0x2A]
  v ++ v ++ v ++ v ++ List.replicate (36 - ctx.length) 0 ++ ctx

/-- "responder-challenge_auth signing". -/
def challengeContext : List Byte :=
  [0x72, 0x65, 0x73, 0x70, 0x6F, 0x6E, 0x64, 0x65, 0x72, 0x2D, 0x63, 0x68, 0x61, 0x6C, 0x6C, 0x65] ++
  [0x6E, 0x67, 0x65, 0x5F, 0x61, 0x75, 0x74, 0x68, 0x20, 0x73, 0x69, 0x67, 0x6E, 0x69, 0x6E, 0x67]

/-- "responder-measurements signing". -/
def measurementsContext : List Byte :=
  [0x72, 0x65, 0x73, 0x70, 0x6F, 0x6E, 0x64, 0x65, 0x72, 0x2D, 0x6D, 0x65, 0x61, 0x73, 0x75] ++
  [0x72, 0x65, 0x6D, 0x65, 0x6E, 0x74, 0x73, 0x20, 0x73, 0x69, 0x67, 0x6E, 0x69, 0x6E, 0x67]

/-- "responder-key_exchange_rsp signing" and "requester-finish signing" (SPDM 1.2; log 16). -/
def exchangeContext : List Byte :=
  [0x72, 0x65, 0x73, 0x70, 0x6F, 0x6E, 0x64, 0x65, 0x72, 0x2D, 0x6B, 0x65, 0x79, 0x5F, 0x65, 0x78, 0x63] ++
  [0x68, 0x61, 0x6E, 0x67, 0x65, 0x5F, 0x72, 0x73, 0x70, 0x20, 0x73, 0x69, 0x67, 0x6E, 0x69, 0x6E, 0x67]
def finishContext : List Byte :=
  [0x72, 0x65, 0x71, 0x75, 0x65, 0x73, 0x74, 0x65, 0x72, 0x2D, 0x66, 0x69] ++
  [0x6E, 0x69, 0x73, 0x68, 0x20, 0x73, 0x69, 0x67, 0x6E, 0x69, 0x6E, 0x67]

/-- The DMTF type of a measurement register (R309). -/
def measType (n : Nat) : Nat := lget 1 [1, 3, 1, 2, 2, 2, 3, 3] n

/-- What is signed for a transcript (R521). -/
def spdmHash (ctx transcript : List Byte) : List Byte := sha256 (spdmPrefix ctx ++ sha256 transcript)

/-- The first n bytes of a list, with zeros behind a shorter one. -/
def fitBytes (n : Nat) (bs : List Byte) : List Byte := bs.take n ++ List.replicate (n - bs.length) 0

/-- A staged image of the firmware: 0 the management image, 1 the fuse and debug record, 2 the die reference values: its place and size. -/
def stagedAt (i : Nat) : Nat × Nat := if i = 0 then (0x10000, 0x20000) else if i = 1 then (0x30000, 0x100) else (0x30100, 0x600)

/-- The state record of a transcript (R464, R521). -/
def transcriptRecord (bs : List Byte) : List Byte := shaUpdate shaStart bs

namespace State

/-- Write and read at an offset of the layout, from 0x4_0000 of the root core's private store (R519). -/
def put7 (s : State) (off : Nat) (bs : List Byte) : State := s.writeBytes (paOf 7 0 (0x40000 + off)) bs
def get7 (s : State) (off n : Nat) : List Byte := s.readBytes (paOf 7 0 (0x40000 + off)) n

/-- A staged image (R519). -/
def staged (s : State) (i : Nat) : List Byte := s.get7 (stagedAt i).1 (stagedAt i).2

/-- The firmware image of a start and what it stages come into the store: the templates, the chain with its length and digest, the
staged images, which are free, and the key hashes of the package certificate; the responder is in state 0 (R519, R520; log 111). -/
def loadFirmware (s : State) : State :=
  let dig := sha256 Config.packageChain
  let s := (((s.put7 0x1180 (spdmPrefix challengeContext)).put7 0x1208 (spdmPrefix measurementsContext)).put7 0x1354 spdmVersion).put7
    0x135C (spdmCapabilities 6)
  let s := ((s.put7 0x1370 (spdmAlgorithms 6)).put7 0x1394 ([0x12, 1, 0, 1] ++ dig)).put7 0x13B8 ([0x12, 3, 0, 1] ++ dig)
  let s := (List.range 16).foldl (fun s n =>
    s.put7 (0x1E10 + 39 * n) [BitVec.ofNat 8 (n + 1), 1, 0x23, 0, BitVec.ofNat 8 (measType n), 0x20, 0]) s
  let s := ((s.put7 0x8000 (Config.packageChain.take 0x8000)).put7 0x12F0 dig).put7 0x12B8 (leBytes 8 (sliceNat Config.packageChain 0 2))
  let s := [0, 1, 2].foldl (fun s i => s.put7 (stagedAt i).1 (fitBytes (stagedAt i).2 (Config.stagedImage i))) s
  (s.put7 0x30800 ((List.range 7).flatMap listedHash)).put7 0x12B0 (leBytes 8 0)

end State

end Sys2Proof.Machine
end

