-- ==== Sys2Proof/Machine/Boot.lean ====
section
/-! DEFINITION. The end of a start (15 R351, steps 8 to 12): the dies' attestation is over, the meters are restored (13 R323,
R331) and the device is READY. -/

namespace Sys2Proof.Machine

/-- A kind of address that no wipe and no loss of power touches: far and host memory (R353). -/
def outside (a : Nat) : Bool := paKind a == 5 || paKind a == 6

/-- The mask ROM, the measurement registers and the primal capabilities in the root core's store (R65, R135, R421). -/
def romAt (a : Nat) : Bool := decide (paOf 7 0 0x78000 ≤ a) && decide (a < paOf 7 0 0x7C000)
def bootAt (a : Nat) : Bool :=
  (decide (paOf 7 0 0x7FE00 ≤ a) && decide (a < paOf 7 0 0x80000)) || (decide (paOf 7 0 0 ≤ a) && decide (a < paOf 7 0 128))

/-- What a start keeps before its wipe: everything but what a root-core reset sets (R135, R308). -/
def keptBoot (a : Nat) : Bool := !bootAt a

namespace State

/-- Keep the memory of some addresses, with their tags, poison and errors. -/
def keepMem (s : State) (keep : Nat → Bool) : State :=
  { s with mem := s.mem.filter fun c => keep c.1, tags := s.tags.filter keep, poison := s.poison.filter keep, errors := s.errors.filter keep }

/-- The machine as a reset of every core, die and unit leaves it: what lies outside, in flash, in fuses and in memory stays, and
the root core's boot fibre stands at the ROM's first word (R65, R135, R282, R351). -/
def rebooted (s : State) (st : Start) : State :=
  let k := s.pkg
  { State.reset with
    inputs := s.inputs, fresh := s.fresh, mem := s.mem
    tags := State.reset.tags.foldl setIn s.tags, poison := s.poison, errors := s.errors
    dies := (List.range 6).map fun d => (d, { granules := [] })
    pkg := { ports := k.ports, meters := k.meters, images := k.images, rpmc := k.rpmc, entropyOk := k.entropyOk, links := k.links.map fun l : Nat × LinkKey => (l.1, { epoch := l.2.epoch }), start := st } }

/-- The device boots into recovery (R357): only the root core runs. -/
def bootRecovery (s : State) (code : Nat) (st : Start) : State :=
  ((s.keepMem keptBoot).rebooted { st with phase := 3, code, recovery := true, powered := true }).loadFirmware

/-- The meters as the checkpoint whose counter is the flash's gives them, or CLOSED where there is none (R323, R331). -/
def restoreMeters (s : State) : State :=
  let k := s.pkg
  match (k.images.find? fun i : Nat × List (Nat × Meter) => i.1 == k.rpmc).filter fun _ => !Config.imageFails s.fresh with
  | some (_, ms) =>
    { s with fresh := s.fresh + 1 }.modPkg fun k => { k with
      restored := true, ckfail := false
      meters := ms.map fun m : Nat × Meter => (m.1, { m.2 with shut := none, restored := m.2.isOpen || m.2.restored }) }
  | none =>
    { s with fresh := s.fresh + 1 }.modPkg fun k => { k with
      restored := false, ckfail := true
      meters := k.meters.map fun m : Nat × Meter => (m.1, { m.2 with shut := none, isOpen := false }) }

/-- A start goes on to step 9 once no die has an attestation before it, and ends once every die is OPEN or REJECTED: it fails when all are
REJECTED, and an attempt from recovery returns there at once (R357); else steps 10 to 12 are done in this cycle and the device is READY (R351; log 42). -/
def startCheck (s : State) : State :=
  let st := s.pkg.start
  let ended (d : Nat) : Bool := (s.die d).trust.state == 4 || (s.die d).trust.state == 5
  let out (d : Nat) : Bool := (s.die d).trust.state == 5
  if st.phase ≠ 1 ∨ st.step < 8 ∨ 9 < st.step ∨ st.code ≠ 0 then s
  else if !(List.range 6).all ended then
    if (List.range 6).all fun d => ended d || (s.die d).trust.state == 3 then s.modPkg fun k => { k with start := { k.start with step := 9 } } else s
  else
    let rej := ((List.range 6).map fun d => b2n (out d) * 2 ^ d).foldl (· + ·) 0
    if (List.range 6).all out then
      let code := 0x20 + (s.die 0).trust.reason
      if st.recovery then s.bootRecovery code { st with rej } else s.modPkg fun k => { k with start := { k.start with rej, code } }
    else
      s.restoreMeters.modPkg fun k => { k with
        start := { k.start with rej, phase := 2, step := 12, code := 0, fails := 0, recovery := false } }

end State

end Sys2Proof.Machine
end

