-- ==== Sys2Proof/Machine/EvSpdm.lean ====
section
/-! DEFINITION. The SPDM responders (12 R301, R302, R305 to R310; 22 R518 to R522): responder 6 is the root core, which
takes a request from s0 and answers into s1; responders 0 to 5 are the dies' security controllers, whose answers go over
the attestation channel. The root core's keeps its messages and transcripts in space 7 too (22 R519, R523). -/

namespace Sys2Proof.Machine

/-- The request codes of R306. -/
def spdmCodes : List Nat := [0x84, 0xE1, 0xE3, 0x81, 0x82, 0x83, 0xE0]

/-- The DOE object of an SPDM message (R518). -/
def spdmObject (bs : List Byte) : List (BitVec 32) :=
  let p := toDwords bs
  0x000101AB :: BitVec.ofNat 32 (p.length + 2) :: p

/-- ERROR (R307, R522). -/
def spdmError (code data : Nat) : List Byte := [0x12, 0x7F, BitVec.ofNat 8 code, BitVec.ofNat 8 data]

namespace State

/-- A responder's state. -/
def spdm (s : State) (r : Nat) : Spdm := if r = 6 then s.pkg.spdm else (s.die r).spdm
def modSpdm (s : State) (r : Nat) (h : Spdm → Spdm) : State :=
  if r = 6 then s.modPkg fun k => { k with spdm := h k.spdm } else s.modDie r fun d => { d with spdm := h d.spdm }

/-- The object at the head of s0 is this request; reserved bits of its header are not looked at (R518, R519). -/
def doeHas (s : State) (req : List Byte) : Bool :=
  let o := s.pkg.doe.s0.take (ceilDiv req.length 4 + 2)
  (lget 0 o 0).toNat % 2 ^ 24 == 0x0101AB && (lget 0 o 1).toNat % 2 ^ 18 == ceilDiv req.length 4 + 2 && o.drop 2 == toDwords req

/-- Write at a place of the root responder's layout (R519). -/
def note (s : State) (r off : Nat) (bs : List Byte) : State := if r = 6 then s.put7 off bs else s

/-- The bytes of a request as its responder has them: the root core reads whole dwords (R519, R521). -/
def heardBytes (r : Nat) (req : List Byte) : List Byte := if r = 6 then fitBytes (4 * ceilDiv req.length 4) req else req

/-- The responder takes the request: the root core's into IN (R519). -/
def takeRequest (s : State) (r : Nat) (req : List Byte) : State :=
  if r = 6 then
    ((s.modPkg fun k => { k with doe := { k.doe with s0 := k.doe.s0.drop (ceilDiv req.length 4 + 2) } }).doeRoom).put7 0 (heardBytes 6 req)
  else s

/-- The responder answers. -/
def answerSpdm (s : State) (r : Nat) (bs : List Byte) : State :=
  let s := s.modSpdm r fun x => { x with last := bs }
  if r = 6 then s.modPkg fun k => { k with doe := { k.doe with s1 := k.doe.s1 ++ spdmObject bs } } else s.sendAtt r false bs.length []

/-- The responder answers with an ERROR (R307), the root core from ERR (R519). -/
def spdmFail (s : State) (r code data : Nat) : State := (s.note r 0x1350 (spdmError code data)).answerSpdm r (spdmError code data)

/-- The connection state changes, in STA too (R306, R519). -/
def setConn (s : State) (r n : Nat) : State := (s.modSpdm r fun x => { x with state := n }).note r 0x12B0 (leBytes 8 n)

/-- The transcripts change, and with them the state records V, M and L of the layout that are named (R519, R521). -/
def setTran (s : State) (r : Nat) (v m l : Bool) (h : Spdm → Spdm) : State :=
  let s := s.modSpdm r h
  let x := s.spdm r
  let s := if v then s.note r 0x1000 (transcriptRecord x.va) else s
  let s := if m then s.note r 0x1080 (transcriptRecord x.m1) else s
  if l then s.note r 0x1100 (transcriptRecord x.l1) else s

/-- A request reaches its responder: for the root core when its object stands in s0 and s1 has room for an ERROR, for a die
while its attestation channel is open (R297). -/
def spdmHeard (s : State) (r : Nat) (req : List Byte) : Bool :=
  if r = 6 then s.doeHas req && decide (s.pkg.doe.s1.length + 3 ≤ 1024)
  else 1 ≤ (s.die r).trust.state && (s.die r).trust.state ≤ 4

/-- The tests 1 to 4 of R520 for a row: its code, its version byte and the states in which it is accepted; then what the
row does with the state after the request has been taken. A code of another row is not this event. -/
def respond (s : State) (r : Nat) (req : List Byte) (row version lo hi : Nat) (act : List Byte → State → State) : Out :=
  let req := heardBytes r req
  let code := (lget 0 req 1).toNat
  let fail (c d : Nat) (t : State) : State := t.spdmFail r c d
  if !s.spdmHeard r req ∨ (code ≠ row ∧ spdmCodes.contains code) then .next s
  else
    let busy := decide (r = 6) && !s.pkg.doe.s1.isEmpty
    let t := s.takeRequest r req
    if busy then .next (fail 3 0 t)
    else if code ≠ row then .next (fail 7 code t)
    else if (lget 0 req 0).toNat ≠ version then .next (fail 0x41 0 t)
    else if (s.spdm r).state < lo ∨ hi < (s.spdm r).state then .next (fail 4 0 t)
    else .next (act req t)

/-- InvalidRequest (R307). -/
def spdmInvalid (s : State) (r : Nat) : State := s.spdmFail r 1 0

/-- Request dwords. -/
def reqDwords (req : List Byte) : Nat := ceilDiv req.length 4

/-- 32 random bytes of a responder: four draws of RNG (R450, R519), or those of a die's security controller (log 9). -/
def drawNonce (s : State) (r : Nat) : List Byte × State :=
  if r = 6 then s.randomBytes 32
  else ((List.range 32).map fun i => Config.randomByte (s.fresh + i), { s with fresh := s.fresh + 32 })

/-- The random bit generator has failed (R450, R520). -/
def noEntropy (s : State) (r : Nat) : Bool := r == 6 && !s.pkg.entropyOk

/-- What a signature needs stands in the layout: the transcript's hash behind its prefix, and what is signed in MH (R519, R521). -/
def noteHash (s : State) (r slot : Nat) (ctx transcript : List Byte) : State :=
  (s.note r slot (sha256 transcript)).note r 0x1290 (spdmHash ctx transcript)

/-- The signature over a transcript (R521), with a fresh salt. -/
def spdmSign (s : State) (r : Nat) (ctx transcript : List Byte) : List Byte × State :=
  let (salt, s) := s.drawNonce r
  let h := spdmHash ctx transcript
  (if r = 6 then pssSign Config.packageModulus Config.packageExponent h salt
   else pssSign (Config.dieModulus r) (Config.dieExponent r) h salt, s)

/-- PKSIGN refuses in DECOMMISSIONED (R437, R520). -/
def noSigning (s : State) (r : Nat) : Bool := r == 6 && s.pkg.start.lc == 4

/-- A measurement block (R310, R519). -/
def measBlock (s : State) (r n : Nat) : List Byte :=
  [BitVec.ofNat 8 n, 1, 0x23, 0, BitVec.ofNat 8 (if r = 6 then measType (n - 1) else 1), 0x20, 0]
    ++ (if r = 6 then s.meas (n - 1) else beBytes 32 (Config.dieMeasurement r).toNat)

/-- How many blocks a responder has. -/
def measCount (r : Nat) : Nat := if r = 6 then 16 else 1

/-- The blocks of an index, or none for an index that does not exist (R307, R310). -/
def measBlocks (r ix : Nat) : Option (List Nat) :=
  if ix = 0 then some []
  else if ix = 0xFF then some ((List.range (measCount r)).map (· + 1))
  else if ix ≤ measCount r then some [ix] else none

/-- Measurement registers are being extended: the reads of the responder wait for them (R421, R522). -/
def mextRuns (s : State) : Bool := s.pkg.work.any fun w => w.meas.isSome

/-- The values of the 16 blocks stand in BLK (R519). -/
def noteBlocks (s : State) (r : Nat) : State :=
  if r = 6 then (List.range 16).foldl (fun s n => s.put7 (0x1E10 + 39 * n + 7) (s.meas n)) s else s

end State

/-! ## The requests of R306 -/

/-- GET_VERSION (R306, R521). -/
def execGetVersion (r : Nat) (req : List (BitVec 8)) (s : State) : Out :=
  s.respond r req 0x84 0x10 0 3 fun req s =>
    if sliceNat req 2 2 ≠ 0 ∨ State.reqDwords req ≠ 1 then s.spdmInvalid r
    else
      ((s.setConn r 1).setTran r true false false fun x => { x with va := req.take 4 ++ spdmVersion, m1 := [], l1 := [], th := [] }).answerSpdm r
        spdmVersion

/-- GET_CAPABILITIES (R306, R521). -/
def execGetCapabilities (r : Nat) (req : List (BitVec 8)) (s : State) : Out :=
  s.respond r req 0xE1 0x12 1 1 fun req s =>
    if State.reqDwords req ≠ 5 then s.spdmInvalid r
    else
      ((s.setConn r 2).setTran r true false false fun x => { x with va := x.va ++ req.take 20 ++ spdmCapabilities r }).answerSpdm r
        (spdmCapabilities r)

/-- NEGOTIATE_ALGORITHMS (R306, R520, R521). -/
def execNegotiateAlgorithms (r : Nat) (req : List (BitVec 8)) (s : State) : Out :=
  s.respond r req 0xE3 0x12 2 2 fun req s =>
    let n := sliceNat req 4 2
    if n < 32 ∨ ceilDiv n 4 ≠ State.reqDwords req then s.spdmInvalid r
    else
      ((s.setConn r 3).setTran r true true true fun x =>
        let va := x.va ++ req ++ spdmAlgorithms r
        { x with va, m1 := va, l1 := va }).answerSpdm r (spdmAlgorithms r)

/-- GET_DIGESTS (R306, R521). -/
def execGetDigests (r : Nat) (req : List (BitVec 8)) (s : State) : Out :=
  s.respond r req 0x81 0x12 3 3 fun req s =>
    if State.reqDwords req ≠ 1 ∨ sliceNat req 2 2 ≠ 0 then s.spdmInvalid r
    else
      let bs := [0x12, 1, 0, 1] ++ sha256 (spdmChain r)
      (s.setTran r false true false fun x => { x with m1 := x.m1 ++ req.take 4 ++ bs }).answerSpdm r bs

/-- GET_CERTIFICATE (R306, R520, R521). -/
def execGetCertificate (r : Nat) (req : List (BitVec 8)) (s : State) : Out :=
  s.respond r req 0x82 0x12 3 3 fun req s =>
    let off := sliceNat req 4 2
    let len := (spdmChain r).length
    if State.reqDwords req ≠ 2 ∨ sliceNat req 2 2 ≠ 0 ∨ len ≤ off then s.spdmInvalid r
    else
      let n := min (min (sliceNat req 6 2) 1024) (len - off)
      let bs := [0x12, 2, 0, 0] ++ leBytes 2 n ++ leBytes 2 (len - off - n) ++ slice (spdmChain r) off n
      ((s.note r 0x1A00 bs).setTran r false true false fun x => { x with m1 := x.m1 ++ req.take 8 ++ bs }).answerSpdm r bs

/-- CHALLENGE (R306, R520, R521). -/
def execChallenge (r : Nat) (req : List (BitVec 8)) (s : State) : Out :=
  s.respond r req 0x83 0x12 3 3 fun req s =>
    if State.reqDwords req ≠ 9 ∨ sliceNat req 2 2 ≠ 0 then s.spdmInvalid r
    else if s.noEntropy r then s.spdmFail r 3 0
    else
      let (nonce, s) := s.drawNonce r
      let head := [0x12, 3, 0, 1] ++ sha256 (spdmChain r) ++ nonce ++ [0, 0]
      let t := (s.spdm r).m1 ++ req.take 36 ++ head
      let s := ((s.note r 0x1310 nonce).note r 0x13B8 head).noteHash r 0x11E4 challengeContext t
      let s := s.setTran r false true false fun x => { x with m1 := x.va }
      if s.noSigning r then s.spdmFail r 4 0
      else
        let (sig, s) := s.spdmSign r challengeContext t
        (s.note r 0x13FE sig).answerSpdm r (head ++ sig)

/-- GET_MEASUREMENTS (R306, R310, R520, R521). The root core's responder waits in its reads for the extensions under way (R421, R522). -/
def execGetMeasurements (r : Nat) (req : List (BitVec 8)) (s : State) : Out :=
  if r = 6 ∧ s.spdmHeard 6 req ∧ s.mextRuns then .next (s.sched (s.clock + 1) (.getMeasurements r req)) else
  s.respond r req 0xE0 0x12 3 3 fun req s =>
    let sgn := sliceNat req 2 1
    let ix := sliceNat req 3 1
    if 1 < sgn ∨ State.reqDwords req ≠ 1 + 9 * sgn ∨ (sgn = 1 ∧ sliceNat req 36 1 ≠ 0) then s.spdmInvalid r
    else match State.measBlocks r ix with
      | none => s.spdmInvalid r
      | some l =>
        if s.noEntropy r then s.spdmFail r 3 0
        else
          let (nonce, s) := s.drawNonce r
          let head := [0x12, 0x60, BitVec.ofNat 8 (if ix = 0 then State.measCount r else 0), 0, BitVec.ofNat 8 l.length]
            ++ leBytes 3 (39 * l.length) ++ l.flatMap (s.measBlock r) ++ nonce ++ [0, 0]
          let s := (((s.note r 0x1310 nonce).note r 0x1580 head).note r 0x12C0 (leBytes 8 sgn ++ leBytes 8 (0x1580 + head.length)
            ++ leBytes 8 l.length)).noteBlocks r
          let t := (s.spdm r).l1 ++ slice req 0 (4 + 33 * sgn) ++ head
          if sgn = 0 then (s.setTran r false false true fun x => { x with l1 := t }).answerSpdm r head
          else
            let s := s.noteHash r 0x126C measurementsContext t
            let s := s.setTran r false false true fun x => { x with l1 := x.va }
            if s.noSigning r then s.spdmFail r 4 0
            else
              let (sig, s) := s.spdmSign r measurementsContext t
              (s.note r (0x1580 + head.length) sig).answerSpdm r (head ++ sig)

/-! ## The session of a die (R302) -/

/-- Bytes of a session's key exchange, which only its secrets decide (log 9). -/
def State.sessionDraw (s : State) (n : Nat) : List Byte × State :=
  ((List.range n).map fun i => Config.sessionByte (s.fresh + i), { s with fresh := s.fresh + n })

/-- GET_CERTIFICATE for the next portion of the root's chain, as a die encapsulates it (R302; log 16). -/
def chainAsk (off : Nat) : List Byte := [0x12, 0x82, 0, 0] ++ leBytes 2 off ++ leBytes 2 1024

/-- The encapsulated flow at a die, after KEY_EXCHANGE (R296, R302; in the layout of the standard, log 16): it asks for the root's
digest and then its chain, and accepts it only if it ends at the Seonaolo root CA and lists the die's key. -/
def State.encapAnswer (s : State) (d : Nat) (req : List Byte) : State :=
  let ack (t : Nat) (bs : List Byte) : List Byte := [0x12, 0x6B, 1, BitVec.ofNat 8 t, 1, 0, 0, 0] ++ bs
  let body := req.drop 4
  if (lget 0 req 1).toNat = 0xEA then
    (s.modSpdm d fun x => { x with peer := [], accepted := false }).answerSpdm d ([0x12, 0x6A, 1, 0] ++ [0x12, 0x81, 0, 0])
  else if (lget 0 body 1).toNat = 1 then s.answerSpdm d (ack 1 (chainAsk 0))
  else if (lget 0 body 1).toNat = 2 then
    let got := (s.spdm d).peer ++ slice body 8 (sliceNat body 4 2)
    let s := s.modSpdm d fun x => { x with peer := got }
    if sliceNat body 6 2 ≠ 0 then s.answerSpdm d (ack 1 (chainAsk got.length))
    else if rootListed d got then (s.modSpdm d fun x => { x with accepted := true }).answerSpdm d (ack 2 [])
    else (s.modSpdm d fun x => { x with handshake := false }).answerSpdm d (spdmError 5 0)
  else s.answerSpdm d (spdmError 1 0)

/-- KEY_EXCHANGE (R302), and the encapsulated flow of mutual authentication that it asks for. -/
def execKeyExchange (d : Nat) (req : List (BitVec 8)) (s : State) : Out :=
  let code := (lget 0 req 1).toNat
  if d < 6 ∧ (code = 0xEA ∨ code = 0xEB) ∧ (s.spdm d).handshake ∧ s.spdmHeard d req then .next (s.encapAnswer d req) else
  s.respond d req 0xE4 0x12 3 3 fun req s =>
    let (bs, s) := s.sessionDraw 130
    let head := [0x12, 0x64, 0, 0] ++ bs.take 2 ++ [2, 0] ++ bs.drop 2 ++ [0, 0]
    let t := (s.spdm d).va ++ sha256 (spdmChain d) ++ req ++ head
    let (sig, s) := s.spdmSign d exchangeContext t
    let rkey := Config.sessionKey s.fresh
    let qkey := Config.sessionKey (s.fresh + 1)
    let s := { s with fresh := s.fresh + 2 }
    let bs := head ++ sig ++ hmac (leBytes 32 rkey.toNat) (sha256 (t ++ sig))
    (s.modSpdm d fun x => { x with
      handshake := true, accepted := false, rkey, qkey, th := x.va ++ sha256 (spdmChain d) ++ req ++ bs }).answerSpdm d bs

/-- The bytes of FINISH that its signature covers, behind the transcript so far and the hash of the root's chain. -/
def finishTh (th chain req : List Byte) : List Byte := th ++ sha256 chain ++ req.take 4

/-- FINISH (R302): outside a session's handshake, or before the root has been accepted, it is unexpected; the requester's signature and
verify data must be right. -/
def execFinish (d : Nat) (req : List (BitVec 8)) (s : State) : Out :=
  s.respond d req 0xE5 0x12 3 3 fun req s =>
    let x := s.spdm d
    let t := finishTh x.th x.peer req
    let sig := slice req 4 384
    let good := (((chainLeaf x.peer).bind Cert.modulus).any fun n => pssVerify (beBytes 384 n) (spdmHash finishContext t) sig)
      && slice req 388 32 == hmac (leBytes 32 x.qkey.toNat) (sha256 (t ++ sig))
    if !x.handshake ∨ !x.accepted then s.spdmFail d 4 0
    else if !good then s.spdmFail d 6 0
    else
      let bs := [0x12, 0x65, 0, 0] ++ hmac (leBytes 32 x.rkey.toNat) (sha256 (x.th ++ sha256 x.peer ++ req ++ [0x12, 0x65, 0, 0]))
      (s.modSpdm d fun x => { x with session := true, handshake := false, th := x.th ++ req ++ bs }).answerSpdm d bs

/-- A request that has come over a die's attestation channel is answered by its controller (R297, R302). -/
def State.dieHears (s : State) (d : Nat) (bs : List Byte) : State :=
  let out : Out := match (lget 0 bs 1).toNat with
    | 0x84 => execGetVersion d bs s
    | 0xE1 => execGetCapabilities d bs s
    | 0xE3 => execNegotiateAlgorithms d bs s
    | 0x81 => execGetDigests d bs s
    | 0x82 => execGetCertificate d bs s
    | 0x83 => execChallenge d bs s
    | 0xE0 => execGetMeasurements d bs s
    | 0xE5 => execFinish d bs s
    | 0 => .next s
    | _ => execKeyExchange d bs s
  match out with
  | .next t => t
  | _ => s

end Sys2Proof.Machine
end

