-- ==== Sys2Proof/Machine/EvResidue.lean ====
section
/-! DEFINITION. The residue (02 R37 to R39; 12 R297): a port sends one flit of a slot. -/

namespace Sys2Proof.Machine

/-- The input ports of a node are numbered below this. -/
def portCount : Nat := 101

/-- How far an input stands behind the one served last. -/
def inputDistance (last q : Nat) : Nat := (q + 2 * portCount - (last + 1)) % portCount

namespace State

/-- The node's input buffer of a port and a network. -/
def rbufOf (s : State) (node q : Nat) (reply : Bool) : RBuf :=
  if node = ioNode then tget {} s.pkg.rbuf (q, reply) else tget {} (s.tile node).rbuf (q, reply)

def setRbuf (s : State) (node q : Nat) (reply : Bool) (b : RBuf) : State :=
  if node = ioNode then s.modPkg fun p => { p with rbuf := tset p.rbuf (q, reply) b }
  else s.modTile node fun t => { t with rbuf := tset t.rbuf (q, reply) b }

/-- The input buffers of a node. -/
def rbufs (s : State) (node : Nat) : List ((Nat × Bool) × RBuf) :=
  if node = ioNode then s.pkg.rbuf else (s.tile node).rbuf

/-- The round-robin state of an output: the input served last, or the run of replies. -/
def robin (s : State) (node key : Nat) : Nat × Nat :=
  if node = ioNode then tget (portCount - 1, 0) s.pkg.rrobin key else tget (portCount - 1, 0) (s.tile node).rrobin key

def setRobin (s : State) (node key : Nat) (v : Nat × Nat) : State :=
  if node = ioNode then s.modPkg fun p => { p with rrobin := tset p.rrobin key v }
  else s.modTile node fun t => { t with rrobin := tset t.rrobin key v }

/-- A circuit owns the slot of a port of the I/O die into a bridge-row channel (R24). -/
def ioUsed (s : State) (ch : Nat) : Bool := (tfind s.pkg.ioSlots (ch, s.slotNo)).any entryV

/-- The port has a residue slot now: not slot 0, and no circuit owns it (R24). -/
def residueFree (s : State) (node port : Nat) : Bool :=
  s.slotNo != 0 && !(if node = ioNode then decide (5 ≤ port) && s.ioUsed (port - 5) else entryV ((s.tile node).entry port s.slotNo))

/-- The channel that a residue flit takes beyond this port is free too: on the bridge row no circuit owns it in this slot, and
no other residue flit has entered it (R24, R37). -/
def channelFree (s : State) (node port dst m q d : Nat) : Bool :=
  !((bridgeOut node port).any fun ch => dst != ioNode && s.ioUsed ch) &&
    !([true, false].any fun r => (s.rbufOf m q r).flits.any fun f => f.since == s.clock + d)

/-- The flit may be delivered at its node: a request needs an entry of the receive queue's share (R81). -/
def mayDeliver (s : State) (f : RFlit) : Bool :=
  match f.ev with
  | some (.messageArrival id) =>
    (match tfind s.messages id with
     | some m => m.reply || decide ((s.core m.dst).recvReq.length < 16)
     | none => true)
  | _ => true

/-- A flit in a buffer may take an output in this slot (R37, R38): its partition runs, and there is room behind
the link, or at its core. -/
def flitMay (s : State) (node port : Nat) (f : RFlit) : Bool :=
  residueOut node f.dst == port && decide (f.since ≤ s.clock) && !s.stopped f.part &&
    (if port = 4 then s.mayDeliver f
     else
      let (m, q, d) := residueNext node port f.dst
      (!s.linkOpen node m && !isAtt f) || (roomIn (s.rbufOf m q f.reply) f.part && s.channelFree node port f.dst m q d))

/-- The inputs of a network that have a flit for an output, and the flit: the first of each buffer, in arrival
order, that may go. -/
def offers (s : State) (node port : Nat) (reply : Bool) : List (Nat × RFlit) :=
  ((s.rbufs node).filter fun b => b.1.2 == reply).filterMap fun b =>
    (b.2.flits.find? fun f => s.flitMay node port f).map fun f => (b.1.1, f)

/-- The offer that round robin takes. -/
def nextOffer (last : Nat) : List (Nat × RFlit) → Option (Nat × RFlit)
  | [] => none
  | o :: l => some (l.foldl (fun b x => if inputDistance last x.1 < inputDistance last b.1 then x else b) o)

/-- Remove the first copy of a flit from a list. -/
def without (f : RFlit) : List RFlit → List RFlit
  | [] => []
  | g :: l => if g = f then l else g :: without f l

/-- The waiting of a request or reply is added to what it carries (R349). -/
def addWait (s : State) (f : RFlit) : State :=
  let n := f.wait
  if n = 0 then s else
  let fibre (x : FibreRef) : State := s.modFib x fun y => { y with delay := y.delay + n }
  match f.req, f.ev with
  | some r, _ => fibre r.who
  | none, some (.homeAccess id) => s.modAccess id fun a => { a with wait := a.wait + n }
  | none, some (.accessReply id) => s.modAccess id fun a => { a with wait := a.wait + n }
  | none, some (.fetchRefill x) =>
    { s with flight := s.flight.map fun a => if a.2.who == x && a.2.op == .fetch then (a.1, { a.2 with wait := a.2.wait + n }) else a }
  | none, some (.circuitResult x) => fibre x
  | none, some (.taskRecord id) =>
    (match tfind s.subs id with
     | some b => (match b.who with | some x => fibre x | none => s)
     | none => s)
  | none, some (.walkPacket id) =>
    (match tfind s.walkers id with | some w => fibre w.src | none => s)
  | none, some e =>
    (match (mtrqIdOf e).bind fun id => s.pkg.mtrq.find? fun r => r.id == id with
     | some r => fibre r.who
     | none => s)
  | _, _ => s

/-- A flit leaves the residue at its node; with the last flit of an SPDM request the die's controller has it (R297). -/
def deliver (s : State) (f : RFlit) : State :=
  if isAtt f then (if f.msg.isEmpty then s else s.dieHears (f.part - 64) f.msg) else
  let s := s.addWait f
  match f.req, f.ev with
  | some r, _ => s.circArrive r
  | none, some e => s.now e
  | none, none => s

/-- A flit enters the next node's buffer, or merges into one that is there (R37, R39). -/
def enter (s : State) (m q d : Nat) (f : RFlit) : State :=
  let b := s.rbufOf m q f.reply
  (s.mergeFlit b f).getD (s.setRbuf m q f.reply { b with flits := b.flits ++ [{ f with since := s.clock + d }] })

/-- Send the chosen flit (R37). Over a link of a die that is not OPEN it is dropped and counted (R297), at the tile of the link's
end on a compute die. The die spends a flit's tokens (R359). -/
def sendFlit (s : State) (node port q : Nat) (f : RFlit) : State :=
  let b := s.rbufOf node q f.reply
  let s := s.setRbuf node q f.reply { b with flits := without f b.flits }
  let s := if q = 4 then (if node = ioNode then s.letInIo else s.letIn node) else s
  let f := { f with wait := f.wait + (s.clock - f.since) }
  let s := if node = ioNode then s else s.spend (tileDie node) 4
  if port = 4 then s.deliver f
  else
    let (m, p, d) := residueNext node port f.dst
    if s.linkOpen node m || isAtt f then s.enter m p d f
    else (s.dropAt (if node = ioNode then m else node)).loseFlit f

end State

/-- RESIDUE_SLOT (R37): replies in preference, but after 8 slots of them while a request waits, a request;
within a network round robin over the inputs. A request waits here while it could be sent: in a slot in which no request can, for want of
room behind the link, the run begins again (DESIGN CHOICE, log 107). -/
def execResidueSlot (node port : Nat) (s : State) : Out :=
  if !s.residueFree node port then .next s
  else
    let reqs := s.offers node port false
    let reps := s.offers node port true
    let run := (s.robin node (2 * port + 1)).2
    let useReply := !reps.isEmpty && (reqs.isEmpty || decide (run < 8))
    let key := 2 * port + b2n useReply
    match State.nextOffer (s.robin node key).1 (if useReply then reps else reqs) with
    | none => .next s
    | some (q, f) =>
      let s := s.setRobin node key (q, (s.robin node key).2)
      let s := s.setRobin node (2 * port + 1)
        ((s.robin node (2 * port + 1)).1, if useReply && !reqs.isEmpty then run + 1 else 0)
      .next (s.sendFlit node port q f)

end Sys2Proof.Machine
end

