-- ==== Sys2Proof/Machine/EvSwitch.lean ====
section
/-! DEFINITION. Gang switching (10 R268 to R279; 03 R73, R85, R91; 09 R250; 08 R238; 20 R500; 13 R330): the stop and the
resume of a partition. Whatever is in flight is held where it stands, with its time, and goes on Δ wheels later. -/

namespace Sys2Proof.Machine

namespace State

/-- The partition whose work an event is, when a stop of it holds the event (R274). -/
def eventPart (s : State) (e : Instr) : Option Nat :=
  let fibre (f : FibreRef) : Option Nat := some (s.partOf f.core)
  let acc (id : Nat) : Option Nat := (s.access id).map (·.part)
  let msg (id : Nat) : Option Nat := (tfind s.messages id).map (·.srcPart)
  let walker (id : Nat) : Option Nat := (tfind s.walkers id).map (·.part)
  let req (id : Nat) : Option Nat :=
    (s.pkg.mtrq.find? fun r => r.id == id && r.answer.isSome).map (·.part)
  match e with
  | .busyExpiry f => fibre f
  | .exitComplete f => fibre f
  | .walkDeparture f => fibre f
  | .fetchRefill f => fibre f
  | .circuitResult f => fibre f
  | .homeAccess id => acc id
  | .accessReply id => acc id
  | .accessAck id => acc id
  | .messageArrival id => msg id
  | .nack id => msg id
  | .emptyReply id => msg id
  | .handlerStart c _ => some (s.partOf c)
  | .leaseRelease c => some (s.partOf c)
  | .walkPacket id => walker id
  | .walkAck id => walker id
  | .walkFail id _ => walker id
  | .walkTimeout id => walker id
  | .taskRecord id => ((tfind s.subs id).filter fun b => b.answer.isSome).map (·.part)
  | .twaitQuery id => ((tfind s.queries id).filter fun q => q.answer.isSome).map (·.part)
  | .taskDispatch d ix => (tfind (s.die d).tasks ix).map (·.part)
  | .taskCompletion d ix => (tfind (s.die d).tasks ix).map (·.part)
  | .completionPost p => some p
  | .pageWalk gw id => ((s.die gw).gw.walks.find? fun w => w.id == id).map (·.part)
  | .moveCompletion id => (s.move id).map (·.part)
  | .barrierComplete p _ _ _ => some p
  | .barrierTear p _ _ _ => some p
  | .burstStart p _ => some p
  | .seal id => req id
  | .unseal id => req id
  | .meterOpen id => req id
  | .meterGrant id => req id
  | .meterSign id => req id
  | .meterClose id => req id
  | .meterHandover id => req id
  | .meterRelease id => req id
  | .meterQuery id => req id
  | _ => none

/-- The events of a partition that are due or will be, and the others. -/
def splitEvents (s : State) (p : Nat) : List (Nat × Instr) × List (Nat × Instr) :=
  s.agenda.partition fun x => s.eventPart x.2 == some p

/-- The fibres of a partition. -/
def fibresOf (s : State) (p : Nat) : List (FibreRef × Fibre) :=
  s.fibres.filter fun f => f.2.status != .free && s.partOf f.1.core == p && decide (p < 48)

/-- The compute cores of a partition's tiles. -/
def coresOfPart (s : State) (p : Nat) : List CoreId := coresOf (s.tilesOf p) 7

/-- The gangs of a partition's tiles. -/
def gangsOf (s : State) (p : Nat) : List Nat := ((s.tilesOf p).map tileGang).eraseDups

/-! ## The stop (R250, R272 to R274) -/

/-- A completion of the stop cycle takes effect before the stop (R250). -/
def finishBarriers (s : State) (p : Nat) : State :=
  let due := s.agenda.filter fun x => decide (x.1 ≤ s.clock) &&
    (match x.2 with | .barrierComplete q _ _ _ => q == p | _ => false)
  let s := { s with agenda := s.agenda.filter fun x => !due.contains x }
  due.foldl (fun s x => match x.2 with
    | .barrierComplete q n v k => (s.barRequired q v k.toNat).foldl (fun s c => s.barComplete n c) s
    | _ => s) s

/-- The waiters of every barrier of a partition are released with status 3 (R250). -/
def stopWaiters (s : State) (p : Nat) : State :=
  (s.fibresOf p).foldl (fun s f => match f.2.cont with
    | .bar d tok _ => (s.setGOf f.1 d (word (3 * 2 ^ 16 + tok))).complete f.1
    | _ => s) s

/-- What is poisoned in the v, a and m registers of a partition's cores is saved as poison of the lease holder's (R279). -/
def stopRegs (s : State) (p : Nat) : State :=
  (s.coresOfPart p).foldl (fun s c =>
    if !(s.core c).regUe.isEmpty then
      let s := s.modCore c fun x => { x with regUe := [] }
      match (s.core c).lease with
      | some n => s.modFib ⟨c, n⟩ fun x => { x with pendUe := true }
      | none => s
    else s) s

/-- Every fibre of a partition stops; its fetch buffer is discarded, and an error in its registers is saved as poison
(R67, R274, R279). Until the resume its `readyFrom` says how many cycles after it the fibre is eligible. -/
def stopFibres (s : State) (p : Nat) : State :=
  (s.fibresOf p).foldl (fun s f => s.modFib f.1 fun x => { x with
    stopped := true, fbuf := none, ueSaved := x.ueSaved || x.pendUe, readyFrom := x.readyFrom - s.clock }) s

/-- A block write on its way: a write of one unit of more than a line (R223, R238). -/
def blockWrite (s : State) (id : Nat) : Bool :=
  match s.access id with
  | some a => decide (64 < a.size) && (match a.op with | .moveWrite _ _ _ => true | .laneWrite _ _ => true | _ => false)
  | none => false

/-- The block writes among held events whose bytes have partly reached their home, which is a free choice, are staged (R238,
log 5). -/
def stageWrites (s : State) (p : Nat) : State :=
  (s.part p).heldEv.foldl (fun s x =>
    match x.2 with
    | .homeAccess id =>
      if s.blockWrite id then
        let t := { s with fresh := s.fresh + 1 }
        if Config.partlyThere s.fresh then
          t.modPart p fun y => { y with staged := y.staged ++ [id], heldEv := y.heldEv.filter fun e => e.2 != .homeAccess id }
        else t
      else s
    | _ => s) s

/-- Where a staged block write lands: its physical address. -/
def stagedPa (s : State) (a : Access) (h : Home) : Option Nat :=
  match h, a.pa, a.op with
  | .mem pa, _, _ => some pa
  | _, some pa, _ => some pa
  | _, _, .moveWrite mv _ _ => (s.move mv).bind fun m => (s.movePiece m a.space a.va).map fun r => r.1
  | _, _, _ => none

/-- The staged block writes are applied, each in one cycle, before any fibre of the partition issues (R238, R275). -/
def applyStagedWrites (s : State) (p : Nat) : State :=
  let ids := (s.part p).staged
  ids.foldl (fun s id =>
    match s.access id with
    | none => s
    | some a =>
      if a.stage = .performed then s else
      match s.accHome a with
      | none => s.now (.homeAccess id)
      | some h => match s.stagedPa a h with
        | some pa => s.performAt id a h pa
        | none => s.now (.homeAccess id)) (s.modPart p fun x => { x with staged := [] })

/-- The circuit flits of a partition on their way are captured with their phase (R272, R273): places from 4,096 on are the elastic
buffers of the package links, from 8,192 on the flits that cross the I/O die to one, with their position. -/
def captureFlits (s : State) (p : Nat) : State :=
  let base := s.wheel * 1024
  let mine := s.pkg.wires.filter fun w => w.2.2.2.part == p
  let goes (x : Nat × Nat × CFlit) : Bool := x.2.2.part == p && decide (s.clock < x.1)
  let links := s.pkg.plinks.flatMap fun l : Nat × PLink =>
    ((l.2.elastic.filter fun x => x.2.part == p).map fun x => (4096 + l.1, 0, x.1 - base, x.2))
      ++ (l.2.tx.filter goes).map fun x => (8192 + l.1, x.2.1, x.1 - base, x.2.2)
  let s := s.modPkg fun k => { k with
    wires := k.wires.filter fun w => w.2.2.2.part != p
    plinks := k.plinks.map fun l : Nat × PLink => (l.1, { l.2 with elastic := l.2.elastic.filter (fun x => x.2.part != p),
                                                                        tx := l.2.tx.filter fun x => !goes x }) }
  s.modPart p fun x => { x with captured := mine.map (fun w => (w.1, w.2.1, w.2.2.1 - base, w.2.2.2)) ++ links }

/-- The nodes whose residue buffers hold flits. -/
def bufferNodes (s : State) : List Nat := ioNode :: s.tiles.map fun t => t.1

/-- The residue flits of a partition leave the input buffers for the save buffers (R272). -/
def saveResidue (s : State) (p : Nat) : State :=
  s.bufferNodes.foldl (fun s node =>
    (s.rbufs node).foldl (fun s b =>
      let mine := b.2.flits.filter fun f => f.part == p
      if mine.isEmpty then s
      else
        let s := s.setRbuf node b.1.1 b.1.2 { flits := b.2.flits.filter fun f => f.part != p }
        s.modPart p fun x => { x with saved := x.saved ++ mine.map fun f => ((node, b.1.1, b.1.2), f) }) s) s

/-! ## Context areas (R276 to R279) -/

/-- The byte of a fibre's FST word that stands at an offset of a part of a die's context, if one does: a fibre's record of 192 bytes
begins with the word (R66, R276; the place in the record is a DESIGN CHOICE, log 98). -/
def fstByte (s : State) (die unit off : Nat) : Option Byte :=
  let at' := (off - 1024) % 192
  if unit = 2 ^ 10 - 1 ∨ off < 1024 ∨ 1024 + 192 * 256 ≤ off ∨ 8 ≤ at' then none
  else some (lget 0 (leBytes 8 (fstWord (s.fib ⟨coreOf (tileNo die (unit / 4)) (unit % 4), (off - 1024) / 192⟩)).toNat) at')

/-- Some bytes of a saved context from an offset of a part on: opaque (R277) but for the FST words. -/
def contextBytes' (die unit : Nat) : Nat → Nat → State → List Byte × State
  | 0, _, s => ([], s)
  | n + 1, off, s =>
    let r := contextBytes' die unit n (off + 1) { s with fresh := s.fresh + 1 }
    ((s.fstByte die unit off).getD (Config.contextByte s.fresh) :: r.1, r.2)

/-- The parts of the save on a die: the fields `[52:43]` of EINFO, the offset in the area, the size (R276, R277). -/
def saveUnits (s : State) (p die : Nat) : List (Nat × Nat × Nat) :=
  let tab := (s.part p).tab.filter fun t : Nat × Nat => tileDie t.2 == die
  let tiles := (sorted (tab.map fun t : Nat × Nat => t.1)).filterMap (tfind tab)
  (2 ^ 10 - 1, 0, 65536) :: (List.range tiles.length).flatMap fun i =>
    let t := tileInDie (lget 0 tiles i)
    let at' := 65536 + 319488 * i
    [(4 * t, at', 98304), (4 * t + 1, at' + 98304, 98304), (4 * t + 2, at' + 196608, 122880)]

/-- A page of a context area that the save may write: its physical address (R277, R278). -/
def areaPa (s : State) (p die va : Nat) : Option Nat :=
  match (match s.cached die p 4 va with | some x => some x | none => s.walk die p 4 va) with
  | some x => if x.pw then some (xlatPa die 4 x va) else none
  | none => none

/-- The offset in a page of the first line in which an uncorrectable error stands (R278). -/
def pageUe (s : State) (pa n : Nat) : Option Nat :=
  let l := s.errors.filterMap fun e => if pa ≤ e ∧ e < pa + n then some (e - pa) else none
  match l with
  | [] => none
  | e :: es => some (es.foldl min e)

/-- Write one page of a part of a context; where it faults or meets an uncorrectable error, the offset, and whether it is an error
(R278). -/
def savePage (s : State) (p die va unit off : Nat) : Option (Nat × Bool) × State :=
  match s.areaPa p die (va + off) with
  | none => (some (off, false), s)
  | some pa =>
    let ue := s.pageUe pa 4096
    let (bs, t) := contextBytes' die unit (ue.getD 4096) off s
    (ue.map fun o => (off + o, true), t.writeBytes pa bs)

/-- H receives SAVE_FAULT as a new fibre on the management core, as soon as a slot is free (R278). -/
def saveFault (s : State) (p die unit off : Nat) (lost ue : Bool) : State :=
  let info := b2n lost * 2 ^ 63 + b2n ue * 2 ^ 62 + p * 2 ^ 56 + die * 2 ^ 53 + unit * 2 ^ 43 + off
  (s.modPkg fun k => { k with saveFaults := k.saveFaults ++ [word info] }).nextSaveFault

/-- The pieces of 4 KiB in a die's reserve, and where each lies in the die store (R123, R278). -/
def reservePieces : Nat := 48 * 256
def reservePa (die i : Nat) : Nat := paOf 3 die (80 * 2 ^ 20 + 4096 * i)

/-- The first piece of the reserve, from one on, that is not in use. -/
def freePiece (used : List Nat) : Nat → Nat → Option Nat
  | 0, _ => none
  | n + 1, i => if used.contains i then freePiece used n (i + 1) else some i

/-- Write pieces into the reserve of a die; false when it is exhausted or a piece fails (R278, R279). -/
def spillPieces (p die unit : Nat) : Nat → Nat → State → Bool × State
  | 0, _, s => (true, s)
  | n + 1, off, s =>
    match freePiece (s.die die).reserve reservePieces 0 with
    | none => (false, s)
    | some i =>
      if (s.pageUe (reservePa die i) 4096).isSome then (false, s)
      else
        let (bs, t) := contextBytes' die unit 4096 off s
        let t := (t.writeBytes (reservePa die i) bs).modDie die fun d => { d with reserve := setIn d.reserve i }
        spillPieces p die unit n (off + 4096) (t.modPart p fun x => { x with spilled := x.spilled ++ [(die, i)] })

/-- Where a part of a partition's context on a die lies in the area (R277). -/
def partVa (s : State) (p die : Nat) (u : Nat × Nat × Nat) : Nat := field (tget 0 (s.die die).ctxbase p) 52 12 * 4096 + u.2.1

/-- What follows the first fault of a part goes into the reserve, or the partition is lost (R278, R279). -/
def spillRest (s : State) (p die : Nat) (u : Nat × Nat × Nat) (off : Nat) (ue : Bool) : State :=
  let (ok, s) := spillPieces p die u.1 (ceilDiv (u.2.2 - off) 4096) off s
  let s := s.saveFault p die u.1 off (!ok) ue
  if ok then s else s.schedOnce s.clock (.partitionLost p)

/-- The units that the next page of a part takes: a line each, and the page-table reads of its walk (R162). -/
def pageUnits (s : State) (p die va : Nat) : Nat :=
  (if (s.cached die p 4 va).isSome then 0 else (s.walkCost die p 4 va).2) + (if (s.areaPa p die va).isSome then 64 else 0)

/-- The writing of a context goes on, page by page, as far as it has been given units for (R162, R277, R278). -/
def writeContext (die : Nat) : Nat → Save → State → Save × State
  | 0, x, s => (x, s)
  | fuel + 1, x, s =>
    match x.units with
    | [] => (x, s)
    | u :: l =>
      let va := s.partVa x.part die u
      let need := s.pageUnits x.part die (va + x.off)
      if x.paid < need then (x, s) else
      let x := { x with paid := x.paid - need }
      match s.savePage x.part die va u.1 x.off with
      | (some (off, ue), s) => writeContext die fuel { x with units := l, off := 0 } (s.spillRest x.part die u off ue)
      | (none, s) =>
        writeContext die fuel (if u.2.2 ≤ x.off + 4096 then { x with units := l, off := 0 } else { x with off := x.off + 4096 }) s

/-- The first context that a die writes goes on if it is this partition's; written, it leaves the gateway. -/
def stepSave (p : Nat) (s : State) (die : Nat) : State :=
  match (s.die die).gw.saves with
  | [] => s
  | x :: l =>
    if x.part ≠ p then s else
    let (x, s) := writeContext die (x.paid / 64 + x.units.length + 1) x s
    s.modGw die fun g => { g with saves := if x.units.isEmpty then l else x :: l }

/-- The dies begin to write the contexts of a partition, from slot 32 of W on (R272). -/
def beginSaves (s : State) (p : Nat) : State :=
  ((s.diesOf p).foldl (fun s d => s.modGw d fun g => { g with saves := g.saves ++ [{ part := p, units := s.saveUnits p d }] }) s).schedOnce
    s.clock (.saveComplete p)

/-- No die writes a context of a partition any more. -/
def dropSaves (s : State) (p : Nat) : State :=
  (List.range 6).foldl (fun s d =>
    if (s.die d).gw.saves.isEmpty then s else s.modGw d fun g => { g with saves := g.saves.filter fun x => x.part != p }) s

/-- Some die has a context of a partition to write. -/
def savesLeft (s : State) (p : Nat) : Bool := s.dies.any fun d => d.2.gw.saves.any fun x => x.part == p

/-- The partition gives its pieces of the reserve back. -/
def freeReserve (s : State) (p : Nat) : State :=
  let s := (s.part p).spilled.foldl (fun s x => s.modDie x.1 fun d => { d with reserve := setOut d.reserve x.2 }) s
  s.modPart p fun x => { x with spilled := [] }

/-! ## The resume (R275) -/

/-- Every bit of a fibre's latch is set; a parked WFE returns (R500). -/
def latchAll (clock : Nat) (f : Fibre) : Fibre :=
  match f.cont with
  | .wfe d sel =>
    { f with latch := 127 - sel % 128, g := lset f.g d.toNat (word (sel % 128)), pc := f.pc + 4,
             status := .ready, park := 0, cont := .none, readyFrom := clock + 1 }
  | _ => { f with latch := 127 }

/-- The fibres of a partition go on in the saved state, as far from eligible as they were (R67, R500); one that something else has made
READY meanwhile, in the cycle after. -/
def resumeFibres (s : State) (p : Nat) : State :=
  (s.fibresOf p).foldl (fun s f =>
    s.modFib f.1 fun x => latchAll s.clock { x with stopped := false, readyFrom := s.clock + (if x.readyFrom < 1024 then x.readyFrom else 1) }) s

/-- The times that a core holds move on (R274, R275). -/
def shiftCore (stop shift : Nat) (c : Core) : Core :=
  let later (t : Nat) : Nat := if stop ≤ t then t + shift else t
  { c with
    streams := c.streams.map fun x : Nat × Stream => (x.1, { x.2 with seen := x.2.seen.map later })
    running := c.running.map fun d => { d with startAt := later d.startAt, doneAt := later d.doneAt }
    sfuFree := later c.sfuFree, memFree := later c.memFree }

/-- A joined operation after the resume: one that had not begun to compute has lost its operands (R274), and reads again what it
had read before any stop (R330). -/
def shiftMma (stop shift : Nat) (m : Mma) : Mma :=
  let periods := if m.sa = 2 then 2 else 1
  if m.var = 3 ∨ (m.toFetch = 0 ∧ m.startAt < stop) then
    { m with startAt := m.startAt + shift, freeAt := m.freeAt + shift, writeAt := m.writeAt + shift }
  else { m with toFetch := periods, blocks := [], buffer := false, replay := min periods (m.replay + (periods - m.toFetch)),
                kept := if m.var = 2 ∧ m.toFetch = 0 then m.blocks.drop 4 else m.kept }

/-- A gang after the resume. -/
def shiftGang (stop shift : Nat) (g : Gang) : Gang :=
  let mmas := g.mmas.map (shiftMma stop shift)
  { g with mmas, arrayFree := mmas.foldl (fun t m => if m.toFetch = 0 ∧ m.var ≠ 3 then max t m.freeAt else t) 0 }

/-- The wheel values that a circuit holds are Δ greater (R275). -/
def shiftCircuit (wheels : Nat) (c : Circuit) : Circuit :=
  { c with wc := c.wc + wheels, start := if c.start = 0 then 0 else c.start + wheels,
           armed := c.armed.map fun a => (a.1 + wheels, a.2), burst := c.burst.map fun b => (b.1 + 1024 * wheels, b.2) }

/-- The captured flits leave in their phase slots (R275). -/
def releaseFlits (s : State) (p : Nat) : State :=
  let base := s.wheel * 1024
  let caps := (s.part p).captured
  let s := s.modPart p fun x => { x with captured := [] }
  caps.foldl (fun s x =>
    if 8192 ≤ x.1 then s.modPlink (x.1 - 8192) fun l => { l with tx := l.tx ++ [(base + x.2.2.1, x.2.1, x.2.2.2)] }
    else if 4096 ≤ x.1 then s.modPlink (x.1 - 4096) fun l => { l with elastic := l.elastic ++ [(base + x.2.2.1, x.2.2.2)] }
    else s.modPkg fun k => { k with wires := k.wires ++ [(x.1, x.2.1, base + x.2.2.1, x.2.2.2)] }) s

/-- The saved residue flits return to their input buffers, ahead of new ones (R275). -/
def returnResidue (s : State) (p shift : Nat) : State :=
  let l := (s.part p).saved
  let s := s.modPart p fun x => { x with saved := [] }
  let keys := (l.map fun x : (Nat × Nat × Bool) × RFlit => x.1).eraseDups
  keys.foldl (fun s k =>
    let back := ((l.filter fun x => x.1 == k).map fun x => { x.2 with since := x.2.since + shift })
    let b := s.rbufOf k.1 k.2.1 k.2.2
    s.setRbuf k.1 k.2.1 k.2.2 { flits := back ++ b.flits }) s

/-- The times of a partition's accesses, walks and requests, by which their waiting is counted, move on: a stop adds nothing
(R349). -/
def shiftFlight (s : State) (p shift : Nat) : State :=
  { s with
    flight := s.flight.map fun a => if a.2.part = p then (a.1, { a.2 with due := a.2.due + shift }) else a
    walkers := s.walkers.map fun w => if w.2.part = p then (w.1, { w.2 with arrived := w.2.arrived.map (· + shift) }) else w
    pkg := { s.pkg with
      ic := { s.pkg.ic with queue := s.pkg.ic.queue.map fun r => if r.part = p then { r with since := r.since + shift } else r }
      mtrq := s.pkg.mtrq.map fun r => if r.part = p then { r with since := r.since + shift } else r } }

/-- What was due and held is due again, Δ later (R275). -/
def returnEvents (s : State) (p shift : Nat) : State :=
  let l := (s.part p).heldEv
  { s.modPart p (fun x => { x with heldEv := [] }) with agenda := s.agenda ++ l.map fun x => (x.1 + shift, x.2) }

/-- A command of GSCMD that the table of R271 does not list leaves CODE STATE. -/
def gsCode (s : State) (p code : Nat) : State := s.modPart p fun x => { x with gsCode := code }

/-- The state of a partition changes (R270). -/
def gsState (s : State) (p st : Nat) : State := s.modPart p fun x => { x with gs := st, gsCode := 0, gsWheel := s.wheel }

/-- An event that precedes everything else of its time (R260, R272). -/
def schedFirst (s : State) (t : Nat) (e : Instr) : State := { s with agenda := (t, e) :: s.agenda }

/-- The tasks of a partition are discarded without completion entries: their entries are free, and what waits
for them finds them GONE (R109, R279, R292). -/
def discardTasks (s : State) (p : Nat) : State :=
  let s := s.modVf p fun v => { v with held := [], posting := none, postUnit := none }
  (List.range 6).foldl (fun s die =>
    let gone := (s.die die).tasks.filter fun t : Nat × Task => t.2.part == p && t.2.state != .done
    if gone.isEmpty then s
    else
      let s := s.modDie die fun d => { d with
        tasks := d.tasks.filter fun t : Nat × Task => !(t.2.part == p && t.2.state != .done)
        freed := d.freed ++ gone.map fun t => t.1 }
      let asked := s.queries.filter fun q : Nat × Query => q.2.here && q.2.die == die && gone.any fun t => t.1 == q.2.ix
      (asked.foldl (fun s q => s.schedOnce s.clock (.twaitQuery q.1)) s).placeBy die (s.clock + 1)) s

/-- The tile stores, cluster slices and granules of a partition are zero (R279, R292). -/
def wipePart (s : State) (p : Nat) : State :=
  let s := (s.tilesOf p).foldl (fun s n => (s.wipe (paOf 1 n 0) (2 ^ 20)).wipe (paOf 2 n 0) (2 ^ 20)) s
  (List.range 6).foldl (fun s d =>
    ((s.die d).granules.filter fun g : Nat × Nat => g.2 == p).foldl (fun s g => s.wipe (paOf 3 d (g.1 * 2 ^ 20)) (2 ^ 20)) s) s

end State

/-- GANG_STOP (R270, R271). -/
def execGangStop (v : BitVec 64) (s : State) : Out :=
  let p := field v 61 56
  let w := field v 47 0
  if 48 ≤ p ∨ field v 55 48 ≠ 0 then .next s
  else if (s.part p).gs ≠ 0 then .next (s.gsCode p 2)
  else if w < s.wheel + 4 then .next (s.gsCode p 1)
  else if !(s.diesOf p).all fun d => bitN (tget 0 (s.die d).ctxbase p).toNat 63 then .next (s.gsCode p 3)
  else .next (((s.gsState p 1).modPart p fun x => { x with stopW := w }).schedFirst (w * 1024) (.stopSequence p))

/-- GANG_RESUME (R270, R271): every context is read. -/
def execGangResume (v : BitVec 64) (s : State) : Out :=
  let p := field v 61 56
  let w := field v 47 0
  if 48 ≤ p ∨ field v 55 48 ≠ 0 then .next s
  else if (s.part p).gs ≠ 3 then .next (s.gsCode p 2)
  else if w < s.wheel + 4 then .next (s.gsCode p 1)
  else .next (((s.gsState p 4).modPart p fun x => { x with resumeW := w }).later (.restoreComplete p))

/-- STOP_SEQUENCE (R272 to R274): slot 0 of W, then slot 16, at which the residue flits reach the save buffers, and slot 32, from which on the
contexts are written. -/
def execStopSequence (p : Nat) (s : State) : Out :=
  if (s.part p).gs = 1 then
    let s := ((s.finishBarriers p).gsState p 2)
    let (mine, rest) := s.splitEvents p
    let s := ({ s with agenda := rest }.modPart p fun x => { x with heldEv := mine }).stageWrites p
    .next (((((s.stopWaiters p).stopRegs p).stopFibres p).captureFlits p).schedFirst (s.clock + 16) (.stopSequence p))
  else if (s.part p).gs ≠ 2 then .next s
  else if s.clock < (s.part p).stopW * 1024 + 32 then .next ((s.saveResidue p).schedFirst (s.clock + 16) (.stopSequence p))
  else .next (s.beginSaves p)

/-- SAVE_COMPLETE (R162, R271, R278, R279): the writing of the contexts goes on with the units that the gateways have given it; when
every context is written, in the areas or the reserve, the partition is STOPPED. -/
def execSaveComplete (p : Nat) (s : State) : Out :=
  if (s.part p).gs ≠ 2 then .next s
  else
    let s := (s.diesOf p).foldl (State.stepSave p) s
    .next (if s.isDue (.partitionLost p) then s.dropSaves p
      else if s.savesLeft p then s
      else (s.gsState p 3).warmCheck)

/-- PARTITION_LOST (R279). -/
def execPartitionLost (p : Nat) (s : State) : Out :=
  let s := (s.gsState p 6).loseCircuits fun c => c.part == p
  let s := (((s.discardTasks p).wipePart p).freeReserve p).dropSaves p
  .next ((List.range 6).foldl (fun s d => s.atBoundary p d) s).warmCheck

/-- The guest banks of a tile as a restore leaves them: none seized, and UNSUP where this device lacks the EVID (R347). -/
def restoreBanks (t : Tile) : Tile :=
  let t := seizeBanks 0 t
  { t with banks := t.banks.map fun b => if b.1 < 4 then (b.1, restoreBank b.2) else b }

/-- RESTORE_COMPLETE (R271): W'' is fixed. The guest banks are as the contexts hold them (R347). -/
def execRestoreComplete (p : Nat) (s : State) : Out :=
  if (s.part p).gs ≠ 4 then .next s
  else
    let s := (s.tilesOf p).foldl (fun s n => s.modTile n restoreBanks) s
    let w := max (s.part p).resumeW (s.wheel + 1)
    .next ((((s.freeReserve p).gsState p 5).modPart p fun x => { x with resumeW := w }).schedFirst (w * 1024) (.resumeSequence p)).warmCheck

/-- RESUME_SEQUENCE (R275): the staged block writes first. What waits for a dispatched instruction is tested again, since one may have been
discarded meanwhile (R227 to R230, R524). -/
def execResumeSequence (p : Nat) (s : State) : Out :=
  if (s.part p).gs ≠ 5 then .next s
  else
    let stop := (s.part p).stopW * 1024
    let wheels := s.wheel - (s.part p).stopW
    let shift := wheels * 1024
    let cores := s.coresOfPart p
    let s := ((((s.gsState p 0).applyStagedWrites p).returnEvents p shift).returnResidue p shift).shiftFlight p shift
    let s := cores.foldl (fun s c => s.modCore c (State.shiftCore stop shift)) s
    let s := (s.gangsOf p).foldl (fun s n => s.modGang n (State.shiftGang stop shift)) s
    let s := s.modPkg fun k => { k with circuits := k.circuits.map fun c => if c.part = p then State.shiftCircuit wheels c else c }
    let s := ((s.releaseFlits p).resumeFibres p).schedOnce s.clock (.completionPost p)
    let s := cores.foldl (fun s c => (s.visibleCore c).schedOnce s.clock (.dispatchRetire c)) s
    let s := (s.tilesOf p).foldl (fun s n => s.letIn n) s
    .next ((s.diesOf p).foldl (fun s d => s.placeBy d s.clock) s.letInIo)

end Sys2Proof.Machine
end

