-- ==== Sys2Proof/Machine/EvReset.lean ====
section
/-! DEFINITION. The reset of a compute die as the agents that survive it see it, and errors (10 R268, R269, R280; 08 R237,
R238; 04 R111; 09 R249; 02 R54; 12 R298, R299, R320). -/

namespace Sys2Proof.Machine

/-- The links of a compute die (R315): its die-edge links and its bridge-row channels. -/
def linksOf (d : Nat) : List Nat :=
  let edge (e : Nat) : List Nat := (List.range 16).map fun i => 16 * e + i
  let row := 2 * (d / 3)
  (if d % 3 < 2 then edge (row + d % 3) else []) ++ (if 0 < d % 3 then edge (row + d % 3 - 1) else [])
    ++ (List.range 16).map fun i => 64 + 16 * (d % 3) + i + 256 * b2n (decide (3 ≤ d))

/-- The dies at the two ends of a link: west and east of a die edge, or a compute die and the I/O die (R315); for a package
link the I/O die. -/
def linkEnds (l : Nat) : Nat × Nat :=
  if l < 64 then (let e := l / 16; (3 * (e / 2) + e % 2, 3 * (e / 2) + e % 2 + 1))
  else if 112 ≤ l % 256 then (6, 6)
  else (l % 256 / 16 - 4 + 3 * (l / 256), 6)

/-- The end of a link that a die is not. -/
def otherEnd (l d : Nat) : Nat := if (linkEnds l).1 = d then (linkEnds l).2 else (linkEnds l).1

/-- The access that an event is about. -/
def eventAccess : Instr → Option Nat
  | .homeAccess id => some id
  | .accessReply id => some id
  | .accessAck id => some id
  | _ => none

namespace State

/-! ## What lies where -/

/-- The node lies on a die. -/
def nodeOn (d n : Nat) : Bool := n != ioNode && tileDie n == d

/-- The residue flits in the buffers of some nodes, and those that wait to enter (R37, R38). -/
def flitsAt (s : State) (sel : Nat → Bool) : List RFlit :=
  (s.tiles.filter fun t => sel t.1).flatMap (fun t : Nat × Tile => (t.2.rbuf.flatMap fun b => b.2.flits) ++ t.2.rwait)
    ++ (if sel ioNode then (s.pkg.rbuf.flatMap fun b => b.2.flits) ++ s.pkg.rwait else [])
    ++ s.parts.flatMap fun p => ((p.2.saved.filter fun x => sel x.1.1).map fun x => x.2)

/-- The flit carries an access. -/
def flitHas (id : Nat) (a : Access) (f : RFlit) : Bool :=
  match f.ev with
  | some (.fetchRefill x) => x == a.who && a.op == .fetch
  | some e => eventAccess e == some id
  | none => false

/-- An event that ends with a die: it is about a fibre, a core, a tile or a gang there (R280). -/
def eventOn (d : Nat) (e : Instr) : Bool :=
  match e with
  | .busyExpiry f => f.core.die == d
  | .exitComplete f => f.core.die == d
  | .impreciseDelivery f => f.core.die == d
  | .walkDeparture f => f.core.die == d
  | .fetchRefill f => f.core.die == d
  | .leaseRelease c => c.die == d
  | .handlerStart c _ => c.die == d
  | .dispatchStart c => c.die == d
  | .dispatchRetire c => c.die == d
  | .gangJoin g => g / 64 == d
  | .mmaSlotWrite g => g / 64 == d
  | .operandPeriod c => c / 16 == d
  | .configForward x y => tileDie (48 * y + x) == d
  | .pageWalk gw _ => gw == d
  | .invalidationDone gw => gw == d
  | .traceTakeover x _ => x == d
  | .issueGate x => x == d
  | .taskDispatch x _ => x == d
  | .meterSumDelivery x _ => x == d
  | .attestationTimeout x => x == d
  | .attestationRetry x => x == d
  | .setLinkKey x l _ _ _ => x == d || (linksOf d).contains l
  | .linkOpen x _ => x == d
  | .closeLink x _ => x == d
  | .dieOpen x => x == d
  | .autoRollover l => (linksOf d).contains l
  | .keySwitch l => (linksOf d).contains l
  | .keyErase l => (linksOf d).contains l
  | _ => false

/-! ## Barriers (R249) -/

/-- A scope of a partition touches a die. -/
def scopeOn (s : State) (p d : Nat) (v : Word) : Bool := (s.scopeTiles p v).any fun n => tileDie n == d

/-- Barriers whose scopes touch a die are torn at their members, those of stopped partitions too; a completion of this cycle stands
(R249). -/
def tearBarriers (s : State) (d : Nat) : State :=
  let s := (List.range 48).foldl finishBarriers s
  let keep (x : Nat × Instr) : Bool := match x.2 with
    | .barrierComplete p _ v _ => !s.scopeOn p d v
    | .barrierTear p _ v _ => !s.scopeOn p d v
    | _ => true
  let s := { s with
    agenda := s.agenda.filter keep
    parts := s.parts.map fun p : Nat × Part => (p.1, { p.2 with heldEv := p.2.heldEv.filter keep }) }
  s.cores.foldl (fun t c => c.2.bars.foldl (fun t b =>
    let gone (v : Word) : Bool := s.scopeOn (s.partOf c.1) d v
    if c.1.die = d then t else
    let t := if (s.barMember c.1 b.1 ∧ gone b.2.scope) ∨ b.2.torn.any (fun x => gone x.1) then t.barTear b.1 c.1 else t
    t.setBar c.1 b.1 { t.bar c.1 b.1 with torn := b.2.torn.filter fun x => !gone x.1 }) t) s

/-! ## Accesses, moves and messages -/

/-- An access as the reset of a die leaves it (R237, R280). One that stands at a surviving home while the home's acceptance is lost is
performed there. -/
def accessReset (d : Nat) (s : State) (x : Nat × Access) : State :=
  match s.access x.1 with
  | none => s
  | some a =>
    let out := (s.flitsAt fun n => !nodeOn d n).any (flitHas x.1 a)
    let inside := (s.flitsAt (nodeOn d)).any (flitHas x.1 a)
    let home := match s.accHome a with | some h => homeDie h == d | none => false
    let stands := !home && a.stage != .performed && !(s.flitsAt (nodeOn d)).any fun f => f.ev == some (.homeAccess x.1)
    let gone := (inside && !stands) || (home && (a.stage != .performed || !out))
    if inside ∧ stands ∧ a.who.core.die ≠ d then s.loseReply x.1
    else if a.who.core.die = d then
      if gone then (s.leaveGateways x.1).dropAccess x.1
      else s.standAlone x.1 a
    else if gone then s.loseAccess x.1 else s

/-- The moves of a die's fibres end; one whose write of a unit has left the die stays until that write is done (R237). -/
def movesReset (s : State) (d : Nat) : State :=
  let out (id : Nat) : Bool := s.flight.any fun a => match a.2.op with | .moveWrite n _ _ => n == id | _ => false
  { s with moves := s.moves.filterMap fun m : Nat × Move =>
      if m.2.who.core.die ≠ d then some m
      else if out m.1 then some (m.1, { m.2 with who := ⟨m.2.who.core, 256⟩, lostUnit := true })
      else none }

/-- A message in flight as the reset of a die leaves it (R280, R462): for a reply that is lost the requester receives a NACK. -/
def messageReset (d : Nat) (s : State) (x : Nat × Message) : State :=
  let carried (f : RFlit) : Bool := f.ev == some (.messageArrival x.1) || f.ev == some (.nack x.1) || f.ev == some (.emptyReply x.1)
  let inside := (s.flitsAt (nodeOn d)).any carried
  if x.2.src.core.die = d then
    if inside ∨ x.2.dst.die = d then
      let s := { s with messages := tdel s.messages x.1 }
      if x.2.reply ∧ x.2.dst.die ≠ d then s.nackEntry x.2.dst x.2.entry else s
    else s
  else if inside ∨ x.2.dst.die = d then s.loseMessage x.1
  else s

/-- Senders outside the die whose reply can no longer come: those of the requests in its receive queues, and those of its
handlers (R462). -/
def unreplied (s : State) (d : Nat) : List (CoreId × Nat) :=
  ((s.cores.filter fun c => c.1.die == d).flatMap fun c : CoreId × Core =>
      (c.2.recvReq.filter (·.reserved)).map fun m => (m.src.core, m.entry))
    ++ (s.fibres.filter fun f => f.1.core.die == d && f.2.status != .free && f.2.rpl).filterMap fun f => f.2.replyTo

/-- What the lost flits carried that is neither an access nor a message (R280). -/
def otherFlit (d : Nat) (s : State) (f : RFlit) : State :=
  match f.req, f.ev with
  | some r, _ => if r.who.core.die = d then s else s.loseFlit f
  | none, some e =>
    (match e with
     | .homeAccess _ => s
     | .accessReply _ => s
     | .accessAck _ => s
     | .messageArrival _ => s
     | .nack _ => s
     | .emptyReply _ => s
     | .walkPacket _ => s
     | .walkAck _ => s
     | e => if eventOn d e then s else s.loseEvent e)
  | none, none => s

/-! ## Walks and fibres -/

/-- A walk to or from the die (R280); a packet of another die's fibre is refused at once (R90). -/
def walkReset (d : Nat) (s : State) (x : Nat × WalkPkt) : State :=
  let inside := (s.flitsAt (nodeOn d)).any fun f => f.ev == some (.walkPacket x.1)
  match x.2.into with
  | some f =>
    if f.core.die = d ∧ x.2.src.core.die ≠ d then { s with walkers := tdel s.walkers x.1 }.vacate x.2.src
    else if f.core.die = d then { s with walkers := tdel s.walkers x.1 }
    else s
  | none =>
    if x.2.src.core.die = d then (if inside ∨ x.2.die = d then { s with walkers := tdel s.walkers x.1 } else s)
    else if x.2.die = d ∨ inside then
      ({ s with agenda := s.agenda.filter fun e => e.2 != Instr.walkTimeout x.1 }.modWalker x.1 fun w => { w with arrived := none }).now
        (.walkFail x.1 2)
    else s

/-- A fibre of the die ends with it; the task of another die that it belongs to is marked (R111, R280). -/
def fibreReset (d : Nat) (s : State) (x : FibreRef × Fibre) : State :=
  let away := match x.2.cont with
    | .walking id => s.walkers.any fun w => w.1 == id && w.2.src == x.1
    | _ => false
  let s := { s with fibres := tdel s.fibres x.1 }
  if !x.2.inTask ∨ x.2.tdie = d then s
  else
    let s := s.modTask x.2.tdie x.2.taskix fun t => { t with dieReset := true }
    if away then s else s.leaveTask x.2

/-- A completed task that is not posted yet gives up its place among those of its partition that wait (R111). -/
def unpost (s : State) (d ix : Nat) : State :=
  s.modVf (tget {} (s.die d).tasks ix).part fun v => { v with
    held := v.held.filter (· != (d, ix)), posting := if v.held.head? = some (d, ix) then none else v.posting
    postUnit := if v.held.head? = some (d, ix) then none else v.postUnit }

/-- A task held in the die's table is to be posted with DIE_RESET; one that had completed keeps the wheel of its end (R111). -/
def taskReset (d : Nat) (s : State) (ix : Nat) : State :=
  let t := tget {} (s.die d).tasks ix
  if t.state = .waitPost then
    ((s.modTask d ix fun t => { t with status := 2 }).modVf t.part fun v => { v with held := v.held ++ [(d, ix)] }).schedOnce s.clock
      (.completionPost t.part)
  else s.completeTask d ix 2

/-- The tasks held in the die's table complete with DIE_RESET, in the order of their entries (R111). Their fibres on other dies run
on without a task (DESIGN CHOICE, log 81). -/
def tasksReset (s : State) (d : Nat) : State :=
  let s := { s with fibres := s.fibres.map fun f : FibreRef × Fibre => if f.2.inTask ∧ f.2.tdie = d then (f.1, { f.2 with inTask := false }) else f }
  let held := (s.die d).tasks.filter fun t : Nat × Task => t.2.state != .done
  let s := held.foldl (fun s t => if t.2.state = .waitPost then s.unpost d t.1 else s) s
  (sorted (held.map fun t => t.1)).foldl (taskReset d) s

/-- The walks of other gateways whose tables lie on the die lose their reads with it, and what waits for them is lost (R154, R237,
R280). -/
def walksReset (s : State) (d : Nat) : State :=
  (s.dies.filter fun x => x.1 != d).foldl (fun s x =>
    (x.2.gw.walks.filter fun w : Walk => w.running && bitN w.root.toNat 63 && field w.root 55 53 == d).foldl (fun s w =>
      let s := s.modGw x.1 fun g => { g with walks := g.walks.filter fun y => y.id != w.id }
      (w.waiters.foldl (fun s i => s.loseAccess i) s).startWalk x.1) s) s

/-! ## The die itself -/

/-- The keys of a link are erased at both ends, and nothing of it is staged (R299, R304, R319, R320). -/
def eraseKeys (s : State) (l : Nat) : State :=
  s.modPkg fun k => { k with links := tmod {} k.links l fun x =>
    { x with secret := none, staged := none, oldSecret := none, again := false } }

/-- A link closes at both sides with a die's reset: its keys go, and the surviving die is told (R299, R319). -/
def shutLink (d : Nat) (s : State) (l : Nat) : State :=
  let s := (s.eraseKeys l).modPkg fun k => { k with links := tmod {} k.links l fun x => { x with closed := some (x.closed.getD s.clock) } }
  if otherEnd l d < 6 ∧ s.dieOpen (otherEnd l d) then (s.askVendor (otherEnd l d) 3 (leBytes 1 l)).now (.closeLink (otherEnd l d) l) else s

/-- The registers, tiles, cores and units of the die return to reset; the shadow of its task table, its counters of
acceptance, its granules and its memory stay (R111, R281; log 40). The power controller's figures of the die stay; it has no allotment
for the rest of the period, so that its gates are shut until the next (R359, R360; log 108). -/
def clearDie (s : State) (d : Nat) : State :=
  let x := s.die d
  { s with
    fibres := s.fibres.filter fun f => f.1.core.die != d
    cores := s.cores.filter fun c => c.1.die != d
    tiles := s.tiles.filter fun t => tileDie t.1 != d
    gangs := s.gangs.filter fun g => g.1 / 64 != d
    clusters := s.clusters.filter fun c => c.1 / 16 != d
    parts := s.parts.map fun p : Nat × Part => (p.1, { p.2 with
      tab := p.2.tab.filter fun t => tileDie t.2 != d
      captured := p.2.captured.filter fun c => decide (4096 ≤ c.1) || tileDie c.1 != d
      saved := p.2.saved.filter fun x => !nodeOn d x.1.1
      spilled := p.2.spilled.filter fun x => x.1 != d
      heldEv := p.2.heldEv.filter fun e => !eventOn d e.2 })
    agenda := s.agenda.filter fun e => !eventOn d e.2
    dies := tset s.dies d
      { tasks := x.tasks, freed := x.freed, nextFresh := x.nextFresh, ord := x.ord, granules := x.granules, temp := x.temp, trust := x.trust
        spentTok := x.spentTok, demand := x.demand, hot := x.hot, mgate := true, vgate := true } }
    |>.modPkg fun k => { k with wires := k.wires.filter fun w => tileDie w.1 != d }

/-- The requests to the root of fibres that end with a die keep their blocks, and still complete (R434). -/
def keepBlocks (s : State) (d : Nat) : State :=
  let blocks := s.pkg.mtrq.map fun r : MtReq => if r.who.core.die = d ∧ r.answer.isNone then { r with block := s.mtrqBlock r } else r
  if blocks = s.pkg.mtrq then s else s.modPkg fun k => { k with mtrq := blocks }

/-- The reset of a compute die (R280), with the REASON that the trust state keeps, if it changes (R298). -/
def resetDieNow (s : State) (d : Nat) (reason : Option Nat) : State :=
  let s := s.keepBlocks d
  let owed := s.unreplied d
  let lost := s.flitsAt (nodeOn d)
  let replies := s.messages.filter fun x => x.2.reply && x.2.dst.die == d && !isService x.2.dst
  let saves := (s.die d).gw.saves.map fun x => x.part
  let s := s.tearBarriers d
  let s := s.loseCircuits fun c => (hopDies c.hops).contains d
  let s := s.walkers.foldl (walkReset d) s
  let s := (s.flight.foldl (accessReset d) s).walksReset d
  let s := s.movesReset d
  let s := s.messages.foldl (messageReset d) s
  let s := (s.fibres.filter fun f => f.1.core.die == d).foldl (fibreReset d) s
  let s := s.clearDie d
  let s := (owed.filter fun x => x.1.die != d).foldl (fun s x => s.nackEntry x.1 x.2) s
  let s := lost.foldl (otherFlit d) s
  let s := replies.foldl (fun s x => s.countReply x.2) s
  let s := saves.foldl (fun s p => s.schedOnce s.clock (.saveComplete p)) s
  let s := s.tasksReset d
  let s := (linksOf d).foldl (shutLink d) s
  let mine (f : RFlit) : Bool := f.part == attPart d
  let s := s.modPkg fun k => { k with
    rwait := k.rwait.filter fun f => !mine f
    rbuf := k.rbuf.map fun b : (Nat × Bool) × RBuf => (b.1, { b.2 with flits := b.2.flits.filter fun f => !mine f }) }
  let s := s.modDie d fun x => { x with
    spdm := {}
    trust := { state := 0, reason := reason.getD x.trust.reason, fails := x.trust.fails, sess := x.trust.sess, wheel := s.wheel } }
  (List.range 48).foldl (fun s p => s.atBoundary p d) s

/-! ## Errors (R268, R269) -/

/-- An uncorrectable error in a v, a or m register: LATE_FAULT when no fibre holds the lease (R268). Else it stands in the register,
where an instruction of the lease holder that reads it meets it (R481), until the register is written or a save of the core's
context marks it as poison (R279, log 80). -/
def vectorError (s : State) (c : CoreId) (reg : Nat) : State :=
  if (s.core c).lease.isNone then s.reportFibre ⟨c, 0⟩ 2 0x10 0 (vecInfo 0 0 8)
  else s.modCore c fun x => { x with regUe := setIn x.regUe reg }

/-- The entry of a slot table, of a router or of the I/O die (R24, R268). -/
def tableEntry (s : State) (n b slot : Nat) : Option Entry :=
  if n = ioNode then tfind s.pkg.ioSlots (b, slot) else tfind (s.tile n).slots (b, slot)

end State

/-- DIE_RESET (R280, R299): any cause but the commands and the failures that have rows of their own. A die in RESET is
there already, and a rejected one leaves that state only by TRCMD. -/
def execDieReset (d : Nat) (s : State) : Out :=
  let t := (s.die d).trust
  if 6 ≤ d ∨ t.state = 0 ∨ t.state = 5 then .next s else .next (s.resetDieNow d none)

/-- RESET_DIE (R298, R299, R320). -/
def execResetDie (d : Nat) (s : State) : Out :=
  let t := (s.die d).trust
  if 2 ≤ t.state ∧ t.state ≤ 4 then .next (s.resetDieNow d (some 9))
  else if t.state = 5 then .next (s.modDie d fun x => { x with trust := { x.trust with state := 0, fails := 0, wheel := s.wheel } })
  else .next s

/-- UNCORRECTABLE_ERROR (R268, R269). -/
def execUncorrectableError (place : ErrorPlace) (s : State) : Out :=
  match place with
  | .memory a => .next { s with errors := setIn s.errors (a / granSize a * granSize a) }
  | .fibreRegs f => .next (if (s.fib f).status = .free then s else s.modFib f fun x => { x with pendUe := true })
  | .vectorRegs c reg => .next (s.vectorError c reg)
  | .accumulator g n row =>
    .next (s.modGang g fun x => { x with slots := tmod {} x.slots n fun a => { a with bad := setIn a.bad row } })
  | .slotTable n b slot =>
    (match s.tableEntry n b slot with
     | some e => .next (if entryV e then s.loseCircuits fun c => c.part == entryPtag e && c.cid == entryCid e else s)
     | none => .next s)
  | .gatewayCache gw i => .next (s.modGw gw fun g => { g with cache := g.cache.take i ++ g.cache.drop (i + 1) })

/-- SOFT_ERROR (R268, R345): corrected without a visible effect, and counted. -/
def execSoftError (die tile : Nat) (s : State) : Out := .next (s.countTile (tileNo die tile) 0x50 1)

end Sys2Proof.Machine
end

