-- ==== Sys2Proof/Machine/EvLink.lean ====
section
/-! DEFINITION. Links: their keys and rollovers, authentication failures (12 R299, R304, R315 to R321), package-link
training, alignment and time messages (02 R58, R61, R62), and the far ports (05 R131). -/

namespace Sys2Proof.Machine

namespace State

/-- A link's keys. -/
def link (s : State) (l : Nat) : LinkKey := tget {} s.pkg.links l
def modLink (s : State) (l : Nat) (h : LinkKey → LinkKey) : State :=
  s.modPkg fun k => { k with links := tmod {} k.links l h }

/-- A die may hold link keys: it is KEYING or OPEN (R316). -/
def keyed (s : State) (d : Nat) : Bool := d == 6 || (s.die d).trust.state == 3 || (s.die d).trust.state == 4

/-- Both ends of a link may hold its keys (R316); a package link once it is trained (R321). -/
def linkKeyed (s : State) (l : Nat) : Bool :=
  if 112 ≤ l ∧ l < 124 then (let p := s.plink (l - 112); p.trained && !p.failed)
  else s.keyed (linkEnds l).1 && s.keyed (linkEnds l).2

/-- A link that data may use now: its dies are OPEN, or it is trained, and it is not closed (R297). The residue of a package link
flows in ALIGN_LOST too (R62). -/
def linkCarries (s : State) (l : Nat) : Bool :=
  let open' (d : Nat) : Bool := d == 6 || s.dieOpen d
  (if 112 ≤ l ∧ l < 124 then (s.plink (l - 112)).trained
   else open' (linkEnds l).1 && open' (linkEnds l).2) && !(s.link l).closed.any (· ≤ s.clock)

/-- A link secret of 32 bytes from the random bit generator (R315). -/
def drawSecret (s : State) : BitVec 256 × State :=
  let (bs, s) := randomBytes 32 s
  (BitVec.ofNat 256 (leNat bs), s)

/-- Stage a key for the switch at Ws (R304, R317). -/
def stageKey (s : State) (l epoch ws : Nat) (secret : BitVec 256) : State :=
  (s.modLink l fun x => { x with staged := some (epoch, ws, secret) }).sched (ws * 1024) (.keySwitch l)

/-- The root sends SET_LINK_KEY to a die (R304). -/
def sendKey (s : State) (d l epoch ws : Nat) (secret : BitVec 256) : State :=
  (s.askVendor d 1 (leBytes 1 l ++ leBytes 4 epoch ++ leBytes 8 ws ++ leBytes 32 secret.toNat)).now (.setLinkKey d l epoch ws secret)

/-- The root sends OPEN to a die (R304). -/
def sendOpen (s : State) (d wo : Nat) : State := (s.askVendor d 2 (leBytes 8 wo)).now (.linkOpen d wo)

/-- The root rolls a link: a new epoch and secret, to every compute die that ends the link; a package link's comes from
the session of the root cores (R315, R316, R321; log 110). -/
def rollLink (s : State) (l ws : Nat) : State :=
  let epoch := (s.link l).epoch + 1
  if 112 ≤ l ∧ l < 124 then { s with fresh := s.fresh + 1 }.stageKey l epoch ws (Config.sessionSecret l s.fresh)
  else
    let (secret, s) := s.drawSecret
    (([(linkEnds l).1, (linkEnds l).2].filter (· < 6)).foldl (fun s d => s.sendKey d l epoch ws secret) s)

/-- The root keys every link of a die whose other end may hold keys (R299, R319). -/
def keyDie (s : State) (d : Nat) : State :=
  let ls := (linksOf d).filter fun l => s.keyed (otherEnd l d)
  let ends := ls.flatMap fun l => (l, true) :: (if otherEnd l d < 6 then [(l, false)] else [])
  let s := s.modDie d fun x => { x with trust := { x.trust with unkeyed := ends } }
  ls.foldl (fun s l => s.rollLink l (s.wheel + 4)) s

/-- An end has acknowledged its key; with the last one of a die the root sends OPEN (R299). -/
def keyAck (s : State) (t : Nat) (e : Nat × Bool) : State :=
  let x := (s.die t).trust
  if x.state ≠ 3 ∨ !x.unkeyed.contains e then s
  else
    let left := x.unkeyed.filter (· != e)
    let s := s.modDie t fun y => { y with trust := { y.trust with unkeyed := left } }
    if left.isEmpty then s.sendOpen t (s.wheel + 4) else s

/-- What crosses a link in a direction reaches this input of a node (R25, R37, R315). -/
def crosses (l dir m q : Nat) : Bool :=
  let south := decide (320 ≤ l)
  let x := l % 256 - 64
  if l < 64 then
    decide (m < ioNode) && decide (tileY m = 16 * (l / 32) + l % 16) &&
      (if dir = 0 then q == 3 && decide (tileX m = 16 * (l / 16 % 2) + 16) else q == 1 && decide (tileX m = 16 * (l / 16 % 2) + 15))
  else if 112 ≤ l % 256 then false
  else if m = ioNode then (if south then dir == 1 && q == 53 + x else dir == 0 && q == 5 + x)
  else decide (tileX m = x) && (if dir = 0 then q == 0 && decide (tileY m = 16) else q == 2 && decide (tileY m = 15))

/-- What a link delivers in this slot in a direction is dropped (R318). -/
def dropCrossing (s : State) (l dir : Nat) : State :=
  let fresh (b : (Nat × Bool) × RBuf) (m : Nat) : List RFlit :=
    if crosses l dir m b.1.1 then b.2.flits.filter fun f => f.since == s.clock else []
  let gone := (s.tiles.flatMap fun t : Nat × Tile => t.2.rbuf.flatMap fun b => fresh b t.1) ++ s.pkg.rbuf.flatMap fun b => fresh b ioNode
  let clean (m : Nat) (b : (Nat × Bool) × RBuf) : (Nat × Bool) × RBuf :=
    if crosses l dir m b.1.1 then (b.1, { b.2 with flits := b.2.flits.filter fun f => f.since != s.clock }) else b
  let s := { s with tiles := s.tiles.map fun t : Nat × Tile => (t.1, { t.2 with rbuf := t.2.rbuf.map (clean t.1) }) }
  let s := s.modPkg fun k => { k with
    rbuf := k.rbuf.map (clean ioNode)
    wires := k.wires.filter fun w => !(w.2.2.1 == s.clock && crosses l dir w.1 w.2.1) }
  gone.foldl loseFlit s

/-- Circuits that hold positions on a package link become LOST (R54, R62). -/
def loseOnLink (s : State) (j : Nat) : State := s.loseCircuits fun c => (c.posns ++ c.posnsOut).any fun x => x.1 == j

end State

/-! ## Keys (R304, R315 to R317) -/

/-- A die's VENDOR_DEFINED_RESPONSE: the operation, and 0 OK, 1 FORMAT, 2 LINK or 3 LATE; outside a session ERROR UnexpectedRequest
(R304, in the layout of the standard, log 16). -/
def vendorResponse (op status : Nat) : List Byte :=
  [0x12, 0x7E, 0, 0, 3, 0, 2] ++ leBytes 2 Config.vendorId.toNat ++ leBytes 2 2 ++ [BitVec.ofNat 8 op, BitVec.ofNat 8 status]
def State.vendorAnswer (s : State) (d op status : Nat) : State :=
  let bs := if (s.die d).spdm.session then vendorResponse op status else [0x12, 0x7F, 4, 0]
  (s.modDie d fun x => { x with spdm := { x.spdm with last := bs } }).sendAtt d false bs.length []

/-- SET_LINK_KEY (R304): FORMAT, LINK and a die without a session leave no effect; LATE makes the root choose a later Ws (R320). -/
def execSetLinkKey (d link epoch ws : Nat) (secret : BitVec 256) (s : State) : Out :=
  if !(s.die d).spdm.session ∨ 2 ^ 32 ≤ epoch ∨ 2 ^ 64 ≤ ws then .next (s.vendorAnswer d 1 1)
  else if !(linksOf d).contains link then .next (s.vendorAnswer d 1 2)
  else if ws < s.wheel + 4 then .next ((s.vendorAnswer d 1 3).sendKey d link epoch (s.wheel + 4) secret)
  else
    let s := (s.vendorAnswer d 1 0).stageKey link epoch ws secret
    let s := s.keyAck d (link, true)
    .next (if otherEnd link d < 6 then s.keyAck (otherEnd link d) (link, false) else s)

/-- OPEN (R299, R304). -/
def execLinkOpen (d wo : Nat) (s : State) : Out :=
  if !(s.die d).spdm.session ∨ 2 ^ 64 ≤ wo then .next (s.vendorAnswer d 2 1)
  else if wo < s.wheel + 4 then .next ((s.vendorAnswer d 2 3).sendOpen d (s.wheel + 4))
  else .next (((s.vendorAnswer d 2 0).modDie d fun x => { x with trust := { x.trust with wo } }).schedFirst (wo * 1024) (.dieOpen d))

/-- CLOSE_LINK (R304): from the next wheel. -/
def execCloseLink (d link : Nat) (s : State) : Out :=
  if !(s.die d).spdm.session then .next (s.vendorAnswer d 3 1)
  else if !(linksOf d).contains link then .next (s.vendorAnswer d 3 2)
  else .next (((s.vendorAnswer d 3 0).eraseKeys link).modLink link fun x => { x with closed := some (min ((s.wheel + 1) * 1024) (x.closed.getD ((s.wheel + 1) * 1024))) })

/-- DIE_OPEN (R299). -/
def execDieOpen (d : Nat) (s : State) : Out :=
  let t := (s.die d).trust
  if t.state = 3 ∧ t.wo * 1024 = s.clock then
    .next (s.modDie d fun x => { x with trust := { x.trust with
      state := 4, fails := 0, sess := (t.sess + 1) % 256, wheel := s.wheel } }).startCheck
  else .next s

/-- AUTO_ROLLOVER (R316, R321): four wheels before the end of the epoch that it was scheduled for. -/
def execAutoRollover (link : Nat) (s : State) : Out :=
  let x := s.link link
  let life := if 112 ≤ link ∧ link < 124 then 2 ^ 21 else 2 ^ 22
  if x.secret.isSome ∧ x.staged.isNone ∧ s.clock = (x.ws + life - 4) * 1024 ∧ s.linkKeyed link then
    .next (s.rollLink link (x.ws + life))
  else .next s

/-- KEY_SWITCH (R317): a rollover of a link whose end is not OPEN or KEYING is cancelled (R316). -/
def execKeySwitch (link : Nat) (s : State) : Out :=
  let x := s.link link
  match x.staged with
  | none => .next s
  | some (epoch, ws, secret) =>
    if ws * 1024 ≠ s.clock then .next s
    else if !s.linkKeyed link then .next (s.modLink link fun x => { x with staged := none, again := false })
    else
      let long := decide (112 ≤ link) && decide (link < 124)
      let s := s.modLink link fun y =>
        { y with staged := none, oldSecret := x.secret, secret := some secret, epoch, ws, closed := none, again := false }
      let s := (s.sched ((ws + 1 + b2n long) * 1024) (.keyErase link)).sched
        ((ws + (if long then 2 ^ 21 else 2 ^ 22) - 4) * 1024) (.autoRollover link)
      .next (if x.again then s.rollLink link (ws + 4) else s)

/-- KEY_ERASE (R317, R321). -/
def execKeyErase (link : Nat) (s : State) : Out :=
  .next (s.modLink link fun x =>
    if (x.ws + 1 + b2n (decide (112 ≤ link) && decide (link < 124))) * 1024 ≤ s.clock then { x with oldSecret := none } else x)

/-- ROLL (R298, R316): a link with a rollover staged rolls again after it. -/
def execRoll (d : Nat) (s : State) : Out :=
  .next (((linksOf d).filter fun l => s.linkKeyed l).foldl (fun s l =>
    if (s.link l).staged.isSome then s.modLink l fun x => { x with again := true }
    else s.rollLink l ((s.clock + 1023) / 1024 + 4)) s)

/-- An authentication failure of this wheel has reset the die (R318). -/
def State.failedNow (s : State) (d : Nat) : Bool :=
  let t := (s.die d).trust
  d != 6 && t.state != 4 && t.reason == 8 && t.wheel == s.wheel

/-- A link carried flits in this wheel, until a failure on another one reset the die at one of its ends (R318). -/
def State.linkCarried (s : State) (l : Nat) : Bool :=
  let ok (d : Nat) : Bool := d == 6 || s.dieOpen d || s.failedNow d
  s.linkCarries l || (decide (l < 112) && (s.failedNow (linkEnds l).1 || s.failedNow (linkEnds l).2) && ok (linkEnds l).1 && ok (linkEnds l).2
    && !(s.link l).closed.any (· < s.wheel * 1024))

/-- AUTHENTICATION_FAILURE (R318, R320, R321): failures on several links in one wheel cause one reset for each die concerned. -/
def execAuthenticationFailure (link dir : Nat) (s : State) : Out :=
  if !s.linkCarried link then .next s
  else if 112 ≤ link ∧ link < 124 then
    .next ((s.modPlink (link - 112) fun p => { p with lost := true, failed := true, good := 0, bad := 0 }).loseOnLink (link - 112))
  else
    let d := if (linkEnds link).1 = 6 then (linkEnds link).2 else if (linkEnds link).2 = 6 then (linkEnds link).1
      else if dir = 0 then (linkEnds link).1 else (linkEnds link).2
    let s := (s.dropCrossing link dir).modLink link fun x => { x with closed := some (s.clock + 1) }
    .next (if s.failedNow d then s else s.resetDieNow d (some 8))

/-! ## Package links (R58, R61, R62) -/

/-- LINK_TRAINING (R58): the root cores' new session gives the link its key (R321). -/
def execLinkTraining (link : Nat) (delay : Option Nat) (s : State) : Out :=
  let s := s.loseOnLink link
  match delay.filter (· ≤ 1019) with
  | none => .next (s.modPlink link fun p => { p with trained := false, lost := true, good := 0, bad := 0 })
  | some n =>
    let peer := Config.peerPackage link s.fresh
    let s := { s with fresh := s.fresh + 1 }
    let s := s.modPlink link fun p => { p with d := n + 4, trained := true, lost := true, failed := false, peer, good := 0, bad := 0 }
    .next (s.rollLink (112 + link) (s.wheel + 4))

/-- SYNC (R61, R62): the offset is in eighths of a slot, the step of the timestamps. -/
def execSyncMessage (link : Nat) (offset : Int) (s : State) : Out :=
  let p := s.plink link
  let o := offset.natAbs
  if !p.trained then .next s
  else if 6 * 8 < o then
    let s := s.modPlink link fun p => { p with bad := p.bad + 1, good := 0 }
    .next (if 1 ≤ p.bad ∧ !p.lost then (s.modPlink link fun p => { p with lost := true }).loseOnLink link else s)
  else if o ≤ 4 * 8 then
    .next (s.modPlink link fun p => { p with
      good := p.good + 1, bad := 0, lost := p.lost && (p.failed || p.good == 0), locked := p.locked || decide (1 ≤ p.good) })
  else .next (s.modPlink link fun p => { p with bad := 0, good := 0 })

/-- SYNC_INTERVAL (R61): a Sync is sent, and with every so many an Announce; R61 gives no interval of theirs (free, log 75). -/
def execSyncInterval (link : Nat) (s : State) : Out :=
  .next (s.modPlink link fun p =>
    if p.trained then { p with syncs := p.syncs + 1, announces := p.announces + b2n ((p.syncs + 1) % (Config.announceEvery + 1) == 0) } else p)

/-- PDELAY_REQ (R61): sent every 1,024 wheels, or received and answered. -/
def execPdelayReq (link : Nat) (received : Bool) (s : State) : Out :=
  .next (s.modPlink link fun p =>
    if !p.trained then p else if received then { p with answered := p.answered + 1 } else { p with pdelays := p.pdelays + 1 })

/-- PDELAY_RESP (R61). -/
def execPdelayResp (link delay : Nat) (s : State) : Out :=
  .next (s.modPlink link fun p => if p.trained then { p with delay } else p)

/-- ANNOUNCE (R61): one is received. -/
def execAnnounce (link : Nat) (s : State) : Out :=
  .next (s.modPlink link fun p => if p.trained then { p with announced := p.announced + 1 } else p)

/-! ## Far ports (R131) -/

/-- FAR_PORT_LINK (R131): what the port's decoder covers, at most 512 GiB. -/
def execFarPortLink (n : Nat) (up : Bool) (width mib : Nat) (s : State) : Out :=
  .next (s.modPkg fun k => { k with
    ports := tset k.ports n (if up then { present := true, up := true, width, mib := min mib 524288 } else {}) })

end Sys2Proof.Machine
end

