-- ==== Sys2Proof/Machine/EvMeter.lean ====
section
/-! DEFINITION. What the root core does for MTRQ: sealing of kernel code and usage metering (12 R308 to R314; 13 R322 to
R337; 18 R432 to R434). -/

namespace Sys2Proof.Machine

/-! ## The request block (R324) -/

/-- The parts of a block that a code uses, as spans (R324, R325): the rest must be zero. -/
def usedSpans (code : Nat) : List (Nat × Nat) :=
  match code with
  | 1 => [(0, 1), (4, 2), (16, 8)]
  | 2 => [(0, 1), (4, 2)]
  | 3 => [(0, 1), (2, 2), (32, 32), (128, 640)]
  | 4 => [(0, 4), (4, 4), (16, 16)]
  | 5 => [(0, 1), (2, 2), (32, 32), (128, 640)]
  | 6 => [(0, 1), (2, 2), (32, 32), (128, 640)]
  | 7 => [(0, 1), (2, 2), (32, 64), (128, 640)]
  | 8 => [(0, 1), (2, 2)]
  | 9 => [(0, 1), (2, 2), (32, 32), (128, 640)]
  | _ => []

/-- The block breaks R324 for its code (FORMAT). -/
def blockBad (code : Nat) (b : List Byte) : Bool :=
  let used (i : Nat) : Bool := (usedSpans code).any fun u => decide (u.1 ≤ i) && decide (i < u.1 + u.2)
  code == 0 || decide (9 < code)
    || (List.range 768).any (fun i => !used i && lget 0 b i != 0)
    || (decide (3 ≤ code) && (sliceNat b 2 2 == 0 || decide (4095 < sliceNat b 2 2)))
    || ((code == 1 || code == 2 || code == 4) && decide (255 < sliceNat b 4 2))
    || (code == 4 && (decide (63 < sliceNat b 6 2) || decide (1 < sliceNat b 1 1)))

namespace State

/-- The request at the head of the root core's order of arrival (R324). -/
def mtrqHead (s : State) : Option MtReq := s.pkg.mtrq.find? fun r => r.atRoot && r.answer.isNone

def mtrqFind (s : State) (id : Nat) : Option MtReq := s.pkg.mtrq.find? fun r => r.id == id

def mtrqMod (s : State) (id : Nat) (h : MtReq → MtReq) : State :=
  s.modPkg fun k => { k with mtrq := k.mtrq.map fun r => if r.id = id then h r else r }

/-- A request reaches the root core: it is last in the order of arrival. -/
def mtrqArrive (s : State) (r : MtReq) : State :=
  s.modPkg fun k => { k with mtrq := (k.mtrq.filter fun x => x.id != r.id) ++ [{ r with atRoot := true, since := s.clock }] }

/-- The word that MTRQ returns (R324). -/
def mtrqWord (status meter seq : Nat) : Word :=
  word (b2n (status != 0) * 2 ^ 63 + status % 256 * 2 ^ 48 + meter % 65536 * 2 ^ 32 + seq % 2 ^ 32)

/-- A request is done: its result sets out, and the next request begins (R324, R433). -/
def mtrqDone (s : State) (r : MtReq) (e : Instr) (status meter seq : Nat) : State :=
  let s := s.mtrqMod r.id fun x => { x with answer := some (mtrqWord status meter seq) }
  let s := s.sendEv ioNode (coreNode r.who.core) true r.part e
  match s.mtrqHead with
  | some n => s.now (mtrqEvent ((s.mtrqBlock n).headD 0).toNat n.id)
  | none => s

/-- The result reaches its fibre; without one the root discards it (R434, R349). -/
def mtrqBack (s : State) (r : MtReq) (w : Word) : State :=
  let s := s.modPkg fun k => { k with mtrq := k.mtrq.filter fun x => x.id != r.id }
  match (s.fib r.who).cont with
  | .mtrq d id =>
    if id ≠ r.id then s else
    let s := (s.addDelay r.who.core 10 (s.fib r.who).delay).modFib r.who fun x => { x with delay := 0 }
    (s.setGOf r.who d w).complete r.who
  | _ => s

/-- The common part of the requests: the result at its fibre, the arrival, the turn, whose wait counts (R349), the check of the
block, then the request itself. -/
def mtrqRun (s : State) (id : Nat) (e : Instr) (act : State → MtReq → List Byte → State) : Out :=
  match s.mtrqFind id with
  | none => .next s
  | some r =>
    match r.answer with
    | some w => .next (s.mtrqBack r w)
    | none =>
      let s := if r.atRoot then s else s.mtrqArrive r
      let r := { r with atRoot := true }
      if s.mtrqHead.all (fun h => h.id != id) ∨ r.wn.isSome then .next s
      else
        let b := s.mtrqBlock r
        let code := (b.headD 0).toNat
        if mtrqEvent code id ≠ e then .next (s.now (mtrqEvent code id))
        else
        let s := s.modFib r.who fun x => if x.cont ≠ .mtrq r.d r.id then x else { x with delay := x.delay + s.waitedSince r.part (((s.mtrqFind id).map (·.since)).getD s.clock) }
        if blockBad code b then .next (s.mtrqDone r e 1 (if 3 ≤ code ∧ code ≤ 9 then sliceNat b 2 2 else 0) 0)
        else .next (act s r b)

/-- Write the statement of a request into its block, before the reply, where the root core reaches it (R13, R324, R433). -/
def writeStatement (s : State) (r : MtReq) (bs : List Byte) : State :=
  match s.rootPieces r.who.core r.part r.cap.space (r.addr + 128) 640 true with
  | some ps => writePieces ps bs s
  | none => s

/-! ## Code windows (R312 to R314) -/

/-- A code window's word (R313). -/
def cwinWord (tgt : Bool) (base len : Nat) : Word := word (2 ^ 63 + b2n tgt * 2 ^ 53 + ceilDiv len 4096 * 2 ^ 32 + base)

/-- The code windows of a target: of a tile, or of a die store; and how many it has. -/
def cwinsOf (s : State) (space i : Nat) : List (Nat × Word) := if space = 3 then (s.die i).cwin else (s.tile i).cwin
def cwinCount (space : Nat) : Nat := if space = 3 then 16 else 4
def setCwin (s : State) (space i n : Nat) (w : Word) : State :=
  if space = 3 then s.modDie i fun d => { d with cwin := tset d.cwin n w } else s.modTile i fun t => { t with cwin := tset t.cwin n w }

/-- Where the code goes: each tile of the partition or the die store, and the offset in it (R312). -/
def sealTargets (s : State) (p space place : Nat) : List (Nat × Nat) :=
  if space = 3 then [(bits place 29 27, bits place 26 0)] else (s.tilesOf p).map fun n => (n, bits place 19 0)

/-- A target has the window and the code already (R314). -/
def sealedAt (s : State) (space : Nat) (w : Word) (code : List Byte) (t : Nat × Nat) : Bool :=
  (s.cwinsOf space t.1).any (fun x => x.2 == w) && s.readBytes (paOf space t.1 t.2) code.length == code

/-- A free window of a target (R312); none on a die that is not OPEN, which no write of the root reaches (R13, R297; log 59). -/
def freeCwin (s : State) (space : Nat) (t : Nat × Nat) : Option Nat :=
  if !s.dieOpen (if space = 3 then t.1 else tileDie t.1) then none
  else (List.range (cwinCount space)).find? fun n => !bitN (tget 0 (s.cwinsOf space t.1) n).toNat 63

/-- The granules of a die-store placement belong to the partition (R312). -/
def ownsGranules (s : State) (p : Nat) (t : Nat × Nat) (len : Nat) : Bool :=
  (List.range ((t.2 + len - 1) / 2 ^ 20 + 1 - t.2 / 2 ^ 20)).all fun i => tfind (s.die t.1).granules (t.2 / 2 ^ 20 + i) == some p

/-- The manifest of a kernel image breaks R311 (FORMAT). -/
def manifestBad (m : List Byte) : Bool :=
  let z (i n : Nat) : Bool := sliceNat m i n == 0
  let reg := sliceNat m 6 1
  let meters := sliceNat m 7 1
  let len := sliceNat m 8 4
  let space := sliceNat m 12 1
  let place := sliceNat m 16 8
  let room := ceilDiv len 4096 * 4096
  sliceNat m 0 4 != 0x4E414D4B || sliceNat m 4 2 != 1 || decide (reg < 8) || decide (15 < reg) || decide (16 < meters)
    || len == 0 || len % 4 != 0 || decide (1048576 < len) || !z 13 3 || !z 120 8
    || (List.range 16).any (fun i => decide (meters ≤ i) && !z (88 + 2 * i) 2)
    || space == 0 || decide (3 < space) || place % 4096 != 0
    || (if space = 3 then bits place 63 30 != 0 || decide (5 < bits place 29 27) || decide (80 * 2 ^ 20 < bits place 26 0 + room)
        else bits place 63 20 != 0 || decide (2 ^ 20 < bits place 19 0 + room))

/-- Write code and a window into each target that lacks them; none where a target has no window for it (R312). -/
def placeCode (space : Nat) (w : Word) (code : List Byte) : List (Nat × Nat) → State → Option State
  | [], s => some s
  | t :: l, s =>
    if s.sealedAt space w code t then placeCode space w code l s
    else match s.freeCwin space t with
      | none => none
      | some n => placeCode space w code l ((s.setCwin space t.1 n w).writeBytes (paOf space t.1 t.2) code)

/-- SEAL of R312. -/
def sealImage (s : State) (r : MtReq) (b : List Byte) : State :=
  let fin (s : State) (st : Nat) : State := s.mtrqDone r (.seal r.id) st 0 0
  let a := wrap 64 ((r.cap.cursor : Int) + sliceNat b 16 8)
  match s.checkCapAt r.who.core false r.cap a 1024 1 false false with
  | .error _ => fin s 1
  | .ok _ =>
    let head := s.viewBytes r.who.core r.part r.cap.space a 1024
    let m := head.take 512
    let modulus := slice head 512 384
    let len := sliceNat m 8 4
    let sees (a n : Nat) : Bool := (s.rootPieces r.who.core r.part r.cap.space a n false).isSome
    if !sees a 1024 ∨ manifestBad m ∨ (slice head 896 128).any (· != 0) ∨ !sees (a + 1024) len then fin s 1
    else match s.checkCapAt r.who.core false r.cap (a + 1024) len 1 false false with
      | .error _ => fin s 1
      | .ok _ =>
        if sha256 modulus ≠ slice m 56 32 then fin s 2
        else if !pssVerify modulus (sha256 (m.take 128)) (slice m 128 384) then fin s 3
        else
          let space := sliceNat m 12 1
          let place := sliceNat m 16 8
          let tgt := space == 2
          let room := ceilDiv len 4096 * 4096
          let code := s.viewBytes r.who.core r.part r.cap.space (a + 1024) len
          let ts := s.sealTargets r.part space place
          let w := cwinWord tgt (if space = 3 then bits place 26 12 * 4096 else bits place 19 12 * 4096) len
          if ts.isEmpty ∨ (space = 3 ∧ !ts.all fun t => s.ownsGranules r.part t room) then fin s 5
          else match placeCode space w code ts s with
            | none => fin s 5
            | some t =>
              if sha256 code ≠ slice m 24 32 then
                (match ts.filter fun x => !s.sealedAt space w code x with
                 | x :: _ => fin (s.wipe (paOf space x.1 x.2) room) 4
                 | [] => fin s 4)
              else
                let lo := if space = 3 then place else 4095 * 2 ^ 20 + bits place 19 0
                let k := Cap.spanning 2 0 space (2 ^ Cap.permR + 2 ^ Cap.permX + 2 ^ Cap.permG) lo room
                let meters := (List.range (sliceNat m 7 1)).map fun i => sliceNat m (88 + 2 * i) 2
                let t := (t.extend (sliceNat m 6 1) (sha256 (m.take 128))).modPart r.part fun x => { x with
                  ktab := tset x.ktab (sliceNat b 4 2) k, kernels := (k, meters) :: x.kernels }
                fin t 0

/-- Turn the windows of a target off that a condition names, and wipe their pages (R314). -/
def dropCwins (s : State) (space i : Nat) (sel : Word → Bool) : State :=
  ((s.cwinsOf space i).filter fun x => bitN x.2.toNat 63 && sel x.2).foldl (fun s x =>
    let w := codeWinOf x.2
    let kind := if space = 3 then 3 else if w.2.2.2 then 2 else 1
    (s.setCwin space i x.1 0).wipe (paOf kind i w.2.1) w.2.2.1) s

/-- UNSEAL of R314: the windows of the kernel-table entry. -/
def unsealEntry (s : State) (r : MtReq) (b : List Byte) : State :=
  let fin (s : State) (st : Nat) : State := s.mtrqDone r (.unseal r.id) st 0 0
  match tfind (s.part r.part).ktab (sliceNat b 4 2) with
  | none => fin s 6
  | some k =>
    if !k.tag ∨ k.sealOf ≠ 2 then fin s 6
    else
      let lo := k.bounds.1.toNat
      let len := (k.bounds.2 - k.bounds.1).toNat
      let w := cwinWord (k.space == 2) (if k.space = 3 then bits lo 26 0 else bits lo 19 0) len
      let s := (s.sealTargets r.part k.space lo).foldl (fun s t => s.dropCwins k.space t.1 (· == w)) s
      fin (s.modPart r.part fun x => { x with kernels := x.kernels.filter fun e => e.1 != k }) 0

/-! ## Checkpoints and statements (R329, R331 to R333) -/

/-- The sums of a die for wheels before w, of the meters that a condition names, reach the root core (R329). -/
def deliverFor (s : State) (die w : Nat) (sel : Nat → Bool) : State :=
  let now (x : Nat × Nat × Nat × Nat) : Bool := decide (x.1 < w) && sel x.2.1
  let due := (s.die die).sums.filter now
  let s := s.modDie die fun d => { d with sums := d.sums.filter fun x => !now x }
  due.foldl (fun s x => s.modMeter x.2.1 fun m => { m with count := (m.count + x.2.2.1) % 2 ^ 64, replay := (m.replay + x.2.2.2) % 2 ^ 64 }) s

/-- The sums of a die for wheels before w reach the root core (R329). -/
def deliverSums (s : State) (die w : Nat) : State := s.deliverFor die w fun _ => true

/-- Write a checkpoint (R331): whether the write succeeded, and the state. -/
def checkpointNow (s : State) : Bool × State :=
  let t := { s with fresh := s.fresh + 1 }
  if Config.flashFails s.fresh then (false, t.modPkg fun k => { k with ckok := false })
  else (true, t.modPkg fun k => { k with
    ckok := true, ckwheel := s.wheel, rpmc := k.rpmc + 1, images := (k.rpmc + 1, k.meters) :: k.images.take 1 })

/-- Bytes 0 to 255 of a statement (R333), from the meter's record after the event. -/
def statementBytes (kind : Nat) (m : Meter) (n wn c : Nat) (extra nonce : List Byte) : List Byte :=
  leBytes 4 0x53544D54 ++ leBytes 2 1 ++ leBytes 1 kind ++ leBytes 1 (b2n m.isOpen) ++ leBytes 2 n
    ++ leBytes 1 (m.owner.getD 63) ++ leBytes 1 (b2n m.restored) ++ leBytes 4 m.seq ++ leBytes 8 m.count ++ leBytes 8 m.replay
    ++ leBytes 8 wn ++ leBytes 8 c ++ beBytes 32 (dieKeyHash 6).toNat ++ leBytes 32 m.chain.toNat ++ leBytes 32 m.licence.toNat
    ++ leBytes 32 m.lastHash.toNat ++ extra ++ nonce ++ leBytes 16 0

/-- Sign the statement of a meter's record (R332 step 4, R333), which is then the meter's last. -/
def signStatement (s : State) (kind n wn : Nat) (extra nonce : List Byte) : List Byte × State :=
  let body := statementBytes kind (s.meter n) n wn s.pkg.rpmc extra nonce
  let (salt, s) := s.randomBytes 32
  let bs := body ++ pssSign Config.packageModulus Config.packageExponent (sha256 body) salt
  (bs, s.modMeter n fun m => { m with last := bs, lastHash := BitVec.ofNat 256 (leNat (sha256 bs)), restored := false })

/-- 32 zero bytes. -/
def zero32 : List Byte := List.replicate 32 0

/-- The predecessor statement of an OPEN breaks the chain (R334). -/
def chainBad (b : List Byte) : Bool :=
  let st := slice b 128 640
  if st.all (· == 0) then false
  else
    let key := BitVec.ofNat 256 (beNat (slice st 48 32))
    sliceNat st 6 1 != 4 || slice st 176 32 != beBytes 32 (dieKeyHash 6).toNat
      || !(match Config.peerModulus key with
           | some n => pssVerify (beBytes 384 n) (sha256 (st.take 256)) (slice st 256 384)
           | none => false)
      || slice st 112 32 != slice b 32 32

/-- The record of a meter after the event of a request (R323, R333). -/
def meterAfter (s : State) (code : Nat) (r : MtReq) (b : List Byte) (m : Meter) : Meter :=
  if code = 3 then
    { isOpen := true, owner := some r.part,
      chain := BitVec.ofNat 256 (leNat (sha256 (beBytes 32 (dieKeyHash 6).toNat ++ slice b 2 2 ++ leBytes 8 (s.pkg.rpmc + 1)))),
      licence := BitVec.ofNat 256 (sliceNat b 32 32) }
  else { m with seq := (m.seq + 1) % 2 ^ 32, isOpen := code == 5, shut := none }

/-- What bytes 176 to 207 and 208 to 239 of a request's statement hold (R333). -/
def statementExtra (code : Nat) (b : List Byte) : List Byte × List Byte :=
  if code = 3 then (if (slice b 128 640).all (· == 0) then zero32 else sha256 (slice b 128 640), zero32)
  else (if code = 7 then slice b 64 32 else zero32, slice b 32 32)

/-- Another task of the partition is in flight: dispatched, and not complete (R101, R325). -/
def othersInFlight (s : State) (r : MtReq) : Bool :=
  let x := s.fib r.who
  (List.range 6).any fun d => (s.die d).tasks.any fun t : Nat × Task =>
    t.2.part == r.part && t.2.state == .running && !(x.inTask && x.tdie == d && x.taskix == t.1)

/-- The status of a request that needs a signature (R325): 0 where it may go on. -/
def signStatus (s : State) (code : Nat) (r : MtReq) (b : List Byte) : Nat :=
  let n := sliceNat b 2 2
  let m := s.meter n
  if code = 3 then
    if m.isOpen then 6 else if m.owner.any (· != r.part) then 7 else if chainBad b then 9 else 0
  else if !s.meterOpen n then 6
  else if m.owner ≠ some r.part then 7
  else if code ≠ 5 ∧ s.othersInFlight r then 11
  else 0

/-- A request that needs a signature fixes its snapshot wheel and waits for the sums before it (R332). -/
def signRequest (s : State) (code : Nat) (e : Instr) (r : MtReq) (b : List Byte) : State :=
  let n := sliceNat b 2 2
  let st := s.signStatus code r b
  if st ≠ 0 then s.mtrqDone r e st n 0
  else
    let wn := s.wheel + 1
    let s := if code = 6 ∨ code = 7 then s.modMeter n fun m => { m with shut := some (wn, none) } else s
    (s.mtrqMod r.id fun x => { x with wn := some wn, block := b }).sched ((wn + 3) * 1024) (.meterSnapshot r.id)

/-! ## GRANT and RELEASE (R326) -/

/-- Physically contiguous runs of pieces. -/
def runsOf : List (Nat × Nat) → List (Nat × Nat)
  | [] => []
  | (a, n) :: l =>
    match runsOf l with
    | (b, m) :: r => if a + n = b then (a, n + m) :: r else (a, n) :: (b, m) :: r
    | [] => [(a, n)]

/-- The metered windows over a physical address: its list and how many there are (R129). -/
def mwinsAt (s : State) (pa : Nat) : List (Nat × (Word × Word)) × Nat :=
  match paKind pa with
  | 3 => ((s.die (paIdx pa)).mwinDie, 16)
  | 4 => ((s.die (paIdx pa)).mwinHbm, 64)
  | _ => ((s.tile (paIdx pa)).mwin, 4)

def setMwin (s : State) (pa n : Nat) (w : Word × Word) : State :=
  match paKind pa with
  | 3 => s.modDie (paIdx pa) fun d => { d with mwinDie := tset d.mwinDie n w }
  | 4 => s.modDie (paIdx pa) fun d => { d with mwinHbm := tset d.mwinHbm n w }
  | _ => s.modTile (paIdx pa) fun t => { t with mwin := tset t.mwin n w }

/-- Cover physical runs with windows of a meter; none where a target has too few (R326), or lies on a die that the root core does not
reach (R13; log 59). -/
def coverRuns (meter : Nat) : List (Nat × Nat) → State → Option State
  | [], s => some s
  | (pa, n) :: l, s =>
    let (ws, k) := s.mwinsAt pa
    match (List.range k).find? fun i => s.rootReach pa && field (tget (0, 0) ws i).1 63 52 == 0 with
    | none => none
    | some i =>
      coverRuns meter l (s.setMwin pa i (word (meter * 2 ^ 52 + b2n (paKind pa == 2) * 2 ^ 48 + paOff pa / 4096 * 4096), word (n / 4096)))

/-- GRANT of R326. -/
def grantRegion (s : State) (r : MtReq) (b : List Byte) : State :=
  let n := sliceNat b 2 2
  let fin (s : State) (st : Nat) : State := s.mtrqDone r (.meterGrant r.id) st n 0
  let v := sliceNat b 16 8
  let space := bits v 63 56
  let a := bits v 55 0
  let len := sliceNat b 24 8
  let perms := 2 ^ Cap.permR + 2 ^ Cap.permO + 2 ^ Cap.permG + (if bitN (sliceNat b 1 1) 0 then 2 ^ Cap.permW else 0)
  let k := Cap.spanning 0 n space perms a len
  let sealedBy (k : Cap) : Bool := k.tag && (s.kernelMeters r.part k).contains n
  if space = 0 ∨ 4 < space ∨ baseBad space a ∨ a % 4096 ≠ 0 ∨ len = 0 ∨ len % 4096 ≠ 0 ∨ spaceEnd space < a + len
    ∨ k.bounds ≠ ((a : Int), ((a + len : Nat) : Int)) then fin s 1
  else if !s.meterOpen n then fin s 6
  else if (s.meter n).owner ≠ some r.part then fin s 7
  else if !sealedBy (tget .null (s.part r.part).ktab (sliceNat b 4 2)) then fin s 8
  else match s.physPieces r.who.core r.part space a len true with
    | .error _ => fin s 7
    | .ok ps =>
      match coverRuns n (runsOf ps) s with
      | none => fin s 5
      | some t => fin (t.modPart r.part fun x => { x with atab := tset x.atab (sliceNat b 6 2) k }) 0

/-- The windows of a meter turned off in a list, and the spans that they covered. -/
def cutWins (meter : Nat) (ws : List (Nat × (Word × Word))) : List (Nat × (Word × Word)) × List (Nat × Nat × Bool) :=
  let mine := ws.filter fun w => (winOf w.2).1 == meter
  (ws.filter fun w => (winOf w.2).1 != meter, mine.map fun w => let x := winOf w.2; (x.2.1, x.2.2.1, x.2.2.2))

/-- The windows of a die store that touch a granule of a partition are its own, whatever the meter covers elsewhere, and of their bytes
those on its granules are wiped (R326). HBM has no owner by address (R123): its windows go with the meter. -/
def cutDieWins (d : Die) (p meter : Nat) (ws : List (Nat × (Word × Word))) : List (Nat × (Word × Word)) × List (Nat × Nat × Bool) :=
  let parts (w : Nat × (Word × Word)) : List (Nat × Nat) :=
    let x := winOf w.2
    (pieces (2 ^ 20) (x.2.2.1 / 2 ^ 20 + 2) x.2.1 x.2.2.1).filter fun y => tfind d.granules (y.1 / 2 ^ 20) == some p
  let own (w : Nat × (Word × Word)) : Bool := (winOf w.2).1 == meter && !(parts w).isEmpty
  (ws.filter fun w => !own w, (ws.filter own).flatMap fun w => (parts w).map fun y => (y.1, y.2, false))

/-- RELEASE of R326: every byte under the meter's windows in the partition is wiped, and those windows are off. -/
def releaseWindows (s : State) (p meter : Nat) : State :=
  let s := (s.tiles.filter fun t : Nat × Tile => t.2.ptag == p).foldl (fun s t =>
    let (ws, spans) := cutWins meter t.2.mwin
    if spans.isEmpty then s
    else spans.foldl (fun s x => s.wipe (paOf (if x.2.2 then 2 else 1) t.1 x.1) x.2.1) (s.modTile t.1 fun y => { y with mwin := ws })) s
  s.dies.foldl (fun s d =>
    let (wd, sd) := cutDieWins d.2 p meter d.2.mwinDie
    let (wh, sh) := cutWins meter d.2.mwinHbm
    let s := if sd.isEmpty ∧ sh.isEmpty then s else s.modDie d.1 fun y => { y with mwinDie := wd, mwinHbm := wh }
    let s := sd.foldl (fun s x => s.wipe (paOf 3 d.1 x.1) x.2.1) s
    sh.foldl (fun s x => s.wipe (paOf 4 d.1 x.1) x.2.1) s) s

/-- RELEASE of R325. -/
def releaseMeter (s : State) (r : MtReq) (b : List Byte) : State :=
  let n := sliceNat b 2 2
  let fin (s : State) (st : Nat) : State := s.mtrqDone r (.meterRelease r.id) st n 0
  if (s.meter n).isOpen then fin s 6
  else if (s.meter n).owner ≠ some r.part then fin s 7
  else fin ((s.releaseWindows r.part n).modMeter n fun m => { m with owner := none }) 0

/-- QUERY of R325: the last statement is copied, and nothing is signed. -/
def queryMeter (s : State) (r : MtReq) (b : List Byte) : State :=
  let n := sliceNat b 2 2
  if (s.meter n).owner ≠ some r.part then s.mtrqDone r (.meterQuery r.id) 7 n 0
  else
    let bs := (s.meter n).last
    (s.writeStatement r (bs ++ List.replicate (640 - bs.length) 0)).mtrqDone r (.meterQuery r.id) 0 n 0

/-- The sums are in: the checkpoint, the statement, and the result (R332). A meter that a function-level reset has closed
meanwhile takes no SIGN, CLOSE or HANDOVER (R323). -/
def finishSign (s : State) (code wn : Nat) (e : Instr) (r : MtReq) (b : List Byte) : State :=
  let n := sliceNat b 2 2
  let s := s.dies.foldl (fun s d => s.deliverSums d.1 wn) s
  let old := s.meter n
  let r := { r with wn := none }
  let s := s.mtrqMod r.id fun x => { x with wn := none }
  if code ≠ 3 ∧ !old.isOpen then s.mtrqDone r e 6 n 0 else
  let (ok, t) := (s.modMeter n fun m => s.meterAfter code r b m).checkpointNow
  if !ok then
    let back : Meter := { old with shut := if code = 6 ∨ code = 7 then some (wn, some (s.wheel + 1)) else old.shut }
    (t.modMeter n fun _ => back).mtrqDone r e 10 n 0
  else
    let (extra, nonce) := statementExtra code b
    let (bs, t) := t.signStatement (if code = 3 then 1 else if code = 5 then 2 else if code = 6 then 3 else 4) n wn extra nonce
    (t.writeStatement r bs).mtrqDone r e 0 n (t.meter n).seq

/-- Function-level reset of an owner has completed: the sums of each of its OPEN meters are delivered, and the meter closes with a
statement (R323). The sums of the other meters come in their own time (R329, R332). -/
def forceClose (s : State) (p : Nat) : State :=
  let mine := (s.pkg.meters.filter fun m : Nat × Meter => m.2.isOpen && m.2.owner == some p).map fun m => m.1
  let s := s.dies.foldl (fun s d => s.deliverFor d.1 s.wheel mine.contains) s
  mine.foldl (fun s n =>
    let old := s.meter n
    let (ok, t) := (s.modMeter n fun m => { m with isOpen := false, shut := none, seq := (m.seq + 1) % 2 ^ 32 }).checkpointNow
    if ok then (t.signStatement 5 n s.wheel zero32 zero32).2
    else t.modMeter n fun m => { m with seq := old.seq }) s

end State

/-- SEAL (R312). -/
def execSeal (id : Nat) (s : State) : Out := s.mtrqRun id (.seal id) State.sealImage

/-- UNSEAL (R314). -/
def execUnseal (id : Nat) (s : State) : Out := s.mtrqRun id (.unseal id) State.unsealEntry

/-- OPEN of a meter (R323, R325, R334). -/
def execMeterOpen (id : Nat) (s : State) : Out := s.mtrqRun id (.meterOpen id) fun s => s.signRequest 3 (.meterOpen id)

/-- GRANT (R326). -/
def execMeterGrant (id : Nat) (s : State) : Out := s.mtrqRun id (.meterGrant id) State.grantRegion

/-- SIGN (R323, R325). -/
def execMeterSign (id : Nat) (s : State) : Out := s.mtrqRun id (.meterSign id) fun s => s.signRequest 5 (.meterSign id)

/-- CLOSE of a meter (R323, R325). -/
def execMeterClose (id : Nat) (s : State) : Out := s.mtrqRun id (.meterClose id) fun s => s.signRequest 6 (.meterClose id)

/-- HANDOVER (R323, R325, R334). -/
def execMeterHandover (id : Nat) (s : State) : Out := s.mtrqRun id (.meterHandover id) fun s => s.signRequest 7 (.meterHandover id)

/-- RELEASE (R326). -/
def execMeterRelease (id : Nat) (s : State) : Out := s.mtrqRun id (.meterRelease id) State.releaseMeter

/-- QUERY of a meter (R325). -/
def execMeterQuery (id : Nat) (s : State) : Out := s.mtrqRun id (.meterQuery id) State.queryMeter

/-- METER_SNAPSHOT (R332). -/
def execMeterSnapshot (id : Nat) (s : State) : Out :=
  match s.mtrqFind id with
  | none => .next s
  | some r =>
    match r.wn with
    | none => .next s
    | some wn =>
      let code := (r.block.headD 0).toNat
      .next (s.finishSign code wn (mtrqEvent code id) r r.block)

/-- METER_SUM_DELIVERY (R329). -/
def execMeterSumDelivery (die wheel : Nat) (s : State) : Out := .next (s.deliverSums die (wheel + 1))

/-- CHECKPOINT (R331). -/
def execCheckpoint (s : State) : Out := .next s.checkpointNow.2

end Sys2Proof.Machine
end

