-- ==== Sys2Proof/Machine/EvPower.lean ====
section
/-! DEFINITION. The power controller (15 R358 to R361). -/

namespace Sys2Proof.Machine

/-- The tokens of a die for a period (R358, R360): its floor, its share of the rest in proportion to its demand, or a free
share where no die demanded any, and half of that at 95 degrees or above. -/
def powerShare (rest demand total free temp : Nat) : Nat :=
  let n := 1000 + (if total = 0 then min free (rest / 6) else rest * demand / total)
  if 95 ≤ temp then n / 2 else n

namespace State

/-- A die begins a period: its allotment, its sensor, its gates (R358 to R360). -/
def powerDie (rest total : Nat) (s : State) (d : Nat) : State :=
  let t := Config.sensor s.fresh
  let x := s.die d
  let n := powerShare rest x.spentTok total (Config.idleShare s.fresh) t
  let hot := if 115 ≤ t then x.hot + 1 else 0
  let shut := decide (105 ≤ t)
  let s := { s with fresh := s.fresh + 1 }
  let s := s.modDie d fun x => { x with
    allot := n, demand := x.spentTok, spentTok := 0, temp := t, mgate := shut, vgate := shut, hot }
  if 2 ≤ hot then s.modPkg fun k => { k with shutdown := true } else s

end State

/-- POWER_PERIOD (R358): nothing while the management core does not run. -/
def execPowerPeriod (s : State) : Out :=
  if !s.pkg.mgrun then .next s
  else
    let use := Config.ioTokens s.fresh
    let s := { s with fresh := s.fresh + 1 }.modPkg fun k => { k with ioUse := use }
    let rest := s.pkg.pwrlim * 10 - use - 6000
    let total := ((List.range 6).map fun d => (s.die d).spentTok).foldl (· + ·) 0
    .next ((List.range 6).foldl (State.powerDie rest total) s)

/-- ISSUE_GATE (R359): below a tenth of its allotment the matrix gate closes, and at zero both. -/
def execIssueGate (d : Nat) (s : State) : Out :=
  .next (s.modDie d fun x =>
    let left := x.allot - x.spentTok
    { x with mgate := x.mgate || decide (left < x.allot / 10) || left == 0, vgate := x.vgate || left == 0 })

end Sys2Proof.Machine
end

