-- ==== Sys2Proof/Machine/Vflt.lean ====
section
/-! DEFINITION. The VFLT group: floating lanes, each computed exactly and rounded once (20 R480, R481, R489; 06 R168
to R171, R186). -/

namespace Sys2Proof.Machine

/-- The exact sum of two values in a mode: an exact zero from operands of opposite sign is +0, or −0 under RDN
(R489). -/
def sumIn (mode : Nat) (x y : FpVal) : FpVal × Nat :=
  let r := fpAdd x y
  match r.1, x, y with
  | .fin _ 0 e, .fin nx _ _, .fin ny _ _ => (if nx = ny then r.1 else .fin (mode == 3) 0 e, r.2)
  | _, _, _ => r

/-- Round once, joining the flags of the exact operation (R169). -/
def roundOnce (f : Fmt) (mode : Nat) (v : FpVal × Nat) : Nat × Nat :=
  let r := round f mode false v.1
  (r.1, r.2 ||| v.2)

/-- x × y + c, exactly: 0 × ∞ sets NV whatever c is (R489). -/
def fusedIn (mode : Nat) (x y c : FpVal) : FpVal × Nat :=
  let p := fpMul x y
  let s := sumIn mode p.1 c
  (s.1, s.2 ||| p.2)

/-- A VFLT result over the active lanes, from a function of the lanes of va, vb and the old vd (R489). -/
def fltLanes (c : Core) (d a b : BitVec 5) (t : BitVec 3) (m : BitVec 4) (f : Fmt → Nat → Nat → Nat → Nat → Nat × Nat) :
    VecOut :=
  let w := laneWidth t
  let x := vOf c a
  let y := vOf c b
  let z := vOf c d
  vOut d (mapLanes w (maskOf c m) z fun l => f (laneFmt t) (modOf m) (laneOf x w l) (laneOf y w l) (laneOf z w l))

/-- What a VFLT instruction computes from its core's registers. -/
def vfltCompute (c : Core) : Instr → Option VecOut
  | .vfadd d a b t m => some (fltLanes c d a b t m fun f r x y _ => roundOnce f r (sumIn r (fpDecode f x) (fpDecode f y)))
  | .vfsub d a b t m => some (fltLanes c d a b t m fun f r x y _ => roundOnce f r (sumIn r (fpDecode f x) (fpNeg (fpDecode f y))))
  | .vfmul d a b t m => some (fltLanes c d a b t m fun f r x y _ => roundOnce f r (fpMul (fpDecode f x) (fpDecode f y)))
  | .vfma d a b t m => some (fltLanes c d a b t m fun f r x y z => roundOnce f r (fusedIn r (fpDecode f x) (fpDecode f y) (fpDecode f z)))
  | .vfmin d a b t m => some (fltLanes c d a b t m fun f _ x y _ => (fpMinMax f false x y, 0))
  | .vfmax d a b t m => some (fltLanes c d a b t m fun f _ x y _ => (fpMinMax f true x y, 0))
  | _ => none

/-- VFADD (R489): dispatch. -/
def execVfadd (d a b : BitVec 5) (t : BitVec 3) (m : BitVec 4) (s : State) : Out :=
  s.vecIssue .math (.vfadd d a b t m) State.noLimit

/-- VFSUB (R489): dispatch. -/
def execVfsub (d a b : BitVec 5) (t : BitVec 3) (m : BitVec 4) (s : State) : Out :=
  s.vecIssue .math (.vfsub d a b t m) State.noLimit

/-- VFMUL (R489): dispatch. -/
def execVfmul (d a b : BitVec 5) (t : BitVec 3) (m : BitVec 4) (s : State) : Out :=
  s.vecIssue .math (.vfmul d a b t m) State.noLimit

/-- VFMA (R489): dispatch. -/
def execVfma (d a b : BitVec 5) (t : BitVec 3) (m : BitVec 4) (s : State) : Out :=
  s.vecIssue .math (.vfma d a b t m) State.noLimit

/-- VFMIN (R489): dispatch. -/
def execVfmin (d a b : BitVec 5) (t : BitVec 3) (m : BitVec 4) (s : State) : Out :=
  s.vecIssue .math (.vfmin d a b t m) State.noLimit

/-- VFMAX (R489): dispatch. -/
def execVfmax (d a b : BitVec 5) (t : BitVec 3) (m : BitVec 4) (s : State) : Out :=
  s.vecIssue .math (.vfmax d a b t m) State.noLimit

end Sys2Proof.Machine
end

