-- ==== Sys2Proof/Machine/Vmisc.lean ====
section
/-! DEFINITION. The VMISC group: compares, selections, permutations, broadcasts, conversions, lane moves and
reductions (20 R484 to R486, R488, R490, R496 to R498; 06 R173, R187; 07 R194). -/

namespace Sys2Proof.Machine

/-! ## Conversions (R173) -/

/-- The range of a signed lane of w bits. -/
def laneMin (w : Nat) : Int := -(2 ^ (w - 1) : Nat)
def laneMax (w : Nat) : Int := (2 ^ (w - 1) : Nat) - 1

/-- A floating code to a signed integer of w bits: NaN gives 0, a result outside the range its limit, each with NV
(R173). -/
def fpToInt (f : Fmt) (mode w code : Nat) : Nat × Nat :=
  match fpDecode f code with
  | .nan => (0, flagNV)
  | .inf neg => (wrap w (if neg then laneMin w else laneMax w), flagNV)
  | .fin neg m e =>
    if 0 < m ∧ 80 < (Nat.log2 m : Int) + e then (wrap w (if neg then laneMin w else laneMax w), flagNV)
    else
      let (x, nx) := if (Nat.log2 m : Int) + e < -80 ∧ 0 < m then roundInt mode neg 1 (-80) else roundInt mode neg m e
      if x < laneMin w ∨ laneMax w < x then (wrap w (if neg then laneMin w else laneMax w), flagNV)
      else (wrap w x, if nx then flagNX else 0)

/-- One lane converted from a type to another in a mode (R173, R486). -/
def convert (src dst : BitVec 3) (mode code : Nat) : Nat × Nat :=
  let ws := laneWidth src
  let wd := laneWidth dst
  match Instr.isFloat src, Instr.isFloat dst with
  | true, true => round (laneFmt dst) mode false (fpDecode (laneFmt src) code)
  | true, false => fpToInt (laneFmt src) mode wd code
  | false, true => round (laneFmt dst) mode false (ofInt (sext code ws) 0 false)
  | false, false => (wrap wd (sext code ws), 0)

/-- VCVT (R486): the lanes of part p widen, or all lanes narrow and the rest become zero. -/
def cvtLanes (c : Core) (d a : BitVec 5) (p : BitVec 2) (z t : BitVec 3) (m : BitVec 4) : VecOut :=
  let ws := laneWidth z
  let wd := laneWidth t
  let x := vOf c a
  let n := 1024 / max ws wd
  let start := if ws < wd then p.toNat * n else 0
  vOut d (mapLanes wd (maskOf c m) (vOf c d) fun l => if l < n then convert z t (modOf m) (laneOf x ws (start + l)) else (0, 0))

/-! ## Compares, selections, permutations -/

/-- The condition of VCMP on two lanes (R485): 0 eq, 1 ne, 2 lt, 3 ge. -/
def cmpLane (t : BitVec 3) (m x y : Nat) : Bool :=
  let w := laneWidth t
  let (nan, eq, lt) :=
    if Instr.isFloat t then
      let u := fpDecode (laneFmt t) x
      let v := fpDecode (laneFmt t) y
      (fpIsNaN u || fpIsNaN v, !fpLtNum u v && !fpLtNum v u, fpLtNum u v)
    else (false, x == y, if m % 2 = 1 then decide (x < y) else decide (sext x w < sext y w))
  match m / 2 with
  | 0 => !nan && eq
  | 1 => nan || !eq
  | 2 => !nan && lt
  | _ => !nan && !lt

/-- VCMP (R485, R194): the bits of active lanes, one for a 32-bit lane and two for a 64-bit lane. -/
def cmpLanes (c : Core) (d : BitVec 3) (a b : BitVec 5) (t : BitVec 3) (m : BitVec 4) : VecOut :=
  let w := laneWidth t
  let x := vOf c a
  let y := vOf c b
  let old := mOf c d.toNat
  let mask := maskOf c m
  let bit (i : Nat) : Nat :=
    let l := i * 32 / w
    if laneOn mask w l then b2n (cmpLane t (modOf m) (laneOf x w l) (laneOf y w l)) else b2n (bitN old.toNat i)
  { wr := [(40 + d.toNat, ofLanes 2048 1 ((List.range 32).map bit))] }

/-- VSEL (R498). -/
def selLanes (c : Core) (d a b : BitVec 5) (t n : BitVec 3) : VecOut :=
  let w := laneWidth t
  let x := vOf c a
  vOut d (mapLanes w (mOf c n.toNat) (vOf c b) fun l => (laneOf x w l, 0))

/-- VPERM (R496). -/
def permLanes (c : Core) (d a b : BitVec 5) (t : BitVec 3) (m : BitVec 4) : VecOut :=
  let w := laneWidth t
  let x := vOf c a
  let y := vOf c b
  vOut d (mapLanes w (maskOf c m) (vOf c d) fun l => (laneOf x w (laneOf y w l % (1024 / w)), 0))

/-! ## Reductions (R187, R497) -/

/-- A node of the tree: it passes on a single present input. -/
def redNode (f : Nat → Nat → Nat × Nat) (x y : Option Nat × Nat) : Option Nat × Nat :=
  match x.1, y.1 with
  | some a, some b => let r := f a b; (some r.1, r.2 ||| x.2 ||| y.2)
  | some a, none => (some a, x.2 ||| y.2)
  | none, b => (b, x.2 ||| y.2)

/-- One level of the tree: results 2i and 2i + 1 combine. -/
def redLevel (f : Nat → Nat → Nat × Nat) : List (Option Nat × Nat) → List (Option Nat × Nat)
  | x :: y :: l => redNode f x y :: redLevel f l
  | l => l

/-- The result when every lane is absent (R187). -/
def redEmpty (float : Bool) (op : Nat) (u : Bool) : Nat :=
  if float then (match op with | 1 => infCode fmt32 false | 2 => infCode fmt32 true | _ => 0)
  else match op with
    | 1 => if u then 2 ^ 32 - 1 else 2 ^ 31 - 1
    | 2 => if u then 0 else 2 ^ 31
    | 3 => 2 ^ 32 - 1
    | _ => 0

/-- The operation of a node (R497). -/
def redOp (float : Bool) (op m x y : Nat) : Nat × Nat :=
  if float then
    match op with
    | 0 => roundOnce fmt32 m (sumIn m (fpDecode fmt32 x) (fpDecode fmt32 y))
    | 1 => (fpMinMax fmt32 false x y, 0)
    | _ => (fpMinMax fmt32 true x y, 0)
  else
    let less := if m % 2 = 1 then decide (x < y) else decide (sext x 32 < sext y 32)
    match op with
    | 0 => ((x + y) % 2 ^ 32, 0)
    | 1 => (if less then x else y, 0)
    | 2 => (if less then y else x, 0)
    | 3 => (x &&& y, 0)
    | 4 => (x ||| y, 0)
    | _ => (x ^^^ y, 0)

/-- VRED (R497): the tree of five levels over the present lanes; lanes 1 to 31 become zero. -/
def redLanes (c : Core) (d a o : BitVec 5) (t : BitVec 3) (m : BitVec 4) : VecOut :=
  let x := vOf c a
  let mask := maskOf c m
  let float := Instr.isFloat t
  let f := redOp float o.toNat (modOf m)
  let leaves : List (Option Nat × Nat) := (List.range 32).map fun l => (if laneOn mask 32 l then some (laneOf x 32 l) else none, 0)
  let top := (redLevel f (redLevel f (redLevel f (redLevel f (redLevel f leaves))))).headD (none, 0)
  vOut d (BitVec.ofNat 1024 (top.1.getD (redEmpty float o.toNat (modOf m % 2 == 1))), top.2)

/-! ## The group -/

/-- The word that VEXT returns (R488). -/
def extWord (c : Core) (a : BitVec 5) (l : Nat) (t : BitVec 3) (m : BitVec 4) : Word :=
  let w := laneWidth t
  let x := laneOf (vOf c a) w l
  if Instr.isFloat t ∨ m = 1#4 then word x else signExt x w

/-- What a VMISC instruction computes from its core's registers and the g registers that it captured. -/
def vmiscCompute (c : Core) (g : List Word) : Instr → Option VecOut
  | .vcmp d a b t m => some (cmpLanes c d a b t m)
  | .vsel d a b t n => some (selLanes c d a b t n)
  | .vperm d a b t m => some (permLanes c d a b t m)
  | .vbcst d a t m =>
    some (vOut d (mapLanes (laneWidth t) (maskOf c m) (vOf c d) fun _ => ((lget 0 g a.toNat).toNat % 2 ^ laneWidth t, 0)))
  | .vcvt d a p z t m => some (cvtLanes c d a p z t m)
  | .vext _ a b t m => some { result := extWord c a (lget 0 g b.toNat).toNat t m }
  | .vins d a b t _ =>
    let w := laneWidth t
    let n := (lget 0 g b.toNat).toNat
    some (vOut d (mapLanes w (BitVec.allOnes 32) (vOf c d) fun l =>
      (if l = n then (lget 0 g a.toNat).toNat % 2 ^ w else laneOf (vOf c d) w l, 0)))
  | .vred d a o t m => some (redLanes c d a o t m)
  | _ => none

/-- VEXT and VINS name a lane of the type (R488, R490). -/
def laneLimit (b t : BitVec 3) (s : State) : Option Word := if Instr.laneCount t ≤ (s.g b).toNat then some (s.g b) else none

/-- VCMP (R485): dispatch. -/
def execVcmp (d : BitVec 3) (a b : BitVec 5) (t : BitVec 3) (m : BitVec 4) (s : State) : Out :=
  s.vecIssue .math (.vcmp d a b t m) State.noLimit

/-- VSEL (R498): dispatch. -/
def execVsel (d a b : BitVec 5) (t n : BitVec 3) (s : State) : Out := s.vecIssue .math (.vsel d a b t n) State.noLimit

/-- VPERM (R496): dispatch. -/
def execVperm (d a b : BitVec 5) (t : BitVec 3) (m : BitVec 4) (s : State) : Out :=
  s.vecIssue .vec (.vperm d a b t m) State.noLimit

/-- VBCST (R484): dispatch. -/
def execVbcst (d : BitVec 5) (a t : BitVec 3) (m : BitVec 4) (s : State) : Out :=
  s.vecIssue .vec (.vbcst d a t m) State.noLimit

/-- VCVT (R486): dispatch. -/
def execVcvt (d a : BitVec 5) (p : BitVec 2) (z t : BitVec 3) (m : BitVec 4) (s : State) : Out :=
  s.vecIssue .vec (.vcvt d a p z t m) State.noLimit

/-- VEXT (R488): dispatch; the fibre parks until it retires. -/
def execVext (d : BitVec 3) (a : BitVec 5) (b t : BitVec 3) (m : BitVec 4) (s : State) : Out :=
  s.vecIssue .vec (.vext d a b t m) (laneLimit b t)

/-- VINS (R490): dispatch. -/
def execVins (d : BitVec 5) (a b t : BitVec 3) (m : BitVec 4) (s : State) : Out :=
  s.vecIssue .vec (.vins d a b t m) (laneLimit b t)

/-- VRED (R497): dispatch. -/
def execVred (d a o : BitVec 5) (t : BitVec 3) (m : BitVec 4) (s : State) : Out :=
  s.vecIssue .vec (.vred d a o t m) State.noLimit

end Sys2Proof.Machine
end

