-- ==== Sys2Proof/Machine/Vacc.lean ====
section
/-! DEFINITION. The VACC group: the 64-bit accumulators (20 R482, R494, R495; 06 R185; 07 R200 to R202). -/

namespace Sys2Proof.Machine

/-- The lanes of an accumulator that the mask selects take new values with their flags (R494). -/
def accLanes (c : Core) (d : BitVec 3) (m : BitVec 4) (f : Nat → Nat → Nat × Nat) : VecOut :=
  let old := aOf c d
  let mask := maskOf c m
  let rs := (List.range 32).map fun l => if laneOn mask 32 l then f l (laneOf old 64 l) else (laneOf old 64 l, 0)
  { wr := [(32 + d.toNat, ofLanes 2048 64 (rs.map fun r : Nat × Nat => r.1))], flags := rs.foldl (fun a r => a ||| r.2) 0 }

/-- VMAC (R494, R185). -/
def macLanes (c : Core) (d : BitVec 3) (a b : BitVec 5) (t : BitVec 3) (m : BitVec 4) : VecOut :=
  let x := vOf c a
  let y := vOf c b
  accLanes c d m fun l acc =>
    let u := laneOf x 32 l
    let v := laneOf y 32 l
    if t = 6#3 then roundOnce fmt64 (modOf m) (fusedIn (modOf m) (fpDecode fmt32 u) (fpDecode fmt32 v) (fpDecode fmt64 acc))
    else if modOf m = 1 then ((acc + u * v) % 2 ^ 64, 0)
    else (wrap 64 (sext acc 64 + sext u 32 * sext v 32), 0)

/-- One accumulator lane narrowed to a target type (R202): floating targets round, integer targets saturate. -/
def narrow (t : BitVec 3) (m x : Nat) : Nat × Nat :=
  if Instr.isFloat t then round (laneFmt t) m false (fpDecode fmt64 x)
  else
    let w := laneWidth t
    if m % 2 = 1 then (min x (2 ^ w - 1), 0)
    else (wrap w (max (laneMin w) (min (laneMax w) (sext x 64))), 0)

/-- VNRW (R495, R202): lanes 0 to 31 of the target, the rest zero. -/
def nrwLanes (c : Core) (d : BitVec 5) (a t : BitVec 3) (m : BitVec 4) : VecOut :=
  let x := aOf c a
  vOut d (mapLanes (laneWidth t) (BitVec.allOnes 32) 0 fun l => if l < 32 then narrow t m.toNat (laneOf x 64 l) else (0, 0))

/-- What a VACC instruction computes from its core's registers. -/
def vaccCompute (c : Core) : Instr → Option VecOut
  | .vmac d a b t m => some (macLanes c d a b t m)
  | .vaclr d => some { wr := [(32 + d.toNat, 0)] }
  | .vnrw d a t m => some (nrwLanes c d a t m)
  | _ => none

/-- VMAC (R494): dispatch. -/
def execVmac (d : BitVec 3) (a b : BitVec 5) (t : BitVec 3) (m : BitVec 4) (s : State) : Out :=
  s.vecIssue .math (.vmac d a b t m) State.noLimit

/-- VACLR (R482): dispatch. -/
def execVaclr (d : BitVec 3) (s : State) : Out := s.vecIssue .math (.vaclr d) State.noLimit

/-- VNRW (R495): dispatch. -/
def execVnrw (d : BitVec 5) (a t : BitVec 3) (m : BitVec 4) (s : State) : Out :=
  s.vecIssue .math (.vnrw d a t m) State.noLimit

end Sys2Proof.Machine
end

