-- ==== Sys2Proof/Machine/IntAlu.lean ====
section
/-! DEFINITION. The integer groups INT-R, the immediates and INT-SH (17 R388, R389, R392, R394; 18 R415 to
R417, R436, R445; 19 R452, R453, R466; 20 R501, R502; 06 R191). -/

namespace Sys2Proof.Machine

/-- Write gd and retire with a busy time: what every member of the integer groups does (R388). -/
def State.setAlu (s : State) (d : BitVec 3) (b : Nat) (v : Word) : Out := .next ((s.setG d v).retire b)

/-- The width of CLZ, FFS, POPC and SEXT (R191). -/
def widthOf (w : BitVec 2) : Nat := 8 * 2 ^ w.toNat

/-- Quotient and remainder of R394 and R445 as functions of the operands. -/
def divWord (u : Bool) (a b : Word) : Word :=
  if b = 0 then word (2 ^ 64 - 1)
  else if u then word (a.toNat / b.toNat)
  else if a = word (2 ^ 63) ∧ b = word (2 ^ 64 - 1) then a
  else word (wrap 64 (Int.tdiv a.toInt b.toInt))

def remWord (u : Bool) (a b : Word) : Word :=
  if b = 0 then a
  else if u then word (a.toNat % b.toNat)
  else if a = word (2 ^ 63) ∧ b = word (2 ^ 64 - 1) then 0
  else word (wrap 64 (Int.tmod a.toInt b.toInt))

/-- The high half of the exact product (R417). -/
def mulHigh (u : Bool) (a b : Word) : Word :=
  if u then word (a.toNat * b.toNat / 2 ^ 64) else word (wrap 64 (a.toInt * b.toInt / 2 ^ 64))

/-- Leading zeros of the low w bits (R392). -/
def clzNat (w x : Nat) : Nat := if x = 0 then w else w - 1 - Nat.log2 x

/-- One plus the index of the lowest set bit at or above i, within fuel bits; zero if there is none (R392). -/
def ffsNat : Nat → Nat → Nat → Nat
  | 0, _, _ => 0
  | fuel + 1, i, x => if x % 2 = 1 then i + 1 else ffsNat fuel (i + 1) (x / 2)

/-- The number of set bits among the low fuel bits (R416). -/
def popNat : Nat → Nat → Nat
  | 0, _ => 0
  | fuel + 1, x => x % 2 + popNat fuel (x / 2)

/-- Comparisons of two words (R452). -/
def sltWord (a b : Word) : Bool := decide (a.toInt < b.toInt)
def ultWord (a b : Word) : Bool := decide (a.toNat < b.toNat)

/-- ADD (R388). -/
def execAdd (d a b : BitVec 3) (s : State) : Out :=
  s.guard .scalar (.add d a b) fun s => s.setAlu d 1 (s.g a + s.g b)

/-- SUB (R452). -/
def execSub (d a b : BitVec 3) (s : State) : Out :=
  s.guard .scalar (.sub d a b) fun s => s.setAlu d 1 (s.g a - s.g b)

/-- AND (R388). -/
def execAnd (d a b : BitVec 3) (s : State) : Out :=
  s.guard .scalar (.and d a b) fun s => s.setAlu d 1 (s.g a &&& s.g b)

/-- OR (R416). -/
def execOr (d a b : BitVec 3) (s : State) : Out :=
  s.guard .scalar (.or d a b) fun s => s.setAlu d 1 (s.g a ||| s.g b)

/-- XOR (R501). -/
def execXor (d a b : BitVec 3) (s : State) : Out :=
  s.guard .scalar (.xor d a b) fun s => s.setAlu d 1 (s.g a ^^^ s.g b)

/-- SHL (R452). -/
def execShl (d a b : BitVec 3) (s : State) : Out :=
  s.guard .scalar (.shl d a b) fun s => s.setAlu d 1 (s.g a <<< ((s.g b).toNat % 64))

/-- SHR (R452). -/
def execShr (d a b : BitVec 3) (s : State) : Out :=
  s.guard .scalar (.shr d a b) fun s => s.setAlu d 1 (s.g a >>> ((s.g b).toNat % 64))

/-- SAR (R452). -/
def execSar (d a b : BitVec 3) (s : State) : Out :=
  s.guard .scalar (.sar d a b) fun s => s.setAlu d 1 ((s.g a).sshiftRight ((s.g b).toNat % 64))

/-- SLT (R452). -/
def execSlt (d a b : BitVec 3) (s : State) : Out :=
  s.guard .scalar (.slt d a b) fun s => s.setAlu d 1 (word (b2n (sltWord (s.g a) (s.g b))))

/-- SLTU (R452). -/
def execSltu (d a b : BitVec 3) (s : State) : Out :=
  s.guard .scalar (.sltu d a b) fun s => s.setAlu d 1 (word (b2n (ultWord (s.g a) (s.g b))))

/-- MUL (R416). -/
def execMul (d a b : BitVec 3) (s : State) : Out :=
  s.guard .scalar (.mul d a b) fun s => s.setAlu d 3 (s.g a * s.g b)

/-- MIN (R416). -/
def execMin (d a b : BitVec 3) (u : BitVec 1) (s : State) : Out :=
  s.guard .scalar (.min d a b u) fun s => s.setAlu d 1 (if (if u = 1#1 then ultWord (s.g a) (s.g b) else sltWord (s.g a) (s.g b)) then s.g a else s.g b)

/-- MAX (R416). -/
def execMax (d a b : BitVec 3) (u : BitVec 1) (s : State) : Out :=
  s.guard .scalar (.max d a b u) fun s => s.setAlu d 1 (if (if u = 1#1 then ultWord (s.g b) (s.g a) else sltWord (s.g b) (s.g a)) then s.g a else s.g b)

/-- MULH (R417). -/
def execMulh (d a b : BitVec 3) (u : BitVec 1) (s : State) : Out :=
  s.guard .scalar (.mulh d a b u) fun s => s.setAlu d 3 (mulHigh (u == 1#1) (s.g a) (s.g b))

/-- DIV (R394). -/
def execDiv (d a b : BitVec 3) (u : BitVec 1) (s : State) : Out :=
  s.guard .scalar (.div d a b u) fun s => s.setAlu d 34 (divWord (u == 1#1) (s.g a) (s.g b))

/-- REM (R445). -/
def execRem (d a b : BitVec 3) (u : BitVec 1) (s : State) : Out :=
  s.guard .scalar (.rem d a b u) fun s => s.setAlu d 34 (remWord (u == 1#1) (s.g a) (s.g b))

/-- CLZ (R392). -/
def execClz (d a : BitVec 3) (w : BitVec 2) (s : State) : Out :=
  s.guard .scalar (.clz d a w) fun s => s.setAlu d 1 (word (clzNat (widthOf w) ((s.g a).toNat % 2 ^ widthOf w)))

/-- FFS (R392). -/
def execFfs (d a : BitVec 3) (w : BitVec 2) (s : State) : Out :=
  s.guard .scalar (.ffs d a w) fun s => s.setAlu d 1 (word (ffsNat (widthOf w) 0 ((s.g a).toNat % 2 ^ widthOf w)))

/-- POPC (R416). -/
def execPopc (d a : BitVec 3) (w : BitVec 2) (s : State) : Out :=
  s.guard .scalar (.popc d a w) fun s => s.setAlu d 1 (word (popNat (widthOf w) ((s.g a).toNat % 2 ^ widthOf w)))

/-- SEXT (R452). -/
def execSext (d a : BitVec 3) (w : BitVec 2) (s : State) : Out :=
  s.guard .scalar (.sext d a w) fun s => s.setAlu d 1 (signExt (s.g a).toNat (widthOf w))

/-- ADDI (R389). -/
def execAddi (d a : BitVec 3) (i : BitVec 20) (s : State) : Out :=
  s.guard .scalar (.addi d a i) fun s => s.setAlu d 1 (s.g a + i.signExtend 64)

/-- ANDI (R389). -/
def execAndi (d a : BitVec 3) (i : BitVec 20) (s : State) : Out :=
  s.guard .scalar (.andi d a i) fun s => s.setAlu d 1 (s.g a &&& i.signExtend 64)

/-- ORI (R436). -/
def execOri (d a : BitVec 3) (i : BitVec 20) (s : State) : Out :=
  s.guard .scalar (.ori d a i) fun s => s.setAlu d 1 (s.g a ||| i.signExtend 64)

/-- XORI (R502). -/
def execXori (d a : BitVec 3) (i : BitVec 20) (s : State) : Out :=
  s.guard .scalar (.xori d a i) fun s => s.setAlu d 1 (s.g a ^^^ i.signExtend 64)

/-- SLTI (R466). -/
def execSlti (d a : BitVec 3) (i : BitVec 20) (s : State) : Out :=
  s.guard .scalar (.slti d a i) fun s => s.setAlu d 1 (word (b2n (sltWord (s.g a) (i.signExtend 64))))

/-- LUI (R415). -/
def execLui (d : BitVec 3) (i : BitVec 20) (s : State) : Out :=
  s.guard .scalar (.lui d i) fun s => s.setAlu d 1 (signExt (i.toNat * 2 ^ 12) 32)

/-- SHLI (R453). -/
def execShli (d a : BitVec 3) (n : BitVec 6) (s : State) : Out :=
  s.guard .scalar (.shli d a n) fun s => s.setAlu d 1 (s.g a <<< n.toNat)

/-- SHRI (R453). -/
def execShri (d a : BitVec 3) (n : BitVec 6) (s : State) : Out :=
  s.guard .scalar (.shri d a n) fun s => s.setAlu d 1 (s.g a >>> n.toNat)

/-- SARI (R453). -/
def execSari (d a : BitVec 3) (n : BitVec 6) (s : State) : Out :=
  s.guard .scalar (.sari d a n) fun s => s.setAlu d 1 ((s.g a).sshiftRight n.toNat)

end Sys2Proof.Machine
end

