-- ==== Sys2Proof/Machine/Vint.lean ====
section
/-! DEFINITION. The VINT group: integer lanes (20 R480, R481, R483; 06 R191; 07 R194). -/

namespace Sys2Proof.Machine

/-- VSH of R483: direction 0 left, 1 right, 2 right arithmetically, by y modulo the lane width. -/
def shiftLane (x y w m : Nat) : Nat :=
  let n := y % w
  match m / 2 with
  | 0 => x * 2 ^ n % 2 ^ w
  | 1 => x / 2 ^ n
  | _ => wrap w (sext x w / 2 ^ n)

/-- A VINT result over the active lanes, from a function of two lanes, the width and the modifier (R483). -/
def intLanes (c : Core) (d a b : BitVec 5) (t : BitVec 3) (m : BitVec 4) (f : Nat → Nat → Nat → Nat → Nat) : VecOut :=
  let w := laneWidth t
  let x := vOf c a
  let y := vOf c b
  vOut d (mapLanes w (maskOf c m) (vOf c d) fun l => (f (laneOf x w l) (laneOf y w l) w (modOf m), 0))

/-- What a VINT instruction computes from its core's registers. -/
def vintCompute (c : Core) : Instr → Option VecOut
  | .vadd d a b t m => some (intLanes c d a b t m (fun x y w _ => (x + y) % 2 ^ w))
  | .vsub d a b t m => some (intLanes c d a b t m (fun x y w _ => (x + 2 ^ w - y) % 2 ^ w))
  | .vmul d a b t m => some (intLanes c d a b t m (fun x y w _ => x * y % 2 ^ w))
  | .vmin d a b t m => some (intLanes c d a b t m (fun x y w m => if m % 2 = 1 then min x y else if sext y w < sext x w then y else x))
  | .vmax d a b t m => some (intLanes c d a b t m (fun x y w m => if m % 2 = 1 then max x y else if sext x w < sext y w then y else x))
  | .vand d a b t m => some (intLanes c d a b t m (fun x y _ _ => x &&& y))
  | .vor d a b t m => some (intLanes c d a b t m (fun x y _ _ => x ||| y))
  | .vxor d a b t m => some (intLanes c d a b t m (fun x y _ _ => x ^^^ y))
  | .vsh d a b t m => some (intLanes c d a b t m shiftLane)
  | .vclz d a t m => some (intLanes c d a 0 t m (fun x _ w _ => clzNat w x))
  | .vffs d a t m => some (intLanes c d a 0 t m (fun x _ w _ => ffsNat w 0 x))
  | .vpopc d a t m => some (intLanes c d a 0 t m (fun x _ w _ => popNat w x))
  | _ => none

/-- VADD (R483): dispatch. -/
def execVadd (d a b : BitVec 5) (t : BitVec 3) (m : BitVec 4) (s : State) : Out :=
  s.vecIssue .vec (.vadd d a b t m) State.noLimit

/-- VSUB (R483): dispatch. -/
def execVsub (d a b : BitVec 5) (t : BitVec 3) (m : BitVec 4) (s : State) : Out :=
  s.vecIssue .vec (.vsub d a b t m) State.noLimit

/-- VMUL (R483): dispatch. -/
def execVmul (d a b : BitVec 5) (t : BitVec 3) (m : BitVec 4) (s : State) : Out :=
  s.vecIssue .vec (.vmul d a b t m) State.noLimit

/-- VMIN (R483): dispatch. -/
def execVmin (d a b : BitVec 5) (t : BitVec 3) (m : BitVec 4) (s : State) : Out :=
  s.vecIssue .vec (.vmin d a b t m) State.noLimit

/-- VMAX (R483): dispatch. -/
def execVmax (d a b : BitVec 5) (t : BitVec 3) (m : BitVec 4) (s : State) : Out :=
  s.vecIssue .vec (.vmax d a b t m) State.noLimit

/-- VAND (R483): dispatch. -/
def execVand (d a b : BitVec 5) (t : BitVec 3) (m : BitVec 4) (s : State) : Out :=
  s.vecIssue .vec (.vand d a b t m) State.noLimit

/-- VOR (R483): dispatch. -/
def execVor (d a b : BitVec 5) (t : BitVec 3) (m : BitVec 4) (s : State) : Out :=
  s.vecIssue .vec (.vor d a b t m) State.noLimit

/-- VXOR (R483): dispatch. -/
def execVxor (d a b : BitVec 5) (t : BitVec 3) (m : BitVec 4) (s : State) : Out :=
  s.vecIssue .vec (.vxor d a b t m) State.noLimit

/-- VSH (R483): dispatch. -/
def execVsh (d a b : BitVec 5) (t : BitVec 3) (m : BitVec 4) (s : State) : Out :=
  s.vecIssue .vec (.vsh d a b t m) State.noLimit

/-- VCLZ (R483): dispatch. -/
def execVclz (d a : BitVec 5) (t : BitVec 3) (m : BitVec 4) (s : State) : Out :=
  s.vecIssue .vec (.vclz d a t m) State.noLimit

/-- VFFS (R483): dispatch. -/
def execVffs (d a : BitVec 5) (t : BitVec 3) (m : BitVec 4) (s : State) : Out :=
  s.vecIssue .vec (.vffs d a t m) State.noLimit

/-- VPOPC (R483): dispatch. -/
def execVpopc (d a : BitVec 5) (t : BitVec 3) (m : BitVec 4) (s : State) : Out :=
  s.vecIssue .vec (.vpopc d a t m) State.noLimit

end Sys2Proof.Machine
end

