-- ==== Sys2Proof/Machine/Vsfu.lean ====
section
/-! DEFINITION. The VSFU group on F32 lanes (20 R487; 06 R189, R190). Each function's true value is bracketed by its two
FP32 neighbours; which of the two is returned is free, up to the monotonicity of R189 (log 8). The bracketing uses
fixed-point values of 400 bits that lie below the true value by less than any FP32 boundary is near it (log 8). -/

namespace Sys2Proof.Machine

/-- ⌊ln 2 × 2^400⌋. -/
def ln2Fix : Nat := 0xb17217f7d1cf79abc9e3b39803f2f6af40f343267298b62d8a0d175b8baafa2be7b876206debac98559552fb4afa1b10ed2e

/-- Terms of the exponential series of t / 2^400 from term n, which is `term`, in units of 2^-400, rounded down. -/
def expTerms (t : Nat) : Nat → Nat → Nat → Nat
  | 0, _, _ => 0
  | fuel + 1, n, term => term + expTerms t fuel (n + 1) (term * t / 2 ^ 400 / n)

/-- e^(t / 2^400) in units of 2^-400, for t below 2^400. -/
def expFix (t : Nat) : Nat := expTerms t 100 1 (2 ^ 400)

/-- The bits of log2 of y / 2^600, 1 ≤ y / 2^600 < 2, most significant first, as a fraction of n bits. -/
def log2Bits : Nat → Nat → Nat → Nat
  | 0, _, acc => acc
  | n + 1, y, acc =>
    let z := y * y / 2 ^ 600
    if 2 ^ 601 ≤ z then log2Bits n (z / 2) (2 * acc + 1) else log2Bits n z (2 * acc)

/-- Square a value in units of 2^-400 n times. -/
def squareFix : Nat → Nat → Nat
  | 0, x => x
  | n + 1, x => squareFix n (x * x / 2 ^ 400)

/-- The greatest natural number whose square is at most n, from a bound of bits. -/
def sqrtFloor (n : Nat) : Nat → Nat → Nat
  | 0, acc => acc
  | k + 1, acc => let t := acc + 2 ^ k; if t * t ≤ n then sqrtFloor n k t else sqrtFloor n k acc

/-- The next FP32 code above a finite code that is no NaN and not +∞. -/
def fp32Next (c : Nat) : Nat :=
  if c = 2 ^ 31 then 1 else if bitN c 31 then c - 1 else c + 1

/-- The greatest FP32 value that does not exceed a value (RDN, R168). -/
def fp32Below (v : FpVal) : Nat := (round fmt32 3 false v).1

/-- A non-zero FP32 operand by its place in rising order. -/
def fp32Order (c : Nat) : Int := if bitN c 31 then -((c % 2 ^ 31 : Nat) : Int) else (c : Int)

/-- The result of a special function whose true value lies strictly between a lower neighbour and the next FP32 value:
one of the two, with NX; UF where the magnitude lies below 2^-126 (R169, R189); OF where it passes the range. -/
def sfuPick (fn : Nat) (falling : Bool) (x lower : Nat) : Nat × Nat :=
  let up := decide (Config.sfuSplit fn lower ≤ fp32Order x) != falling
  let r := if up then (if lower = 2 ^ 31 then 1 else fp32Next lower) else lower
  let near := if bitN lower 31 then fp32Next lower % 2 ^ 31 else lower
  (r, flagNX + (if near < 0x800000 then flagUF else 0) + (if r % 2 ^ 31 = 0x7F800000 then flagOF else 0))

/-- 2^(m × 2^e) for a finite operand, exact for an integer (R189, R190). -/
def sfuExp2 (x : Nat) (neg : Bool) (m : Nat) (e : Int) : Nat × Nat :=
  if m = 0 then (0x3F800000, 0)
  else
    let lg : Int := (Nat.log2 m : Nat) + e
    if !neg ∧ 7 ≤ lg then (infCode fmt32 false, flagOF + flagNX)
    else if neg ∧ 8 ≤ lg then sfuPick 0 false x 0
    else if lg < -40 then sfuPick 0 false x (if neg then 0x3F7FFFFF else 0x3F800000)
    else
      let fixed : Int := ofSign neg (m * 2 ^ (e + 200).toNat)
      let n := fixed / 2 ^ 200
      let f := (fixed % 2 ^ 200).toNat
      if f = 0 then
        (if n < -149 then sfuPick 0 false x 0 else (fp32Below (.fin false 1 n), 0))
      else sfuPick 0 false x (fp32Below (.fin false (expFix (f * ln2Fix / 2 ^ 200)) (n - 400)))
where
  ofSign (neg : Bool) (n : Nat) : Int := if neg then -(n : Int) else n

/-- log2 of a positive finite operand, exact for a power of two. -/
def sfuLog2 (x m : Nat) (e : Int) : Nat × Nat :=
  let k := Nat.log2 m
  let n : Int := k + e
  if m = 2 ^ k then (fp32Below (if n < 0 then .fin true n.natAbs 0 else .fin false n.natAbs 0), 0)
  else
    let v : Int := n * 2 ^ 160 + (log2Bits 160 (m * 2 ^ (600 - k)) 0 : Nat)
    sfuPick 1 false x (fp32Below (if v < 0 then .fin true v.natAbs (-160) else .fin false v.natAbs (-160)))

/-- The reciprocal of a finite non-zero operand, exact for a power of two within the range. -/
def sfuRcp (x : Nat) (neg : Bool) (m : Nat) (e : Int) : Nat × Nat :=
  let k := Nat.log2 m
  let lg : Int := k + e
  if lg < -128 then (infCode fmt32 neg, flagOF + flagNX)
  else if m = 2 ^ k ∧ -128 < lg then ((round fmt32 0 false (.fin neg 1 (-lg))).1, 0)
  else
    let big := if m = 2 ^ k then 0x7F7FFFFF else fp32Below (.fin false (2 ^ 300 / m) (-e - 300))
    sfuPick 2 true x (if neg then fp32Next big + 2 ^ 31 else big)

/-- The reciprocal square root of a positive finite operand, exact for a power of four. -/
def sfuRsq (x m : Nat) (e : Int) : Nat × Nat :=
  let k := Nat.log2 m
  let lg : Int := k + e
  if m = 2 ^ k ∧ lg % 2 = 0 then ((round fmt32 0 false (.fin false 1 (-(lg / 2)))).1, 0)
  else
    let (m', e') := if e % 2 = 0 then (m, e) else (2 * m, e - 1)
    sfuPick 3 true x (fp32Below (.fin false (sqrtFloor (2 ^ 400 / m') 201 0) (-(e' / 2) - 200)))

/-- tanh of a positive finite operand. -/
def sfuTanh (x m : Nat) (e : Int) : Nat × Nat :=
  let lg : Int := (Nat.log2 m : Nat) + e
  if 4 ≤ lg then sfuPick 4 false x 0x3F7FFFFF
  else if lg < -40 then sfuPick 4 false x (x - 1)
  else
    let ex := squareFix 6 (expFix (m * 2 ^ (e + 395).toNat))
    sfuPick 4 false x (fp32Below (.fin false ((ex - 2 ^ 400) * 2 ^ 300 / (ex + 2 ^ 400)) (-300)))

/-- A special function of an FP32 code (R189, R190): 0 VEXP2, 1 VLOG2, 2 VRCP, 3 VRSQ, 4 VTANH. -/
def sfu (fn x : Nat) : Nat × Nat :=
  match fn, fpDecode fmt32 x with
  | _, .nan => (canonNaN fmt32, 0)
  | 0, .inf neg => (if neg then 0 else infCode fmt32 false, 0)
  | 0, .fin neg m e => sfuExp2 x neg m e
  | 1, .inf neg => if neg then (canonNaN fmt32, flagNV) else (infCode fmt32 false, 0)
  | 1, .fin neg m e =>
    if m = 0 then (infCode fmt32 true, flagDZ) else if neg then (canonNaN fmt32, flagNV) else sfuLog2 x m e
  | 2, .inf neg => (b2n neg * 2 ^ 31, 0)
  | 2, .fin neg m e => if m = 0 then (infCode fmt32 neg, flagDZ) else sfuRcp x neg m e
  | 3, .inf neg => if neg then (canonNaN fmt32, flagNV) else (0, 0)
  | 3, .fin neg m e =>
    if m = 0 then (infCode fmt32 neg, flagDZ) else if neg then (canonNaN fmt32, flagNV) else sfuRsq x m e
  | _, .inf neg => (b2n neg * 2 ^ 31 + 0x3F800000, 0)
  | _, .fin neg m e =>
    if m = 0 then (x, 0)
    else let r := sfuTanh (x % 2 ^ 31) m e; (r.1 + b2n neg * 2 ^ 31, r.2)

/-- A VSFU result over the active lanes (R487). -/
def sfuLanes (c : Core) (d a : BitVec 5) (m : BitVec 4) (fn : Nat) : VecOut :=
  let x := vOf c a
  vOut d (mapLanes 32 (maskOf c m) (vOf c d) fun l => sfu fn (laneOf x 32 l))

/-- What a VSFU instruction computes from its core's registers. -/
def vsfuCompute (c : Core) : Instr → Option VecOut
  | .vexp2 d a _ m => some (sfuLanes c d a m 0)
  | .vlog2 d a _ m => some (sfuLanes c d a m 1)
  | .vrcp d a _ m => some (sfuLanes c d a m 2)
  | .vrsq d a _ m => some (sfuLanes c d a m 3)
  | .vtanh d a _ m => some (sfuLanes c d a m 4)
  | _ => none

/-- VEXP2 (R487): dispatch. -/
def execVexp2 (d a : BitVec 5) (t : BitVec 3) (m : BitVec 4) (s : State) : Out :=
  s.vecIssue .math (.vexp2 d a t m) State.noLimit

/-- VLOG2 (R487): dispatch. -/
def execVlog2 (d a : BitVec 5) (t : BitVec 3) (m : BitVec 4) (s : State) : Out :=
  s.vecIssue .math (.vlog2 d a t m) State.noLimit

/-- VRCP (R487): dispatch. -/
def execVrcp (d a : BitVec 5) (t : BitVec 3) (m : BitVec 4) (s : State) : Out :=
  s.vecIssue .math (.vrcp d a t m) State.noLimit

/-- VRSQ (R487): dispatch. -/
def execVrsq (d a : BitVec 5) (t : BitVec 3) (m : BitVec 4) (s : State) : Out :=
  s.vecIssue .math (.vrsq d a t m) State.noLimit

/-- VTANH (R487): dispatch. -/
def execVtanh (d a : BitVec 5) (t : BitVec 3) (m : BitVec 4) (s : State) : Out :=
  s.vecIssue .math (.vtanh d a t m) State.noLimit

end Sys2Proof.Machine
end

