-- ==== Sys2Proof/Machine/EvVec.lean ====
section
/-! DEFINITION. The start and the retirement of dispatched instructions (07 R195 to R198, R219, R220; 06 R172; 10 R262,
R263; 20 R481). -/

namespace Sys2Proof.Machine

/-- What an instruction that reads and writes registers alone computes. -/
def vecCompute (c : Core) (g : List Word) (i : Instr) : Option VecOut :=
  match vintCompute c i with
  | some o => some o
  | none => match vfltCompute c i with
    | some o => some o
    | none => match vsfuCompute c i with
      | some o => some o
      | none => match vmiscCompute c g i with
        | some o => some o
        | none => vaccCompute c i

namespace State

/-- The start of a register instruction (R219): its results stand in what runs until it retires. -/
def startReg (s : State) (c : CoreId) (d : Disp) : Option State :=
  let x := s.core c
  (vecCompute x d.g d.i).map fun o =>
    let s := if isSfu d.i then s.modCore c fun x => { x with sfuFree := s.clock + 2 } else s
    s.beginDisp c { d with startAt := s.clock, doneAt := s.clock + vecLatency d.i, wr := o.wr, flags := o.flags, result := o.result }

/-- A register that an instruction reads holds an uncorrectable error, and no started instruction writes it (R268, R481). -/
def readsError (x : Core) (i : Instr) : Bool :=
  (regsRead i).any fun k => x.regUe.contains k && !x.running.any fun d => (regsDest d.i).contains k

/-- The head of a core's dispatch queue starts, if it may in this cycle (R195, R219, R220). -/
def startHead (s : State) (c : CoreId) (d : Disp) : Option State :=
  let x := s.core c
  if (s.die c.die).vgate ∨ !(regsRead d.i).all (sourceReady x s.clock d.i) then none
  else if readsError x d.i then some (s.beginDisp c { d with startAt := s.clock, doneAt := s.clock + 1, fault := some (8, 0) })
  else if isGangOp d.i then s.enterGang c d
  else if isMtx d.i then s.startSlot c d
  else match vmemOf d.i, shapeOp d with
    | some (k, n), _ => if x.memFree ≤ s.clock then s.startVmem c d k n else none
    | none, some o => if x.sfuFree ≤ s.clock then s.startShape c d o else none
    | none, none => if isSfu d.i ∧ s.clock < x.sfuFree then none else s.startReg c d

/-- A form that reads or writes memory: these keep their order among themselves (R225, R492). -/
def memForm (d : Disp) : Bool := (vmemOf d.i).isSome || (shapeOp d).isSome

/-- The next instruction to retire in this cycle, in dispatch order: it is done, and nothing of those before it can still
fault (R198). One that faults waits until all before it have retired. -/
def retireNext (clock : Nat) : List Disp → List Disp → Option Disp
  | _, [] => none
  | before, d :: l =>
    if d.reads == 0 && decide (d.doneAt ≤ clock) && before.all (fun e => e.reads == 0 && e.fault.isNone)
        && (d.fault.isNone || before.isEmpty) && (!memForm d || before.all fun e => !memForm e)
    then some d else retireNext clock (before ++ [d]) l

/-- What runs after an instruction has retired: an earlier one that is still running no longer writes what this one has
written (R195). -/
def afterRetire (d : Disp) : List Disp → List Disp
  | [] => []
  | e :: l =>
    if e.seq = d.seq then l
    else { e with wr := e.wr.filter fun w : Nat × BitVec 2048 => (tfind d.wr w.1).isNone } :: afterRetire d l

/-- An instruction retires (R172, R197, R198): its registers, its memory writes, its flags; VEXT and MSTAT return to
their fibre. -/
def retireOne (s : State) (c : CoreId) (d : Disp) : State :=
  let f := dispFibre c d
  let (d, cap) := match shapeOp d with
    | some o => (shapeResult d o, o.dc)
    | none => (d, match vmemOf d.i with | some (k, _) => lget .null d.k k.toNat | none => .null)
  let s := s.modCore c fun x =>
    let wr := dispWr d
    let x := { x with running := afterRetire d x.running, fpst := x.fpst ||| d.flags, regUe := x.regUe.filter fun k => (tfind wr k).isNone }
    wr.foldl (fun x w => setFileReg x w.1 w.2) x
  let s := if d.frees then s.setSlot c (slotOf d) .free else s
  let s := (d.out.foldl (writeLane c d cap) s).ringState c d.seq 2
  let s := match (s.fib f).cont with
    | .dispatch g n => if n = d.seq then (s.setGOf f g d.result).complete f else s
    | _ => s
  (s.wakeEng c).recheck f

/-- Retire what can retire in this cycle; a fault discards its instruction and what follows, once the gang operations that its
fibre dispatched before it are complete (R198). -/
def retireAll (c : CoreId) : Nat → State → State
  | 0, s => s
  | n + 1, s =>
    match retireNext s.clock [] (s.core c).running with
    | none => s
    | some d =>
      match d.fault with
      | some (sub, a) => if s.gangPending (dispFibre c d) d.seq then s else ((s.vecFault c d sub a).wakeEng c).recheck (dispFibre c d)
      | none => retireAll c n (s.retireOne c d)

/-- The parked fibres of a core are tested again, after a discard (R227, R229, R524). -/
def recheckCore (s : State) (c : CoreId) : State :=
  (s.fibres.filter fun f => f.1.core == c && f.2.status == .parked).foldl (fun s f => s.recheck f.1) s

end State

/-- DISPATCH_START (R195, R219, R220): nothing starts on a stopped core. -/
def execDispatchStart (c : CoreId) (s : State) : Out :=
  if s.stopped (s.partOf c) then .next s
  else match (s.core c).disp with
    | [] => .next s
    | d :: _ =>
      match s.startHead c d with
      | some t => .next t
      | none => .next s

/-- DISPATCH_RETIRE (R172, R198, R219); what waits for a retirement or a discard is tested again (R524). -/
def execDispatchRetire (c : CoreId) (s : State) : Out :=
  if s.stopped (s.partOf c) then .next s else .next ((State.retireAll c 17 s).recheckCore c)

end Sys2Proof.Machine
end

