-- ==== Sys2Proof/Machine/EvReconfig.lean ====
section
/-! DEFINITION. Reconfiguration and function-level reset (11 R281 to R293; 04 R105, R118; 12 R314; 13 R323). -/

namespace Sys2Proof.Machine

/-! ## The list (R285) -/

/-- An operand byte, halfword or word of an entry, by its byte number in the entry. -/
def rcByte (e : RcEntry) (i : Nat) : Nat := sliceNat e.data (i - 4) 1
def rcHalf (e : RcEntry) (i : Nat) : Nat := sliceNat e.data (i - 4) 2
def rcWord (e : RcEntry) : Nat := sliceNat e.data 4 4

/-- An entry in 32 bytes. -/
def rcEntryOf (bs : List Byte) : RcEntry :=
  { op := sliceNat bs 0 1, defer := bitN (sliceNat bs 1 1) 0, p := sliceNat bs 2 1, data := bs.drop 4 }

/-- The operand bytes of an entry that its OP uses, as spans (R285). -/
def rcUsed (op : Nat) : List (Nat × Nat) :=
  match op with
  | 3 => [(4, 4)]
  | 4 => [(4, 2)]
  | 5 => [(4, 4)]
  | 6 => [(4, 1), (8, 4)]
  | 7 => [(4, 1)]
  | 8 => [(8, 4)]
  | 9 => [(4, 1), (8, 2)]
  | 10 => [(8, 16)]
  | _ => []

/-- FORMAT of R288 for the 32 bytes of an entry. -/
def rcFormat (bs : List Byte) : Bool :=
  let op := sliceNat bs 0 1
  let used (i : Nat) : Bool := (rcUsed op).any fun u => decide (u.1 ≤ i) && decide (i < u.1 + u.2)
  op == 0 || decide (10 < op) || decide (1 < sliceNat bs 1 1) || decide (47 < sliceNat bs 2 1) || sliceNat bs 3 1 != 0
    || (List.range 28).any (fun i => !used (i + 4) && lget 0 bs (i + 4) != 0)
    || (op == 5 && decide (1 < sliceNat bs 7 1))

/-- RANGE of R288. -/
def rcRange (e : RcEntry) : Bool :=
  match e.op with
  | 3 => decide (47 < rcByte e 4) || decide (31 < rcByte e 5) || decide (1535 < rcHalf e 6)
  | 4 => decide (47 < rcByte e 4) || decide (31 < rcByte e 5)
  | 5 => decide (5 < rcByte e 4) || rcByte e 6 == 0 || decide (80 < rcByte e 5 + rcByte e 6)
  | 6 =>
    let port := rcByte e 4
    if port < 6 then decide (46080 < rcWord e) else decide (port < 8) || decide (16 < port) || decide (900 < rcWord e)
  | 7 => rcByte e 4 == 0 || decide (64 < rcByte e 4)
  | 8 => decide (2 ^ 24 ≤ rcWord e)
  | 9 => decide (5 < rcByte e 4) || decide (4096 < rcHalf e 8)
  | 10 => sliceNat e.data 4 8 % 4096 != 0 || sliceNat e.data 12 8 % 4096 != 0
  | _ => false

/-- The tile that an entry names. -/
def rcTile (e : RcEntry) : Nat := 48 * rcByte e 5 + rcByte e 4

/-- The granules that an entry names. -/
def rcGranules (e : RcEntry) : List Nat := (List.range (rcByte e 6)).map fun i => rcByte e 5 + i

/-- An entry whose time is a kernel boundary on one die (R289): the die. -/
def rcDie (e : RcEntry) : Option Nat :=
  match e.op with
  | 3 => some (tileDie (rcTile e))
  | 4 => some (tileDie (rcTile e))
  | 5 => some (rcByte e 4)
  | 9 => some (rcByte e 4)
  | _ => none

namespace State

/-! ## What an entry changes (R283, R285) -/

/-- The entry as it stands in the books: tags, tables, owners and shares, without the work of a removal or a release. -/
def rcBook (s : State) (e : RcEntry) : State :=
  let part (h : Part → Part) : State := s.modPart e.p h
  match e.op with
  | 1 => part fun p => { p with active := true, tab := [], residue := 1, budget := 0, hbm := [], ports := [], shares := [],
                                winBase := 0, winLen := 0 }
  | 2 => part fun p => { p with active := false, residue := 1, budget := 0, hbm := [], ports := [], shares := [], winBase := 0, winLen := 0 }
  | 3 => (part fun p => { p with tab := tset p.tab (rcHalf e 6) (rcTile e) }).modTile (rcTile e) fun t => { t with ptag := e.p }
  | 4 => (part fun p => { p with tab := p.tab.filter fun x => x.2 != rcTile e }).modTile (rcTile e) fun t => { t with ptag := 63 }
  | 5 => s.modDie (rcByte e 4) fun d =>
      let left := d.granules.filter fun x => !(rcGranules e).contains x.1
      { d with granules := if rcByte e 7 = 1 then left ++ (rcGranules e).map fun g => (g, e.p) else left }
  | 6 => part fun p => if rcByte e 4 < 6 then { p with hbm := tset p.hbm (rcByte e 4) (rcWord e) }
      else { p with ports := tset p.ports (rcByte e 4 - 8) (rcWord e) }
  | 7 => part fun p => { p with residue := rcByte e 4 }
  | 8 => part fun p => { p with budget := rcWord e }
  | 9 => part fun p => { p with shares := tset p.shares (rcByte e 4) (rcHalf e 8) }
  | 10 => part fun p => { p with winBase := sliceNat e.data 4 8, winLen := sliceNat e.data 12 8 }
  | _ => s

/-! ## The checks (R286, R288): against the books that the earlier entries leave, and those of Wa -/

/-- A partition has an in-flight task on some die: one dispatched and not completed (R101, R105). -/
def inFlight (s : State) (p : Nat) : Bool := (List.range 6).any fun d => !s.boundary p d

/-- A partition holds what DESTROY forbids (R285). -/
def holdsSome (s : State) (p : Nat) : Bool :=
  !(s.part p).tab.isEmpty || !(s.tilesOf p).isEmpty || s.dies.any (fun d => d.2.granules.any fun g => g.2 == p)
    || (s.part p).hbm.any (fun x => x.2 != 0) || (s.part p).ports.any (fun x => x.2 != 0)

/-- The books against which an entry is checked: those of Wa, those that the earlier entries of its list leave, and those with the
pending entries of earlier lists, too, whose resources count as taken (R286). -/
structure Books where
  now : State
  mine : State
  all : State

/-- OWNED of R288. -/
def rcOwned (b : Books) (e : RcEntry) : Bool :=
  match e.op with
  | 3 =>
    let n := rcTile e
    let tag := (b.now.tile n).ptag
    (b.all.tile n).ptag != 63 || (b.mine.tile n).ptag != 63 || (tag != 63 && !(tag == e.p && e.defer))
      || (tfind (b.all.part e.p).tab (rcHalf e 6)).isSome || (tfind (b.mine.part e.p).tab (rcHalf e 6)).isSome
      || ((tfind (b.now.part e.p).tab (rcHalf e 6)).isSome && !e.defer)
  | 4 => (b.mine.tile (rcTile e)).ptag != e.p
  | 5 =>
    let own (s : State) (g : Nat) : Option Nat := tfind (s.die (rcByte e 4)).granules g
    (rcGranules e).any fun g =>
      if rcByte e 7 = 1 then [b.now, b.mine, b.all].any fun s => (own s g).any (· != e.p) else own b.mine g != some e.p
  | _ => false

/-- The sum of a share over the other partitions, with the greatest of the books for each. -/
def rcSum (b : Books) (p : Nat) (share : Part → Nat) : Nat :=
  (List.range 48).foldl (fun n q =>
    if q = p then n else n + max (max (share (b.now.part q)) (share (b.mine.part q))) (share (b.all.part q))) 0

/-- LIMIT of R288. -/
def rcLimit (b : Books) (e : RcEntry) : Bool :=
  match e.op with
  | 6 =>
    let port := rcByte e 4
    if port < 6 then decide (46080 < rcWord e + rcSum b e.p fun x => tget 0 x.hbm port)
    else decide (900 < rcWord e + rcSum b e.p fun x => tget 0 x.ports (port - 8))
  | 8 => decide (rcWord e < b.now.entriesHeld e.p)
  | 9 => decide (4096 < rcHalf e 8 + rcSum b e.p fun x => tget 0 x.shares (rcByte e 4))
      || decide (rcHalf e 8 < b.now.sharesHeld e.p (rcByte e 4))
  | _ => false

/-- The first condition of R288 that an entry meets; 0 where it meets none. -/
def rcCode (s : State) (b : Books) (bs : List Byte) (e : RcEntry) : Nat :=
  let p := s.part e.p
  if rcFormat bs then 1
  else if rcRange e then 2
  else if (b.mine.part e.p).active = (e.op == 1) ∨ (e.op = 2 ∧ b.mine.holdsSome e.p) ∨ p.gs ≠ 0 ∨ p.flr ≠ 0 then 3
  else if rcOwned b e then 4
  else if rcLimit b e then 5
  else if s.inFlight e.p ∧ !e.defer ∧ e.op ≠ 1 then 6
  else if !p.deferred.isEmpty then 7
  else if (e.op = 3 ∧ !s.dieOpen (tileDie (rcTile e))) ∨ (e.op = 5 ∧ !s.dieOpen (rcByte e 4)) then 8
  else 0

/-- Check the entries in order: the entries, or the first failure. A deferred entry waits if its partition has an in-flight task
now (R286). -/
def rcCheck (s : State) : List (List Byte) → Nat → Books → Except (Nat × Nat) (List RcEntry)
  | [], _, _ => .ok []
  | bs :: l, i, b =>
    let e := rcEntryOf bs
    let c := rcCode s b bs e
    if c ≠ 0 then .error (c, i)
    else
      let wait := e.defer && s.inFlight e.p
      match rcCheck s l (i + 1) ⟨if wait then b.now else b.now.rcBook e, b.mine.rcBook e, b.all.rcBook e⟩ with
      | .error x => .error x
      | .ok r => .ok ({ e with index := i, wait } :: r)

/-- The list has failed, or has taken effect (R284, R286). -/
def rcEnd (s : State) (code index : Nat) : State :=
  (s.modPkg fun k => { k with rc := { k.rc with busy := false, code, index, list := [] } }).warmCheck

/-! ## Removal of a tile (R290), release of granules (R123, R285) -/

/-- Fibres end as FEXIT ends them: what is pending is reported (R263), and a handler's requester receives its empty reply (R77). -/
def endFibres (s : State) (ends : FibreRef → Bool) : State :=
  (s.fibres.filter fun f => ends f.1 && f.2.status != .free).foldl (fun s f =>
    let s := s.lateFault f.1
    let s := if f.2.msg then s.emptyReply f.1 else s
    (s.vacate f.1).leaveTask f.2) s

/-- The accesses of fibres that end go on without them, under slot 256: all that the fibres wrote is performed (R77, R290). -/
def strandAccesses (s : State) (ends : FibreRef → Bool) : State :=
  { s with flight := s.flight.map fun a : Nat × Access => if ends a.2.who then (a.1, { a.2 with who := ⟨a.2.who.core, 256⟩ }) else a }

/-- What a core has dispatched starts and retires without waiting, as far as it needs no reply of another home (R77, R84, R290; log 99):
the clock runs on for it alone. -/
def drainCore (c : CoreId) : Nat → State → State
  | 0, s => s
  | n + 1, s =>
    let s := retireAll c 17 { s with clock := s.clock + 64 }
    match (s.core c).disp with
    | [] => drainCore c n s
    | d :: _ => drainCore c n ((s.startHead c d).getD s)

/-- The bytes of a unit that have not been read are read now. -/
def readUnit (m : Move) : Nat → Access → State → Access × State
  | 0, a, s => (a, s)
  | n + 1, a, s => if a.size ≤ a.reply.length then (a, s) else let r := s.moveReadNow m a; readUnit m n r.1 r.2

/-- The bytes of a unit that have not been written are written now. -/
def writeUnit (m : Move) (bs : List Byte) : Nat → Access → State → State
  | 0, _, s => s
  | n + 1, a, s => if a.size ≤ a.reply.length then s else let r := s.moveWriteNow m a bs; writeUnit m bs n r.1 r.2

/-- An access of a move that performs a unit at once. -/
def unitAccess (m : Move) (op : AccOp) (c : Cap) (a n : Nat) (holes : List Nat) : Access :=
  { who := m.who, part := m.part, op, space := c.space, va := a, size := n, pa := none, meter := c.meter, atRoot := m.atRoot, posted := false,
    stage := .queued, due := 0, reply := [], replyTag := false, fault := none, wait := 0, dclass := 0, router := false, holes }

/-- A unit of a move that has been read is written, and the units that follow are moved (R151). -/
def finishUnits (id : Nat) : Nat → Move → State → State
  | 0, _, s => s
  | n + 1, m, s =>
    if movePositions m.geom ≤ m.next then s else
    let (a, d, k, step) := moveUnit m.trans m.geom m.sa m.da m.next
    let (x, s) := readUnit m k (unitAccess m (.moveRead id m.next) m.src a k []) s
    let s := writeUnit m (moveData m.trans m.geom x.reply) k (unitAccess m (.moveWrite id m.next []) m.dst d k x.holes) s
    finishUnits id n { m with next := m.next + step } s

/-- A move ends at once, with all its units (R77, R290; log 99); one that is still being checked has not been issued. -/
def finishMove (s : State) (id : Nat) (m : Move) : State :=
  let mine (a : Nat × Access) : Bool := match a.2.op with | .moveRead n _ => n == id | .moveWrite n _ _ => n == id | .moveCheck n _ => n == id | _ => false
  let fl := s.flight.filter mine
  let s := (fl.foldl (fun s a => (s.leaveGateways a.1).dropAccess a.1) s).leaveGateways id
  let s := { s with moves := tdel s.moves id }
  if m.checking then s else
  let (_, d, n, step) := moveUnit m.trans m.geom m.sa m.da m.next
  match fl.head? with
  | some (_, a) =>
    (match a.op with
     | .moveWrite _ _ bs => finishUnits id (movePositions m.geom) { m with next := m.next + step } (writeUnit m bs n a s)
     | _ =>
       let (x, s) := readUnit m n a s
       let s := writeUnit m (moveData m.trans m.geom x.reply) n (unitAccess m (.moveWrite id m.next []) m.dst d n x.holes) s
       finishUnits id (movePositions m.geom) { m with next := m.next + step } s)
  | none => finishUnits id (movePositions m.geom) m s

/-- Requests that wait in the receive queues of some cores: their senders, when a reply is reserved. -/
def waitingRequests (s : State) (on : CoreId → Bool) : List (CoreId × Nat) :=
  (s.cores.filter fun c => on c.1).flatMap fun c : CoreId × Core => (c.2.recvReq.filter (·.reserved)).map fun m => (m.src.core, m.entry)

/-- An event that ends with some cores. -/
def eventOfCore (on : CoreId → Bool) (e : Instr) : Bool :=
  match e with
  | .busyExpiry f => on f.core
  | .exitComplete f => on f.core
  | .impreciseDelivery f => on f.core
  | .walkDeparture f => on f.core
  | .fetchRefill f => on f.core
  | .leaseRelease c => on c
  | .handlerStart c _ => on c
  | .dispatchStart c => on c
  | .dispatchRetire c => on c
  | _ => false

/-- The share of a tile in its gang, which the tile's context holds: 4 of the slots, its queue, its held block (R276, R290). -/
def clearShare (pos : Nat) (g : Gang) : Gang :=
  let mine (n : Nat) : Bool := n / 4 == pos
  { g with slots := g.slots.filter (fun x => !mine x.1), queues := tdel g.queues pos, heldB := tdel g.heldB pos,
           mmas := g.mmas.filter fun m => !mine m.slot }

/-- A core is held by a task that has been placed, which keeps it (R287). -/
def coreHeld (s : State) (c : CoreId) : Bool := s.dies.any fun d => d.2.tasks.any fun t => heldBy t.2 c

/-- REMOVE_TILE of R290. The fibres of a task that was placed before Wa go on (R287); what the others have dispatched or moved is done
before the tile is wiped. -/
def removeTile (s : State) (e : RcEntry) : State :=
  let n := rcTile e
  let on (c : CoreId) : Bool := !isService c && coreTile c == n
  let kept := ((List.range 3).map fun k => coreOf n k).filter s.coreHeld
  let staying := (s.fibres.filter fun f => on f.1.core && f.2.inTask).map fun f => f.1
  let ends (f : FibreRef) : Bool := on f.core && !staying.contains f
  let owed := s.waitingRequests on
  let s := s.loseCircuits fun c => c.part == e.p && c.hops.any fun h => h.1 == n && (h.2.1 == 4 || entryLocal h.2.2.2)
  let s := if (s.gang (tileGang n)).formed then s.gangBreak (tileGang n) else s
  let clock := s.clock
  let s := (s.cores.filter fun c => on c.1 && !kept.contains c.1).foldl (fun s c => { drainCore c.1 40 s with clock }) s
  let s := (s.moves.filter fun m => ends m.2.who).foldl (fun s m => s.finishMove m.1 m.2) s
  let s := (s.endFibres ends).strandAccesses ends
  let rest (c : CoreId × Core) : Core :=
    if kept.contains c.1 then { c.2 with recvReq := [], moves := c.2.moves.filter fun m => (s.move m).isSome } else {}
  let s := { s with cores := s.cores.map fun c : CoreId × Core => if on c.1 then (c.1, rest c) else c
                    agenda := s.agenda.filter fun x => !eventOfCore (fun c => on c && !kept.contains c) x.2 }
  let s := s.modGang (tileGang n) (clearShare (tilePos n))
  let s := s.modTile n fun t => { t with sems := [], semWait := [], seize := 0, seizeNext := none, banks := t.banks.filter fun b => decide (4 ≤ b.1), cwin := [] }
  let s := (s.wipe (paOf 1 n 0) (2 ^ 20)).wipe (paOf 2 n 0) (2 ^ 20)
  let s := owed.foldl (fun s x => s.nackEntry x.1 x.2) s
  (s.rcBook e).offerWalks (tileDie n)

/-- GRANULES of R285: a release wipes each granule. -/
def moveGranules (s : State) (e : RcEntry) : State :=
  let s := if rcByte e 7 = 1 then s
    else (rcGranules e).foldl (fun s g => s.wipe (paOf 3 (rcByte e 4) (g * 2 ^ 20)) (2 ^ 20)) s
  s.rcBook e

/-- CREATE of R285: ORD and CSEQ are 0, and LASTACC is 0xFFFF_FFFF (R118). -/
def createPart (s : State) (e : RcEntry) : State :=
  let s := (s.rcBook e).modVf e.p fun v => { v with lastAcc := 0xFFFFFFFF, cseq := 0 }
  (List.range 6).foldl (fun s d => s.modDie d fun x => { x with ord := tdel x.ord e.p }) s

/-- An entry takes effect. -/
def rcApply (s : State) (e : RcEntry) : State :=
  match e.op with
  | 1 => s.createPart e
  | 4 => s.removeTile e
  | 5 => s.moveGranules e
  | _ => s.rcBook e

/-- A queued task that no longer fits completes with NO_FIT (R105). -/
def dropUnfit (s : State) (p : Nat) : State :=
  (List.range 6).foldl (fun s d =>
    let bad := (s.die d).tasks.filter fun t : Nat × Task =>
      t.2.part == p && t.2.state == .queued && !s.footFits p d ⟨t.2.kinds, t.2.shape, t.2.n, t.2.h, t.2.w⟩
    bad.foldl (fun s t => s.completeTask d t.1 3) s) s

/-- RESIZE of R291: the generation, and a report on every die that holds a tile of the partition before or after. -/
def resized' (s : State) (p : Nat) (before : List Nat) : State :=
  let s := s.modPart p fun x => { x with gen := (x.gen + 1) % 2 ^ 32 }
  let x := s.part p
  let s := ((before ++ s.diesOf p).eraseDups).foldl (fun s d =>
    s.report d p { kind := 7, cause := 0, fibre := 0, addr := word x.tab.length, einfo := word x.gen }) s
  s.dropUnfit p

/-- Entries take effect together; for each partition whose tile entries are among them there is one RESIZE (R291). -/
def rcTake (s : State) (es : List RcEntry) : State :=
  let ps := ((es.filter fun e => e.op == 3 || e.op == 4).map (·.p)).eraseDups
  let before := ps.map fun p => (p, s.diesOf p)
  let s := es.foldl rcApply s
  before.foldl (fun s x => s.resized' x.1 x.2) s

/-- The time of a deferred entry has come (R289). -/
def rcReady (s : State) (e : RcEntry) : Bool :=
  match rcDie e with
  | some d => s.boundary e.p d
  | none => (List.range 6).all fun d => s.boundary e.p d

/-- The entries of one list, given in its order, that take effect now: none before an earlier one (R289; log 100). -/
def rcGo (s : State) : List RcEntry → List RcEntry
  | [] => []
  | e :: l => if s.rcReady e then e :: s.rcGo l else []

/-- Put an entry in the order of its list. -/
def rcInsert (e : RcEntry) : List RcEntry → List RcEntry
  | [] => [e]
  | x :: l => if e.index < x.index then e :: x :: l else x :: rcInsert e l

/-- All pending deferred entries that take effect now, list by list. -/
def rcDue (s : State) : List RcEntry :=
  let all := s.parts.flatMap fun p : Nat × Part => p.2.deferred
  ((all.map (·.list)).eraseDups).flatMap fun n => s.rcGo ((all.filter fun e => e.list == n).foldl (fun l e => rcInsert e l) [])

/-- The task units look for work again. -/
def placeAll (s : State) : State := (List.range 6).foldl (fun s d => s.placeBy d s.clock) s

/-! ## Function-level reset (R292) -/

/-- The circuits of a partition are torn down, with what the Intercalator has for it. -/
def dropCircuits (s : State) (p : Nat) : State :=
  let s := (s.pkg.circuits.filter fun c => c.part == p).foldl (fun s c => ((s.clearHops c).releaseBindings p c.cid).dropCircuit p c.cid) s
  let mine := (s.pkg.ic.commits ++ s.pkg.ic.active.toList).filter fun m => m.part == p
  let s := { s with tiles := s.tiles.map fun t : Nat × Tile => (t.1, { t.2 with shadow := t.2.shadow.filter fun x => !mine.any fun m => m.seq == x.seq }) }
  let s := s.modPkg fun k =>
    let ic : Intercalator := { k.ic with
      queue := k.ic.queue.filter fun r => r.part != p, active := k.ic.active.filter fun m => m.part != p
      commits := k.ic.commits.filter fun m => m.part != p, results := k.ic.results.filter fun r => s.partOf r.1.core != p }
    { k with ic, wires := k.wires.filter fun w => w.2.2.2.part != p
             plinks := k.plinks.map fun l : Nat × PLink => (l.1, { l.2 with elastic := l.2.elastic.filter (fun x => x.2.part != p)
                                                                            tx := l.2.tx.filter fun x => x.2.2.part != p }) }
  s.schedOnce s.clock .intercalatorRequest

/-- The buffered residue flits of a partition are dropped and counted; a request for the root core is not lost (R292,
R434). -/
def dropResidue (s : State) (p : Nat) : State :=
  let s := s.bufferNodes.foldl (fun s node =>
    let bufs := s.rbufs node
    let n := (bufs.map fun b : (Nat × Bool) × RBuf => (b.2.flits.filter fun f => f.part == p).length).foldl (· + ·) 0
    let waiting := if node = ioNode then s.pkg.rwait else (s.tile node).rwait
    let gone := (bufs.flatMap fun b : (Nat × Bool) × RBuf => b.2.flits) ++ waiting
    let s := bufs.foldl (fun s b => s.setRbuf node b.1.1 b.1.2 { flits := b.2.flits.filter fun f => f.part != p }) s
    let s := if node = ioNode then s.modPkg fun k => { k with rwait := k.rwait.filter fun f => f.part != p }
      else s.modTile node fun t => { t with rwait := t.rwait.filter (fun f => f.part != p), drops := t.drops + n }
    (gone.filter fun f => f.part == p).foldl (fun s f => match f.ev with
      | some e => if (mtrqIdOf e).isSome then s.now e else s
      | none => s) s) s
  let held := ((s.part p).saved.map fun x : (Nat × Nat × Bool) × RFlit => x.2).filterMap fun f => f.ev.filter fun e => (mtrqIdOf e).isSome
  held.foldl (fun s e => s.now e) (s.modPart p fun x => { x with saved := [], captured := [] })

/-- What is under way for a partition ends (R292). -/
def dropWork (s : State) (p : Nat) : State :=
  let on (c : CoreId) : Bool := !isService c && s.partOf c == p
  let ids := (s.flight.filter fun a => a.2.part == p).map fun a => a.1
  let away := (s.waitingRequests on ++ (s.fibres.filter fun f => on f.1.core && f.2.rpl).filterMap fun f => f.2.replyTo).filter fun x => !on x.1
  let lost := (s.messages.filter fun m => m.2.srcPart != p && on m.2.dst).map fun m => m.1
  let walks := (s.dies.filter fun d => d.2.gw.walks.any fun w => w.part == p).map fun d => d.1
  let s := { s with
    agenda := s.agenda.filter fun x => (mtrqIdOf x.2).isSome ||
      !(s.eventPart x.2 == some p || eventOfCore on x.2 || x.2 == Instr.stopSequence p || x.2 == Instr.saveComplete p || x.2 == Instr.partitionLost p
        || x.2 == Instr.restoreComplete p || x.2 == Instr.resumeSequence p)
    walkers := s.walkers.filter fun w => w.2.part != p
    subs := s.subs.filter fun b => b.2.part != p
    queries := s.queries.filter fun q => q.2.part != p
    moves := s.moves.filter fun m => m.2.part != p
    fibres := s.fibres.filter fun f => !on f.1.core }
  let s := ids.foldl (fun s id => (s.leaveGateways id).dropAccess id) s
  let s := lost.foldl (fun s id => s.loseMessage id) s
  let s := { s with messages := s.messages.filter fun m => m.2.srcPart != p }
  let s := away.foldl (fun s x => s.nackEntry x.1 x.2) s
  let s := walks.foldl (fun s d => (s.modGw d fun g => { g with walks := g.walks.filter fun w => w.part != p }).startWalk d) s
  s.modPkg fun k => { k with mtrq := k.mtrq.filter fun r => !(r.part == p && r.answer.isSome) }

/-- A gang of a partition's tiles holds nothing more of the work of its cores that has not joined; the gang breaks if it is formed, and
the joined operations finish and write their slots (R207, R292). What another partition's tile has queued there stays, if no gang breaks. -/
def clearGang (s : State) (p n : Nat) : State :=
  let mine (f : FibreRef) : Bool := s.partOf f.core == p
  let s := s.modGang n fun g => { g with queues := g.queues.map fun q => (q.1, q.2.filter fun o => !mine o.fibre) }
  let g := s.gang n
  if g.formed ∧ g.members.any mine then (s.gangBreak n).modGang n fun g => { g with members := [] } else s

/-- The cores, tiles and gangs of a partition hold nothing of the work that has ended (R292). -/
def clearWork (s : State) (p : Nat) : State :=
  let s := (s.coresOfPart p).foldl (fun s c => s.modCore c fun x => { x with
    sends := [], recvReq := [], recvRep := [], dropped := x.dropped + x.recvRep.length, lease := none, leaseWait := [], disp := [],
    running := [], moves := [], streams := [], strmWait := [], step1 := none }) s
  let s := (s.tilesOf p).foldl (fun s n => s.modTile n fun t => { t with semWait := [] }) s
  (s.gangsOf p).foldl (fun s n => s.clearGang p n) s

/-- The code windows of a partition are off, and their pages are wiped (R314). -/
def dropCode (s : State) (p : Nat) : State :=
  let s := (s.tilesOf p).foldl (fun s n => s.dropCwins 1 n fun _ => true) s
  (List.range 6).foldl (fun s d =>
    let own (w : Word) : Bool := tfind (s.die d).granules ((codeWinOf w).2.1 / 2 ^ 20) == some p
    s.dropCwins 3 d own) s

/-- Slot 0 of Wf (R292). -/
def flrStart (s : State) (p : Nat) : State :=
  let blocks := s.pkg.mtrq.map fun r => if r.part = p then { r with block := s.mtrqBlock r } else r
  let s := s.modPkg fun k => { k with mtrq := blocks }
  let s := (((s.dropWork p).dropCircuits p).dropResidue p).clearWork p
  let s := ((((s.discardTasks p).dropCode p).wipePart p).freeReserve p).dropSaves p
  let s := (s.modVf p fun _ => {}).modPart p fun x => { x with heldEv := [], gs := 0, gsCode := if x.gs = 0 then x.gsCode else 0,
                                                               gsWheel := if x.gs = 0 then x.gsWheel else s.wheel, flr := 2 }
  let s := (List.range 6).foldl (fun s d => s.modDie d fun x => { x with ord := tdel x.ord p }) s
  let es := (s.part p).deferred
  let s := ((s.modPart p fun x => { x with deferred := [] }).rcTake es).warmCheck
  let s := (List.range 48).foldl (fun s q => (List.range 6).foldl (fun s d => s.atBoundary q d) s) s
  let t := { s with fresh := s.fresh + 1 }
  (t.sched (s.clock + 5 * 1024 + Config.delay s.fresh % (131067 * 1024)) (.flrComplete p)).placeAll

end State

/-- The management core reads the list and checks it; a list that passes takes effect at Wa, the first boundary after the checks end,
within ⌈n / 32⌉ wheels (R284 to R288). -/
def State.rcRead (s : State) : State :=
  let rc := s.pkg.rc
  if rc.addr.toNat % 64 ≠ 0 then s.rcEnd 1 511
  else
    let at' (i n : Nat) : List Byte := s.readBytes (paOf 6 0 ((rc.addr.toNat + i) % 2 ^ 56)) n
    let head := at' 0 32
    let n := sliceNat head 0 2
    let s := s.modPkg fun k => { k with rc := { k.rc with tag := sliceNat head 4 4 } }
    if n = 0 ∨ 256 < n ∨ sliceNat head 2 2 ≠ 1 ∨ (head.drop 8).any (· != 0) then s.rcEnd 1 511
    else
      let all := (s.parts.flatMap fun p : Nat × Part => p.2.deferred).foldl State.rcBook s
      match State.rcCheck s ((List.range n).map fun i => at' (32 + 32 * i) 32) 0 ⟨s, s, all⟩ with
      | .error (c, i) => s.rcEnd c i
      | .ok es =>
        let es := es.map fun e => { e with list := s.fresh }
        let t := { s with fresh := s.fresh + 1 }
        let done := s.clock + 1 + Config.delay s.fresh % (1024 * ceilDiv n 32)
        ((t.modPkg fun k => { k with rc := { k.rc with busy := true, list := es } }).schedFirst ((done / 1024 + 1) * 1024) .reconfigApply)

/-- A function-level reset is under way (R287). -/
def State.flrRuns (s : State) : Bool := s.parts.any fun p : Nat × Part => p.2.flr == 2

/-- RCGO (R284): the list is read and checked. -/
def execRcgo (s : State) : Out := if s.pkg.rc.busy ∨ s.pkg.start.phase = 3 then .next s else .next s.rcRead

/-- RECONFIG_APPLY (R286, R287, R289): slot 0 of Wa. While a function-level reset is under way the list waits for its end, wheel by
wheel (log 101). -/
def execReconfigApply (s : State) : Out :=
  if !s.pkg.rc.busy then .next s
  else if s.flrRuns then .next (s.schedFirst ((s.wheel + 1) * 1024) .reconfigApply)
  else
    let es := s.pkg.rc.list
    let (wait, go) := es.partition fun e => e.wait
    let s := s.rcTake go
    let s := wait.foldl (fun s e => s.modPart e.p fun x => { x with deferred := x.deferred ++ [e] }) s
    let s := (s.modPkg fun k => { k with rc := { k.rc with wheel := s.wheel } }).rcEnd 0 0
    let s := ((wait.map (·.p)).eraseDups).foldl (fun s p => (List.range 6).foldl (fun s d => s.atBoundary p d) s) s
    .next s.placeAll

/-- DEFERRED_ENTRY (R289, R291): at a kernel boundary the pending entries whose time has come take effect, in list order. -/
def execDeferredEntry (p die : Nat) (s : State) : Out :=
  if !s.boundary p die then .next s
  else
    let go := s.rcDue
    if go.isEmpty then .next s
    else
      let s := ((go.map (·.p)).eraseDups).foldl (fun s q => s.modPart q fun x => { x with deferred := x.deferred.filter fun e => !go.contains e }) s
      .next (s.rcTake go).placeAll

/-- FUNCTION_LEVEL_RESET (R292): requested; it begins at the next wheel boundary. -/
def execFunctionLevelReset (p : Nat) (s : State) : Out :=
  if (s.part p).flr ≠ 0 then .next s
  else .next ((s.modPart p fun x => { x with flr := 1 }).schedFirst ((s.wheel + 1) * 1024) (.flrComplete p))

/-- FLR_COMPLETE (R287, R292, R323): slot 0 of Wf, at which the reset begins unless a list is under way, and the end of the
reset, at which the partition's meters close. -/
def execFlrComplete (p : Nat) (s : State) : Out :=
  match (s.part p).flr with
  | 1 => if s.pkg.rc.busy then .next (s.schedFirst ((s.wheel + 1) * 1024) (.flrComplete p)) else .next (s.flrStart p)
  | 2 =>
    .next ((s.modPart p fun x => { x with flr := 0 }).forceClose p)
  | _ => .next s

end Sys2Proof.Machine
end

