-- ==== Sys2Proof/Machine/EvTrust.lean ====
section
/-! DEFINITION. The attestation of the compute dies by the root core (12 R298 to R303): it checks what the die has answered. A response
that is altered on its way, or that a die gives in place of its own, comes with the finding (log 10). -/

namespace Sys2Proof.Machine

/-- The REASON with which a step may fail (R302): another finding is a malformed response. -/
def stepReason (n r : Nat) : Nat :=
  let ok : List Nat := match n with
    | 4 => [2] | 5 => [2] | 7 => [4] | 8 => [4, 5] | 9 => [4] | 10 => [4] | _ => []
  if ok.contains r then r else 7

namespace State

/-- A die's trust state changes (R298). -/
def setTrust (s : State) (d st : Nat) : State :=
  s.modDie d fun x => { x with trust := { x.trust with state := st, wheel := s.wheel } }

/-- The answer to the encapsulated request that stands in a die's answer, from the root core's slot 0 (R302; log 16). -/
def encapReply (answer : List Byte) : List Byte :=
  let body := if (lget 0 answer 1).toNat = 0x6A then answer.drop 4 else answer.drop 8
  let off := sliceNat body 4 2
  let n := min 1024 (Config.packageChain.length - off)
  [0x12, 0xEB, 1, 0] ++
    (if (lget 0 body 1).toNat = 0x81 then [0x12, 1, 0, 1] ++ sha256 Config.packageChain
     else [0x12, 2, 0, 0] ++ leBytes 2 n ++ leBytes 2 (Config.packageChain.length - off - n) ++ slice Config.packageChain off n)

/-- The request of the step at which a die's attestation stands (R302), in the layout of the standard (log 16); nonces come from RNG. -/
def nextRequest (s : State) (d : Nat) : List Byte × State :=
  let x := (s.die d).trust
  match x.step with
  | 1 => ([0x10, 0x84, 0, 0], s)
  | 2 => ([0x12, 0xE1, 0, 0, 0, 0x0E, 0, 0, 0xC6, 3, 0, 0, 0, 8, 0, 0, 0, 8, 0, 0], s)
  | 3 => ([0x12, 0xE3, 4, 0, 48, 0, 1, 0, 8, 0, 0, 0, 1, 0, 0, 0] ++ List.replicate 16 0
      ++ [2, 0x20, 0x10, 0, 3, 0x20, 2, 0, 4, 0x20, 8, 0, 5, 0x20, 1, 0], s)
  | 4 => ([0x12, 0x81, 0, 0], s)
  | 5 => ([0x12, 0x82, 0, 0] ++ leBytes 2 x.got ++ leBytes 2 1024, s)
  | 7 => let r := randomBytes 32 s; ([0x12, 0x83, 0, 0] ++ r.1, r.2)
  | 8 => let r := randomBytes 32 s; ([0x12, 0xE0, 1, 0xFF] ++ r.1 ++ [0], r.2)
  | 9 =>
    if x.enc = 0 then
      let r := randomBytes 32 s
      let q := r.2.sessionDraw 96
      ([0x12, 0xE4, 0, 0, 0, 0, 0, 0] ++ r.1 ++ q.1 ++ [0, 0], q.2)
    else if x.enc = 1 then ([0x12, 0xEA, 0, 0], s)
    else (encapReply (s.die d).spdm.last, s)
  | _ =>
    let t := finishTh x.th Config.packageChain [0x12, 0xE5, 1, 0]
    let r := s.spdmSign 6 finishContext t
    ([0x12, 0xE5, 1, 0] ++ r.1 ++ hmac (leBytes 32 (s.die d).spdm.qkey.toNat) (sha256 (t ++ r.1)), r.2)

/-- The root sends the request of the current step over the attestation channel (R297), and waits for the answer (R302, R303). -/
def awaitDie (s : State) (d : Nat) : State :=
  let (bs, s) := s.nextRequest d
  let t := s.clock + (32768 + 64) * 1024
  let s := s.modDie d fun x => { x with
    trust := { x.trust with deadline := t, sent := bs }, spdmWas := x.spdm, spdm := { x.spdm with last := [] } }
  (s.sendAtt d true bs.length bs).sched (t + 1) (.attestationTimeout d)

/-- A die's answer has come whole: it has answered, and none of its channel's flits is under way (R297). -/
def answered (s : State) (d : Nat) : Bool :=
  !(s.die d).spdm.last.isEmpty && !(s.flitsAt fun _ => true).any fun f => f.part == attPart d

/-- What the root finds in the answer that a die has given (R302): none, or the reason of the failure. -/
def rootFinds (s : State) (d : Nat) : Option Nat :=
  let x := (s.die d).trust
  let y := (s.die d).spdm
  let bs := y.last
  let code := (lget 0 bs 1).toNat
  let n := bs.length - 384
  let signed (ctx t : List Byte) (k : Nat) : Bool :=
    ((chainLeaf x.chain).bind Cert.modulus).any fun m => pssVerify (beBytes 384 m) (spdmHash ctx t) (slice bs k 384)
  let check (row : Nat) (ok : Bool) (reason : Nat) : Option Nat := if code ≠ row then some 7 else if ok then none else some reason
  match x.step with
  | 1 => check 4 ((List.range (sliceNat bs 5 1)).any fun i => lget 0 bs (7 + 2 * i) == 0x12) 7
  | 2 => check 0x61 (bs == spdmCapabilities d) 7
  | 3 => check 0x63 (bs == spdmAlgorithms d) 7
  | 4 => check 1 (bitN (sliceNat bs 3 1) 0) 2
  | 5 =>
    let chain := x.chain ++ slice bs 8 (sliceNat bs 4 2)
    if code ≠ 2 then some 7
    else if sliceNat bs 6 2 ≠ 0 then none
    else if sha256 chain ≠ x.digest ∨ (chainLeaf chain).isNone then some 2
    else if !dieListed d chain then some 3 else none
  | 7 => check 3 (slice bs 4 32 == x.digest && signed challengeContext (x.m ++ x.sent ++ bs.take n) n) 4
  | 8 =>
    let record := s.get7 (0x30100 + 256 * d) 39
    if code ≠ 0x60 then some 7
    else if !signed measurementsContext (x.vca ++ x.sent ++ bs.take n) n then some 4
    else if sliceNat bs 4 1 ≠ 1 ∨ slice bs 8 39 ≠ record then some 5 else none
  | 9 =>
    if x.enc = 0 then
      let t := x.vca ++ x.digest ++ x.sent ++ bs.take 138
      check 0x64 (dieListed d x.chain && signed exchangeContext t 138
        && slice bs 522 32 == hmac (leBytes 32 y.rkey.toNat) (sha256 (t ++ slice bs 138 384))) 4
    else if x.enc = 1 then check 0x6A true 4
    else if code = 0x7F then some 4 else check 0x6B true 4
  | _ => check 0x65 (slice bs 4 32 == hmac (leBytes 32 y.rkey.toNat)
      (sha256 (x.th ++ sha256 Config.packageChain ++ x.sent ++ [0x12, 0x65, 0, 0]))) 4

/-- An attempt fails (R299): the third failure in a row rejects the die, else the root retries from the next wheel. -/
def failAttest (s : State) (d reason : Nat) : State :=
  let n := (s.die d).trust.fails + 1
  let s := (s.setTrust d (if n = 3 then 5 else 1)).modDie d fun x =>
    { x with trust := { x.trust with fails := n, reason, step := 0, busies := 0, retry := decide (n ≠ 3) }
             spdm := { x.spdm with session := false, handshake := false } }
  if n = 3 then s.startCheck else s.schedOnce ((s.wheel + 1) * 1024) (.attestationRetry d)

/-- FINISH_RSP is verified (R299): the session stands and the links are keyed. -/
def startKeying (s : State) (d : Nat) : State :=
  let s := (s.setTrust d 3).modDie d fun x =>
    { x with trust := { x.trust with step := 0 }, spdm := { x.spdm with session := true, handshake := false } }
  s.startCheck.keyDie d

/-- A MEASUREMENTS response has come: the root extends MEAS5 with its SHA-256, whatever it finds in it (R302, R309). -/
def measureDie (s : State) (d : Nat) : State :=
  let bs := (s.die d).spdm.last
  if (s.die d).trust.step = 8 ∧ (lget 0 bs 1).toNat = 0x60 then s.extend 5 (sha256 bs) else s

/-- A MEASUREMENTS response has come that is not the one which the die gave: its bytes are free (log 10). -/
def measureAltered (s : State) (d reason : Nat) : State :=
  if (s.die d).trust.step = 8 ∧ reason ≠ 7 then
    { s with fresh := s.fresh + 1 }.extend 5 (beBytes 32 (Config.alteredResponse s.fresh).toNat)
  else s

/-- The root keeps what it needs of a good answer: its transcripts, the chain and its digest, how far step 9 is (R302). -/
def keepAnswer (s : State) (d : Nat) : State :=
  s.modDie d fun x =>
    let t := x.trust
    let bs := x.spdm.last
    let both := t.sent ++ bs
    { x with trust :=
      if t.step ≤ 2 then { t with vca := if t.step = 1 then both else t.vca ++ both }
      else if t.step = 3 then { t with vca := t.vca ++ both, m := t.vca ++ both }
      else if t.step = 4 then { t with m := t.m ++ both, digest := slice bs 4 32 }
      else if t.step = 5 then { t with m := t.m ++ both, chain := t.chain ++ slice bs 8 (sliceNat bs 4 2), got := t.got + sliceNat bs 4 2 }
      else if t.step = 9 ∧ t.enc = 0 then { t with th := t.vca ++ t.digest ++ both }
      else t }

/-- The step and the encapsulated step that follow a good answer (R302): the next portion of the chain, the next message of the
encapsulated flow, or the next step; the leaf key is checked with the chain, so that step 7 follows step 5. -/
def stepAfter (t : Trust) (answer : List Byte) : Nat × Nat :=
  if t.step = 5 then (if sliceNat answer 6 2 ≠ 0 then (5, 0) else (7, 0))
  else if t.step = 9 then (if t.enc < 2 then (9, t.enc + 1) else if sliceNat answer 3 1 = 2 then (10, 0) else (9, 2))
  else (t.step + 1, 0)

/-- An answer is good (R302): the root goes on. -/
def passStep (s : State) (d : Nat) : State :=
  let x := (s.die d).trust
  if x.step = 10 then s.startKeying d
  else
    let n := stepAfter x (s.die d).spdm.last
    ((s.keepAnswer d).modDie d fun y => { y with trust := { y.trust with step := n.1, enc := n.2 } }).awaitDie d

/-- A start has failed: the root goes no further (R351). -/
def startFailed (s : State) : Bool := s.pkg.start.phase == 1 && s.pkg.start.code != 0

end State

/-- SELFTEST (R299). In recovery the dies stay in RESET (R357). -/
def execSelftest (d : Nat) (pass : Bool) (s : State) : Out :=
  if (s.die d).trust.state ≠ 0 ∨ s.pkg.start.phase = 3 then .next s
  else if pass then
    .next (((s.setTrust d 1).modDie d fun x => { x with trust := { x.trust with retry := true } }).now (.attestationRetry d))
  else .next ((s.setTrust d 5).modDie d fun x => { x with trust := { x.trust with reason := 1 } }).startCheck

/-- ATTESTATION_RETRY (R299, R302): the root, once a start has run, sends GET_VERSION, the first request. -/
def execAttestationRetry (d : Nat) (s : State) : Out :=
  let t := (s.die d).trust
  if t.state ≠ 1 ∨ !t.retry ∨ s.pkg.start.phase = 0 ∨ s.pkg.start.phase = 3 ∨ s.startFailed then .next s
  else
    .next (((s.setTrust d 2).modDie d fun x =>
      { x with trust := { x.trust with
        step := 1, got := 0, busies := 0, retry := false, vca := [], m := [], th := [], chain := [], digest := [], enc := 0 } }).awaitDie d)

/-- ATTESTATION_RESPONSE (R302, R303): a response that comes when none is awaited is discarded, and one that comes after the limit fails
the attempt. `pass` brings the answer as the die gave it, `fail` another one in which a check fails. -/
def execAttestationResponse (d : Nat) (verdict : AttestVerdict) (s : State) : Out :=
  let t := (s.die d).trust
  if 0 < t.late ∧ Config.lateAnswer s.fresh then
    .next ({ s with fresh := s.fresh + 1 }.modDie d fun x => { x with trust := { x.trust with late := x.trust.late - 1 } })
  else if t.state ≠ 2 ∨ !s.answered d then .next s
  else if t.deadline < s.clock then .next (s.failAttest d 6)
  else match verdict with
    | .pass =>
      .next (match s.rootFinds d with
        | none => (s.measureDie d).passStep d
        | some r => (s.measureDie d).failAttest d r)
    | .busy =>
      if 16 ≤ t.busies then .next (s.failAttest d 6)
      else .next ((s.modDie d fun x => { x with spdm := x.spdmWas, trust := { x.trust with busies := t.busies + 1 } }).awaitDie d)
    | .fail r => .next ((s.measureAltered d (stepReason t.step r)).failAttest d (stepReason t.step r))

/-- ATTESTATION_TIMEOUT (R303): of the wait that is still the last one. -/
def execAttestationTimeout (d : Nat) (s : State) : Out :=
  let t := (s.die d).trust
  if t.state = 2 ∧ t.deadline < s.clock then
    .next ((s.modDie d fun x => { x with trust := { x.trust with late := x.trust.late + 1 } }).failAttest d 6)
  else .next s

end Sys2Proof.Machine
end

