-- ==== Sys2Proof/Machine/EvStart.lean ====
section
/-! DEFINITION. Starts, wipes, the lifecycle and the loss of power (15 R351 to R357). What a step of a start finds out about
the device itself is a free value (log 10). -/

namespace Sys2Proof.Machine

/-- The transitions of R356. -/
def lifecycleOk (a b : Nat) : Bool := [(0, 1), (1, 2), (2, 3), (2, 4), (3, 4)].contains (a, b)

/-- An address lies in one of some ranges. -/
def inRanges (rs : List (Nat × Nat)) (a : Nat) : Bool := rs.any fun r => decide (r.1 ≤ a) && decide (a < r.1 + r.2)

/-- What the wipe of R353 leaves: far and host memory, the service cores' stores, and the preserved ranges of HBM but for what
another range covers that is wiped anyway (R354). -/
def keptWipe (good bad : List (Nat × Nat)) (a : Nat) : Bool := outside a || paKind a == 7 || (inRanges good a && !inRanges bad a)

/-- What a loss of power leaves: far and host memory and the ROM. -/
def keptOff (a : Nat) : Bool := outside a || romAt a

/-- The ranges of a preserved-range list (R354): physical address and length; none when it is malformed. -/
def preservedRanges (bs : List Byte) : Option (List (Nat × Nat)) :=
  let n := sliceNat bs 0 2
  let entry (i : Nat) : Option (Nat × Nat) :=
    let d := sliceNat bs (8 + 16 * i) 1
    let w := sliceNat bs (16 + 16 * i) 8
    let base := bits w 52 12 * 4096
    let len := (bits w 63 53 + 1) * 4096
    if 5 < d ∨ sliceNat bs (9 + 16 * i) 7 ≠ 0 ∨ w % 4096 ≠ 0 ∨ hbmBytes < base + len then none else some (paOf 4 d base, len)
  if n = 0 ∨ 4096 < n ∨ sliceNat bs 2 6 ≠ 0 then none
  else
    let l := (List.range n).map entry
    if l.any Option.isNone then none else some (l.filterMap id)

namespace State

/-- Sessions since a cold start survive a warm one (R298). -/
def keepSessions (old s : State) : State :=
  (List.range 6).foldl (fun s d => s.modDie d fun x => { x with trust := { x.trust with sess := (old.die d).trust.sess } }) s

/-- The first step of a start, from 1 to 7, that fails, or 8 (R351): HBM is trained in a cold start only, and step 1 tests the
entropy source (R450), step 5 the package certificate. -/
def failingStep (s : State) (warm : Bool) : Nat :=
  ([1, 2, 3, 4, 5, 6, 7].find? fun n =>
    (n == 1 && !s.pkg.entropyOk) || (n == 5 && !packageOk) || (Config.startFails (s.fresh + n) && !(warm && n == 6))).getD 8

/-- The record of MEAS1 (R309). -/
def meas1 (s : State) : List Byte :=
  leBytes 4 (Config.securityVersion s.fresh).toNat ++ leBytes 1 s.pkg.start.lc ++ List.replicate 27 0

/-- The extensions of a start up to a step (R309, R351), with what the root firmware stages (R519, R523). -/
def measureStart (s : State) (n : Nat) (draw : Nat) : State :=
  let dig (s : State) (i : Nat) : List Byte := sha256 (s.staged i)
  let s := if 2 < n then ((s.extend 0 (beBytes 32 (Config.imageDigest draw).toNat)).extend 1 s.meas1).loadFirmware else s
  let s := if 4 < n then ((s.extend 2 (dig s 0)).extend 3 (dig s 1)).extend 6 (dig s 2) else s
  if 5 < n then (List.range 7).foldl (fun s d => s.extend 4 (s.get7 (0x30800 + 32 * d) 32)) s else s

/-- The preserved-range list of a warm start, as bytes, its ranges, and those of them that a window at the STCMD WARM overlapped: none when a
condition of R354 fails. `old` is the state before the start, `s` the state once MEAS0 and MEAS2 have been extended. -/
def preserved (old s : State) : Option (List Byte × List (Nat × Nat) × List (Nat × Nat)) :=
  let a := old.pkg.start.prlist.toNat
  let same := old.pkg.start.prev ==
    some (s.pkg.start.lc, BitVec.ofNat 256 (leNat (s.meas 0)), BitVec.ofNat 256 (leNat (s.meas 2)))
  if !same ∨ a = 0 ∨ a % 64 ≠ 0 then none
  else
    let n := sliceNat (old.readBytes (paOf 6 0 a) 2) 0 2
    let bs := old.readBytes (paOf 6 0 a) (8 + 16 * min n 4096)
    match preservedRanges bs with
    | none => none
    | some l =>
      let bad (r : Nat × Nat) : Bool := old.pkg.start.warmWins.any fun w => meets r.1 r.2 w.1 w.2
      some (bs, l.filter fun r => !bad r, l.filter bad)

/-- The wipe of step 7 and MEAS7 (R309, R353, R354). -/
def wipeStart (old s : State) (warm : Bool) : State :=
  match (if warm then old.preserved s else none) with
  | some (bs, good, bad) => (s.keepMem (keptWipe good bad)).extend 7 (sha256 bs)
  | none => (s.keepMem (keptWipe [] [])).extend 7 zero32

/-- Step 4 has started the management core (R65, R351): with a sealed-code capability over its firmware's code, whose place is
free (log 7). -/
def startMgmt (s : State) : State :=
  let code := Cap.spanning 2 0 7 (2 ^ Cap.permR + 2 ^ Cap.permX + 2 ^ Cap.permG) (4 * (Config.mgmtCode % 2 ^ 16)) (4 * (Config.mgmtLength % 2 ^ 16 + 1))
  let s := s.modPkg fun k => { k with mgcode := code, mgrun := true }
  s.setFib ⟨.mgmt, 0⟩ s.mgmtBoot

/-- At the first cold start in DEPLOYED every meter's record is as new, in the flash too (R322). -/
def deployMeters (s : State) : State :=
  s.modPkg fun k => { k with meters := [], images := k.images.map fun i => (i.1, []), start := { k.start with deployed := true } }

/-- A start as far as the attestation of the dies (R351): FAILS counts it until it is complete. A step that fails ends it; a
failed attempt from recovery returns there at once (R357). -/
def startUp (s : State) (warm : Bool) : State :=
  let st := s.pkg.start
  if st.lc = 4 ∨ (st.fails = 3 ∧ !st.recovery) then s.bootRecovery 0 st
  else
    let n := s.failingStep warm
    let old := { s with fresh := s.fresh + 8 }
    let now : Start := { st with
      phase := 1, step := n, code := if n = 8 then 0 else n, warm, fails := min (st.fails + 1) 3, rej := 0, lcst := st.lcst
      warmWait := false, powered := true }
    if n ≠ 8 ∧ st.recovery then old.bootRecovery n { now with fails := st.fails }
    else
      let t := ((old.keepMem keptBoot).rebooted now).measureStart n s.fresh
      let t := if warm then old.keepSessions t else t
      let t := if 4 < n then t.startMgmt else t
      let t := if n = 8 then old.wipeStart t warm else t
      let t := if n = 8 ∧ !warm ∧ st.lc = 2 ∧ !st.deployed then t.deployMeters else t
      let m (i : Nat) : BitVec 256 := BitVec.ofNat 256 (leNat (t.meas i))
      t.modPkg fun k => { k with
        hostUp := true, hostWidth := Config.hostWidth s.fresh, vfs := min (Config.hostVfs s.fresh) 48
        start := { k.start with prev := some (k.start.lc, m 0, m 2) } }

end State

/-- COLD_START (R351, R357). -/
def execColdStart (s : State) : Out := .next (s.startUp false)

/-- WARM_START (R351, R352, R354, R355). -/
def execWarmStart (s : State) : Out := .next (if s.pkg.start.phase = 2 then s.startUp true else s)

/-- POWER_LOSS (R332, R351): what flash, fuses and the outside hold stays; a start under way stays counted. The meters' records are lost
but for the last image in the flash. -/
def execPowerLoss (s : State) : Out :=
  let st := s.pkg.start
  let t := (s.keepMem keptOff).rebooted
    { lc := st.lc, fails := st.fails, recovery := st.recovery || st.phase == 3, deployed := st.deployed, powered := false }
  .next (t.modPkg fun k => { k with meters := match k.images with | i :: _ => i.2 | [] => [] })

/-- LCREQ (R356): BUSY, then the token's signature with its zero bytes and its serial number, then the transition. A DECOMMISSIONED
package boots into recovery, so that the wipe of its cold start is done here. -/
def execLcreq (v : BitVec 64) (s : State) : Out :=
  let bs := s.readBytes (paOf 6 0 v.toNat) 512
  let done (n : Nat) : State := s.modPkg fun k => { k with start := { k.start with lcst := n } }
  let target := sliceNat bs 0 1
  if s.pkg.start.phase ≠ 2 then .next s
  else if s.parts.any (fun p : Nat × Part => p.2.active) then .next (done 3)
  else if sliceNat bs 1 15 ≠ 0 ∨ sliceNat bs 48 80 ≠ 0 ∨ sliceNat bs 16 32 ≠ Config.packageSerial.toNat
      ∨ !pssVerify (beBytes 384 Config.productModulus.toNat) (sha256 (bs.take 128)) (slice bs 128 384) then .next (done 1)
  else if !lifecycleOk s.pkg.start.lc target then .next (done 2)
  else
    let t := (done 0).checkpointNow.2
    let t := if target = 4 then t.keepMem (keptWipe [] []) else t
    .next ((t.modPkg fun k => { k with start := { k.start with lc := target } }).now .coldStart)

end Sys2Proof.Machine
end

