-- ==== Sys2Proof/Machine/Fence.lean ====
section
/-! DEFINITION. The FENCE group (08 R229, R230). A fence that finds nothing to wait for ends in its issue cycle. -/

namespace Sys2Proof.Machine

/-- FENCE.REL (R229). -/
def execFenceRel (a : BitVec 3) (s : State) : Out :=
  s.guard .scalar (.fenceRel a) fun s =>
    let v := s.g a
    if scopeBad v then s.raise 1 v
    else if s.releaseDone s.cur v then .next (s.retire 1)
    else .next (s.parkMe 2 (.fence (some v)))

/-- FENCE.X (R229). -/
def execFenceX (s : State) : Out :=
  s.guard .scalar .fenceX fun s =>
    if s.fenceXDone s.cur then .next (s.retire 1) else .next (s.parkMe 2 (.fence none))

/-- IFENCE (R230). -/
def execIfence (s : State) : Out :=
  s.guard .scalar .ifence fun s =>
    if s.ifenceDone s.cur then .next ((s.modMe fun f => { f with fbuf := none }).retire 1)
    else .next (s.parkMe 2 .ifence)

end Sys2Proof.Machine
end

