-- ==== Sys2Proof/Machine/Kcap.lean ====
section
/-! DEFINITION. The capability instructions (17 R401 to R408; 05 R136 to R140). -/

namespace Sys2Proof.Machine

/-- Write kd and retire. -/
def State.setCap (s : State) (d : BitVec 2) (c : Cap) : Out := .next ((s.setK d c).retire 1)

/-- Trap with EINFO of R401: the source cursor and ks. -/
def State.capTrap (s : State) (cause : Nat) (k : BitVec 2) : Out := s.raise cause (State.capInfo (s.k k).cursor k.toNat)

/-- KADD (R402). -/
def execKadd (a : BitVec 3) (z d : BitVec 2) (s : State) : Out :=
  s.guard .scalar (.kadd a z d) fun s =>
    let c := s.k z
    if !c.tag then s.capTrap 4 z
    else if c.sealOf ≠ 0 then s.capTrap 5 z
    else
      let r := c.withCursor ((c.cursor + (s.g a).toNat) % 2 ^ 56) true
      s.setCap d { r with tag := Cap.representable r.e r.bounds.1 r.cursor && r.bounds == c.bounds }

/-- KBND (R403, R138). -/
def execKbnd (a : BitVec 3) (z d : BitVec 2) (s : State) : Out :=
  s.guard .scalar (.kbnd a z d) fun s =>
    let c := s.k z
    let n := (s.g a).toNat
    if !c.tag then s.capTrap 4 z
    else if c.sealOf ≠ 0 then s.capTrap 5 z
    else if n = 0 then s.illegal (.kbnd a z d)
    else
      let (e, b, t) := Cap.fit c.cursor n
      if (b : Int) < c.bounds.1 ∨ c.bounds.2 < t then s.capTrap 7 z
      else if 37 ≤ e then s.setCap d (Cap.make c.sealOf c.meter c.space c.perms 0 0 37 c.cursor true)
      else s.setCap d (Cap.make c.sealOf c.meter c.space c.perms (t / 2 ^ e) (b / 2 ^ e) e c.cursor true)

/-- R140: what a metered capability's permissions must be. -/
def meteredOk (p : Nat) : Bool :=
  bitN p Cap.permO && !bitN p Cap.permM && !bitN p Cap.permX && !bitN p Cap.permK && !bitN p Cap.permA

/-- KPRM (R407). -/
def execKprm (a : BitVec 3) (z d : BitVec 2) (s : State) : Out :=
  s.guard .scalar (.kprm a z d) fun s =>
    let c := s.k z
    let v := (s.g a).toNat
    let root := s.me.pl == 3
    if !c.tag then s.capTrap 4 z
    else if root ∧ (v / 2 ^ 24 ≠ 0 ∨ bitN v 11) then s.illegal (.kprm a z d)
    else if !root ∨ !bitN v 8 then
      if !root ∧ v / 2 ^ 8 ≠ 0 then s.illegal (.kprm a z d)
      else if !root ∧ c.sealOf ≠ 0 then s.capTrap 5 z
      else
        let p := c.perms &&& (v % 256)
        if c.meter ≠ 0 ∧ !bitN p Cap.permO then s.capTrap 5 z
        else s.setCap d (Cap.make c.sealOf c.meter c.space p c.top20 c.base20 c.e c.cursor true)
    else
      let sl := bits v 10 9
      let m := bits v 23 12
      if sl = 3 ∨ (m ≠ 0 ∧ !meteredOk (v % 256)) then s.capTrap 5 z
      else s.setCap d (Cap.make sl m c.space (v % 256) c.top20 c.base20 c.e c.cursor true)

/-- The field that KGET reads (R405). -/
def capField (c : Cap) (sel : Nat) : Word :=
  match sel with
  | 0 => word c.cursor
  | 1 => word (wrap 64 c.bounds.1)
  | 2 => word (wrap 64 c.bounds.2)
  | 3 => word (wrap 64 (c.bounds.2 - c.bounds.1))
  | 4 => word c.perms
  | 5 => word c.space
  | 6 => word c.meter
  | 7 => word c.sealOf
  | 8 => word c.e
  | 9 => word (field c.bits 63 0)
  | _ => word (field c.bits 127 64)

/-- KGET (R405). -/
def execKget (d : BitVec 3) (e : BitVec 4) (z : BitVec 2) (s : State) : Out :=
  s.guard .scalar (.kget d e z) fun s => .next ((s.setG d (capField (s.k z) e.toNat)).retire 1)

/-- KMOV (R406). -/
def execKmov (z d : BitVec 2) (s : State) : Out := s.guard .scalar (.kmov z d) fun s => s.setCap d (s.k z)

/-- KTAG (R408). -/
def execKtag (d : BitVec 3) (z : BitVec 2) (s : State) : Out :=
  s.guard .scalar (.ktag d z) fun s => .next ((s.setG d (word (b2n (s.k z).tag))).retire 1)

/-- KCLR (R404). -/
def execKclr (d : BitVec 2) (s : State) : Out := s.guard .scalar (.kclr d) fun s => s.setCap d { s.k d with tag := false }

end Sys2Proof.Machine
end

