-- ==== Sys2Proof/Machine/Dispatch.lean ====
section
/-! DEFINITION. One arm per constructor of `Instr`: the call of its meaning. -/

namespace Sys2Proof.Machine

def exec (i : Instr) (s : State) : Host.Outcome State Fault Refusal :=
  match i with
  | .add x1 x2 x3 => Sys2Proof.Machine.execAdd x1 x2 x3 s
  | .sub x1 x2 x3 => Sys2Proof.Machine.execSub x1 x2 x3 s
  | .and x1 x2 x3 => Sys2Proof.Machine.execAnd x1 x2 x3 s
  | .or x1 x2 x3 => Sys2Proof.Machine.execOr x1 x2 x3 s
  | .xor x1 x2 x3 => Sys2Proof.Machine.execXor x1 x2 x3 s
  | .shl x1 x2 x3 => Sys2Proof.Machine.execShl x1 x2 x3 s
  | .shr x1 x2 x3 => Sys2Proof.Machine.execShr x1 x2 x3 s
  | .sar x1 x2 x3 => Sys2Proof.Machine.execSar x1 x2 x3 s
  | .slt x1 x2 x3 => Sys2Proof.Machine.execSlt x1 x2 x3 s
  | .sltu x1 x2 x3 => Sys2Proof.Machine.execSltu x1 x2 x3 s
  | .min x1 x2 x3 x4 => Sys2Proof.Machine.execMin x1 x2 x3 x4 s
  | .max x1 x2 x3 x4 => Sys2Proof.Machine.execMax x1 x2 x3 x4 s
  | .mul x1 x2 x3 => Sys2Proof.Machine.execMul x1 x2 x3 s
  | .mulh x1 x2 x3 x4 => Sys2Proof.Machine.execMulh x1 x2 x3 x4 s
  | .div x1 x2 x3 x4 => Sys2Proof.Machine.execDiv x1 x2 x3 x4 s
  | .rem x1 x2 x3 x4 => Sys2Proof.Machine.execRem x1 x2 x3 x4 s
  | .clz x1 x2 x3 => Sys2Proof.Machine.execClz x1 x2 x3 s
  | .ffs x1 x2 x3 => Sys2Proof.Machine.execFfs x1 x2 x3 s
  | .popc x1 x2 x3 => Sys2Proof.Machine.execPopc x1 x2 x3 s
  | .sext x1 x2 x3 => Sys2Proof.Machine.execSext x1 x2 x3 s
  | .addi x1 x2 x3 => Sys2Proof.Machine.execAddi x1 x2 x3 s
  | .andi x1 x2 x3 => Sys2Proof.Machine.execAndi x1 x2 x3 s
  | .ori x1 x2 x3 => Sys2Proof.Machine.execOri x1 x2 x3 s
  | .xori x1 x2 x3 => Sys2Proof.Machine.execXori x1 x2 x3 s
  | .slti x1 x2 x3 => Sys2Proof.Machine.execSlti x1 x2 x3 s
  | .lui x1 x2 => Sys2Proof.Machine.execLui x1 x2 s
  | .shli x1 x2 x3 => Sys2Proof.Machine.execShli x1 x2 x3 s
  | .shri x1 x2 x3 => Sys2Proof.Machine.execShri x1 x2 x3 s
  | .sari x1 x2 x3 => Sys2Proof.Machine.execSari x1 x2 x3 s
  | .ld x1 x2 x3 x4 x5 x6 => Sys2Proof.Machine.execLd x1 x2 x3 x4 x5 x6 s
  | .st x1 x2 x3 x4 x5 x6 => Sys2Proof.Machine.execSt x1 x2 x3 x4 x5 x6 s
  | .ldk x1 x2 x3 x4 x5 => Sys2Proof.Machine.execLdk x1 x2 x3 x4 x5 s
  | .stk x1 x2 x3 x4 x5 => Sys2Proof.Machine.execStk x1 x2 x3 x4 x5 s
  | .amo x1 x2 x3 x4 x5 x6 => Sys2Proof.Machine.execAmo x1 x2 x3 x4 x5 x6 s
  | .amoRed x1 x2 x3 x4 x5 => Sys2Proof.Machine.execAmoRed x1 x2 x3 x4 x5 s
  | .acas x1 x2 x3 x4 x5 x6 => Sys2Proof.Machine.execAcas x1 x2 x3 x4 x5 x6 s
  | .bcc x1 x2 x3 x4 => Sys2Proof.Machine.execBcc x1 x2 x3 x4 s
  | .jal x1 x2 => Sys2Proof.Machine.execJal x1 x2 s
  | .jalr x1 x2 => Sys2Proof.Machine.execJalr x1 x2 s
  | .jalrK x1 x2 => Sys2Proof.Machine.execJalrK x1 x2 s
  | .kbnd x1 x2 x3 => Sys2Proof.Machine.execKbnd x1 x2 x3 s
  | .kprm x1 x2 x3 => Sys2Proof.Machine.execKprm x1 x2 x3 s
  | .kadd x1 x2 x3 => Sys2Proof.Machine.execKadd x1 x2 x3 s
  | .kget x1 x2 x3 => Sys2Proof.Machine.execKget x1 x2 x3 s
  | .kmov x1 x2 => Sys2Proof.Machine.execKmov x1 x2 s
  | .ktag x1 x2 => Sys2Proof.Machine.execKtag x1 x2 s
  | .kclr x1 => Sys2Proof.Machine.execKclr x1 s
  | .fspawn x1 x2 x3 => Sys2Proof.Machine.execFspawn x1 x2 x3 s
  | .fexit => Sys2Proof.Machine.execFexit s
  | .yield => Sys2Proof.Machine.execYield s
  | .fid x1 => Sys2Proof.Machine.execFid x1 s
  | .taskq x1 x2 x3 => Sys2Proof.Machine.execTaskq x1 x2 x3 s
  | .taskqKc x1 x2 x3 x4 => Sys2Proof.Machine.execTaskqKc x1 x2 x3 x4 s
  | .twait x1 x2 => Sys2Proof.Machine.execTwait x1 x2 s
  | .twaitPoll x1 x2 => Sys2Proof.Machine.execTwaitPoll x1 x2 s
  | .bara x1 x2 => Sys2Proof.Machine.execBara x1 x2 s
  | .barw x1 x2 x3 => Sys2Proof.Machine.execBarw x1 x2 x3 s
  | .semp x1 x2 => Sys2Proof.Machine.execSemp x1 x2 s
  | .sempTry x1 x2 => Sys2Proof.Machine.execSempTry x1 x2 s
  | .semv x1 => Sys2Proof.Machine.execSemv x1 s
  | .fenceRel x1 => Sys2Proof.Machine.execFenceRel x1 s
  | .fenceX => Sys2Proof.Machine.execFenceX s
  | .ifence => Sys2Proof.Machine.execIfence s
  | .send x1 x2 => Sys2Proof.Machine.execSend x1 x2 s
  | .sendMem x1 x2 x3 x4 => Sys2Proof.Machine.execSendMem x1 x2 x3 x4 s
  | .reply x1 => Sys2Proof.Machine.execReply x1 s
  | .replyMem x1 x2 x3 => Sys2Proof.Machine.execReplyMem x1 x2 x3 s
  | .sendc x1 => Sys2Proof.Machine.execSendc x1 s
  | .sendcMem x1 x2 x3 => Sys2Proof.Machine.execSendcMem x1 x2 x3 s
  | .copen x1 x2 x3 x4 => Sys2Proof.Machine.execCopen x1 x2 x3 x4 s
  | .cshut x1 x2 => Sys2Proof.Machine.execCshut x1 x2 s
  | .crsz x1 x2 x3 => Sys2Proof.Machine.execCrsz x1 x2 x3 s
  | .crszArm x1 x2 x3 => Sys2Proof.Machine.execCrszArm x1 x2 x3 s
  | .cqry x1 x2 => Sys2Proof.Machine.execCqry x1 x2 s
  | .sbind x1 x2 x3 => Sys2Proof.Machine.execSbind x1 x2 x3 s
  | .sfree x1 => Sys2Proof.Machine.execSfree x1 s
  | .spop x1 x2 => Sys2Proof.Machine.execSpop x1 x2 s
  | .spush x1 x2 x3 => Sys2Proof.Machine.execSpush x1 x2 x3 s
  | .scnt x1 x2 => Sys2Proof.Machine.execScnt x1 x2 s
  | .tmov x1 x2 x3 x4 x5 => Sys2Proof.Machine.execTmov x1 x2 x3 x4 x5 s
  | .tmovSq x1 x2 x3 x4 x5 => Sys2Proof.Machine.execTmovSq x1 x2 x3 x4 x5 s
  | .tldt x1 x2 x3 x4 x5 => Sys2Proof.Machine.execTldt x1 x2 x3 x4 x5 s
  | .srd x1 x2 => Sys2Proof.Machine.execSrd x1 x2 s
  | .swr x1 x2 => Sys2Proof.Machine.execSwr x1 x2 s
  | .trap x1 => Sys2Proof.Machine.execTrap x1 s
  | .rft => Sys2Proof.Machine.execRft s
  | .wfe x1 x2 => Sys2Proof.Machine.execWfe x1 x2 s
  | .brk x1 => Sys2Proof.Machine.execBrk x1 s
  | .svc x1 => Sys2Proof.Machine.execSvc x1 s
  | .halt => Sys2Proof.Machine.execHalt s
  | .sha x1 x2 x3 x4 x5 => Sys2Proof.Machine.execSha x1 x2 x3 x4 x5 s
  | .pksign x1 x2 x3 x4 => Sys2Proof.Machine.execPksign x1 x2 x3 x4 s
  | .pkver x1 x2 x3 => Sys2Proof.Machine.execPkver x1 x2 x3 s
  | .rng x1 x2 => Sys2Proof.Machine.execRng x1 x2 s
  | .mext x1 x2 x3 => Sys2Proof.Machine.execMext x1 x2 x3 s
  | .mtrq x1 x2 x3 => Sys2Proof.Machine.execMtrq x1 x2 x3 s
  | .vadd x1 x2 x3 x4 x5 => Sys2Proof.Machine.execVadd x1 x2 x3 x4 x5 s
  | .vsub x1 x2 x3 x4 x5 => Sys2Proof.Machine.execVsub x1 x2 x3 x4 x5 s
  | .vmul x1 x2 x3 x4 x5 => Sys2Proof.Machine.execVmul x1 x2 x3 x4 x5 s
  | .vmin x1 x2 x3 x4 x5 => Sys2Proof.Machine.execVmin x1 x2 x3 x4 x5 s
  | .vmax x1 x2 x3 x4 x5 => Sys2Proof.Machine.execVmax x1 x2 x3 x4 x5 s
  | .vand x1 x2 x3 x4 x5 => Sys2Proof.Machine.execVand x1 x2 x3 x4 x5 s
  | .vor x1 x2 x3 x4 x5 => Sys2Proof.Machine.execVor x1 x2 x3 x4 x5 s
  | .vxor x1 x2 x3 x4 x5 => Sys2Proof.Machine.execVxor x1 x2 x3 x4 x5 s
  | .vsh x1 x2 x3 x4 x5 => Sys2Proof.Machine.execVsh x1 x2 x3 x4 x5 s
  | .vclz x1 x2 x3 x4 => Sys2Proof.Machine.execVclz x1 x2 x3 x4 s
  | .vffs x1 x2 x3 x4 => Sys2Proof.Machine.execVffs x1 x2 x3 x4 s
  | .vpopc x1 x2 x3 x4 => Sys2Proof.Machine.execVpopc x1 x2 x3 x4 s
  | .vfadd x1 x2 x3 x4 x5 => Sys2Proof.Machine.execVfadd x1 x2 x3 x4 x5 s
  | .vfsub x1 x2 x3 x4 x5 => Sys2Proof.Machine.execVfsub x1 x2 x3 x4 x5 s
  | .vfmul x1 x2 x3 x4 x5 => Sys2Proof.Machine.execVfmul x1 x2 x3 x4 x5 s
  | .vfma x1 x2 x3 x4 x5 => Sys2Proof.Machine.execVfma x1 x2 x3 x4 x5 s
  | .vfmin x1 x2 x3 x4 x5 => Sys2Proof.Machine.execVfmin x1 x2 x3 x4 x5 s
  | .vfmax x1 x2 x3 x4 x5 => Sys2Proof.Machine.execVfmax x1 x2 x3 x4 x5 s
  | .vexp2 x1 x2 x3 x4 => Sys2Proof.Machine.execVexp2 x1 x2 x3 x4 s
  | .vlog2 x1 x2 x3 x4 => Sys2Proof.Machine.execVlog2 x1 x2 x3 x4 s
  | .vrcp x1 x2 x3 x4 => Sys2Proof.Machine.execVrcp x1 x2 x3 x4 s
  | .vrsq x1 x2 x3 x4 => Sys2Proof.Machine.execVrsq x1 x2 x3 x4 s
  | .vtanh x1 x2 x3 x4 => Sys2Proof.Machine.execVtanh x1 x2 x3 x4 s
  | .vcmp x1 x2 x3 x4 x5 => Sys2Proof.Machine.execVcmp x1 x2 x3 x4 x5 s
  | .vsel x1 x2 x3 x4 x5 => Sys2Proof.Machine.execVsel x1 x2 x3 x4 x5 s
  | .vperm x1 x2 x3 x4 x5 => Sys2Proof.Machine.execVperm x1 x2 x3 x4 x5 s
  | .vbcst x1 x2 x3 x4 => Sys2Proof.Machine.execVbcst x1 x2 x3 x4 s
  | .vcvt x1 x2 x3 x4 x5 x6 => Sys2Proof.Machine.execVcvt x1 x2 x3 x4 x5 x6 s
  | .vext x1 x2 x3 x4 x5 => Sys2Proof.Machine.execVext x1 x2 x3 x4 x5 s
  | .vins x1 x2 x3 x4 x5 => Sys2Proof.Machine.execVins x1 x2 x3 x4 x5 s
  | .vred x1 x2 x3 x4 x5 => Sys2Proof.Machine.execVred x1 x2 x3 x4 x5 s
  | .vld x1 x2 x3 x4 x5 x6 => Sys2Proof.Machine.execVld x1 x2 x3 x4 x5 x6 s
  | .vst x1 x2 x3 x4 x5 x6 => Sys2Proof.Machine.execVst x1 x2 x3 x4 x5 x6 s
  | .vgth x1 x2 x3 x4 x5 => Sys2Proof.Machine.execVgth x1 x2 x3 x4 x5 s
  | .vsct x1 x2 x3 x4 x5 => Sys2Proof.Machine.execVsct x1 x2 x3 x4 x5 s
  | .vmac x1 x2 x3 x4 x5 => Sys2Proof.Machine.execVmac x1 x2 x3 x4 x5 s
  | .vaclr x1 => Sys2Proof.Machine.execVaclr x1 s
  | .vnrw x1 x2 x3 x4 => Sys2Proof.Machine.execVnrw x1 x2 x3 x4 s
  | .mfmt x1 => Sys2Proof.Machine.execMfmt x1 s
  | .mgang x1 => Sys2Proof.Machine.execMgang x1 s
  | .mma x1 x2 x3 x4 x5 => Sys2Proof.Machine.execMma x1 x2 x3 x4 x5 s
  | .mmaHold x1 x2 x3 x4 x5 => Sys2Proof.Machine.execMmaHold x1 x2 x3 x4 x5 s
  | .mmaHb x1 x2 x3 x4 => Sys2Proof.Machine.execMmaHb x1 x2 x3 x4 s
  | .mzero x1 x2 => Sys2Proof.Machine.execMzero x1 x2 s
  | .mrd x1 x2 => Sys2Proof.Machine.execMrd x1 x2 s
  | .mrdRel x1 x2 => Sys2Proof.Machine.execMrdRel x1 x2 s
  | .mrel x1 => Sys2Proof.Machine.execMrel x1 s
  | .mrcl x1 => Sys2Proof.Machine.execMrcl x1 s
  | .mstat x1 x2 => Sys2Proof.Machine.execMstat x1 x2 s
  | .qenc x1 x2 x3 x4 x5 => Sys2Proof.Machine.execQenc x1 x2 x3 x4 x5 s
  | .qdec x1 x2 x3 x4 x5 x6 => Sys2Proof.Machine.execQdec x1 x2 x3 x4 x5 x6 s
  | .qtrn x1 x2 x3 x4 => Sys2Proof.Machine.execQtrn x1 x2 x3 x4 s
  | .qscl x1 x2 x3 x4 x5 => Sys2Proof.Machine.execQscl x1 x2 x3 x4 x5 s
  | .busyExpiry x1 => Sys2Proof.Machine.execBusyExpiry x1 s
  | .accessReply x1 => Sys2Proof.Machine.execAccessReply x1 s
  | .accessAck x1 => Sys2Proof.Machine.execAccessAck x1 s
  | .homeAccess x1 => Sys2Proof.Machine.execHomeAccess x1 s
  | .fetchRefill x1 => Sys2Proof.Machine.execFetchRefill x1 s
  | .exitComplete x1 => Sys2Proof.Machine.execExitComplete x1 s
  | .leaseRelease x1 => Sys2Proof.Machine.execLeaseRelease x1 s
  | .messageArrival x1 => Sys2Proof.Machine.execMessageArrival x1 s
  | .handlerStart x1 x2 => Sys2Proof.Machine.execHandlerStart x1 x2 s
  | .nack x1 => Sys2Proof.Machine.execNack x1 s
  | .emptyReply x1 => Sys2Proof.Machine.execEmptyReply x1 s
  | .walkDeparture x1 => Sys2Proof.Machine.execWalkDeparture x1 s
  | .walkPacket x1 => Sys2Proof.Machine.execWalkPacket x1 s
  | .walkAck x1 => Sys2Proof.Machine.execWalkAck x1 s
  | .walkFail x1 x2 => Sys2Proof.Machine.execWalkFail x1 x2 s
  | .walkTimeout x1 => Sys2Proof.Machine.execWalkTimeout x1 s
  | .residueSlot x1 x2 => Sys2Proof.Machine.execResidueSlot x1 x2 s
  | .burstStart x1 x2 => Sys2Proof.Machine.execBurstStart x1 x2 s
  | .configForward x1 x2 => Sys2Proof.Machine.execConfigForward x1 x2 s
  | .intercalation x1 => Sys2Proof.Machine.execIntercalation x1 s
  | .deferredClear x1 => Sys2Proof.Machine.execDeferredClear x1 s
  | .circuitResult x1 => Sys2Proof.Machine.execCircuitResult x1 s
  | .operandPeriod x1 => Sys2Proof.Machine.execOperandPeriod x1 s
  | .syncInterval x1 => Sys2Proof.Machine.execSyncInterval x1 s
  | .pdelayReq x1 x2 => Sys2Proof.Machine.execPdelayReq x1 x2 s
  | .taskRecord x1 => Sys2Proof.Machine.execTaskRecord x1 s
  | .taskPlace x1 => Sys2Proof.Machine.execTaskPlace x1 s
  | .priorityAging x1 => Sys2Proof.Machine.execPriorityAging x1 s
  | .taskDispatch x1 x2 => Sys2Proof.Machine.execTaskDispatch x1 x2 s
  | .taskCompletion x1 x2 => Sys2Proof.Machine.execTaskCompletion x1 x2 s
  | .completionPost x1 => Sys2Proof.Machine.execCompletionPost x1 s
  | .msixDeferred x1 x2 => Sys2Proof.Machine.execMsixDeferred x1 x2 s
  | .twaitQuery x1 => Sys2Proof.Machine.execTwaitQuery x1 s
  | .tkill x1 x2 x3 => Sys2Proof.Machine.execTkill x1 x2 x3 s
  | .mailboxEntry x1 => Sys2Proof.Machine.execMailboxEntry x1 s
  | .mbihead x1 x2 => Sys2Proof.Machine.execMbihead x1 x2 s
  | .mbogo x1 x2 => Sys2Proof.Machine.execMbogo x1 x2 s
  | .rephead x1 x2 x3 => Sys2Proof.Machine.execRephead x1 x2 x3 s
  | .replost x1 x2 => Sys2Proof.Machine.execReplost x1 x2 s
  | .trootWrite x1 x2 x3 => Sys2Proof.Machine.execTrootWrite x1 x2 x3 s
  | .invalidatePage x1 x2 => Sys2Proof.Machine.execInvalidatePage x1 x2 s
  | .invalidateAll x1 x2 => Sys2Proof.Machine.execInvalidateAll x1 x2 s
  | .invalidationDone x1 => Sys2Proof.Machine.execInvalidationDone x1 s
  | .pageWalk x1 x2 => Sys2Proof.Machine.execPageWalk x1 x2 s
  | .gatewaySlot x1 => Sys2Proof.Machine.execGatewaySlot x1 s
  | .gatewayWheelReset x1 => Sys2Proof.Machine.execGatewayWheelReset x1 s
  | .mwbaseWrite x1 x2 x3 => Sys2Proof.Machine.execMwbaseWrite x1 x2 x3 s
  | .pwrlimWrite x1 => Sys2Proof.Machine.execPwrlimWrite x1 s
  | .mgrun x1 => Sys2Proof.Machine.execMgrun x1 s
  | .moveCompletion x1 => Sys2Proof.Machine.execMoveCompletion x1 s
  | .dispatchStart x1 => Sys2Proof.Machine.execDispatchStart x1 s
  | .dispatchRetire x1 => Sys2Proof.Machine.execDispatchRetire x1 s
  | .gangJoin x1 => Sys2Proof.Machine.execGangJoin x1 s
  | .mmaSlotWrite x1 => Sys2Proof.Machine.execMmaSlotWrite x1 s
  | .impreciseDelivery x1 => Sys2Proof.Machine.execImpreciseDelivery x1 s
  | .barrierComplete x1 x2 x3 x4 => Sys2Proof.Machine.execBarrierComplete x1 x2 x3 x4 s
  | .barrierTear x1 x2 x3 x4 => Sys2Proof.Machine.execBarrierTear x1 x2 x3 x4 s
  | .gangStop x1 => Sys2Proof.Machine.execGangStop x1 s
  | .gangResume x1 => Sys2Proof.Machine.execGangResume x1 s
  | .stopSequence x1 => Sys2Proof.Machine.execStopSequence x1 s
  | .saveComplete x1 => Sys2Proof.Machine.execSaveComplete x1 s
  | .partitionLost x1 => Sys2Proof.Machine.execPartitionLost x1 s
  | .restoreComplete x1 => Sys2Proof.Machine.execRestoreComplete x1 s
  | .resumeSequence x1 => Sys2Proof.Machine.execResumeSequence x1 s
  | .dieReset x1 => Sys2Proof.Machine.execDieReset x1 s
  | .deferredEntry x1 x2 => Sys2Proof.Machine.execDeferredEntry x1 x2 s
  | .flrComplete x1 => Sys2Proof.Machine.execFlrComplete x1 s
  | .resetDie x1 => Sys2Proof.Machine.execResetDie x1 s
  | .roll x1 => Sys2Proof.Machine.execRoll x1 s
  | .attestationTimeout x1 => Sys2Proof.Machine.execAttestationTimeout x1 s
  | .attestationRetry x1 => Sys2Proof.Machine.execAttestationRetry x1 s
  | .setLinkKey x1 x2 x3 x4 x5 => Sys2Proof.Machine.execSetLinkKey x1 x2 x3 x4 x5 s
  | .linkOpen x1 x2 => Sys2Proof.Machine.execLinkOpen x1 x2 s
  | .closeLink x1 x2 => Sys2Proof.Machine.execCloseLink x1 x2 s
  | .dieOpen x1 => Sys2Proof.Machine.execDieOpen x1 s
  | .autoRollover x1 => Sys2Proof.Machine.execAutoRollover x1 s
  | .keySwitch x1 => Sys2Proof.Machine.execKeySwitch x1 s
  | .keyErase x1 => Sys2Proof.Machine.execKeyErase x1 s
  | .seal x1 => Sys2Proof.Machine.execSeal x1 s
  | .unseal x1 => Sys2Proof.Machine.execUnseal x1 s
  | .meterOpen x1 => Sys2Proof.Machine.execMeterOpen x1 s
  | .meterGrant x1 => Sys2Proof.Machine.execMeterGrant x1 s
  | .meterSign x1 => Sys2Proof.Machine.execMeterSign x1 s
  | .meterClose x1 => Sys2Proof.Machine.execMeterClose x1 s
  | .meterHandover x1 => Sys2Proof.Machine.execMeterHandover x1 s
  | .meterRelease x1 => Sys2Proof.Machine.execMeterRelease x1 s
  | .meterQuery x1 => Sys2Proof.Machine.execMeterQuery x1 s
  | .meterSnapshot x1 => Sys2Proof.Machine.execMeterSnapshot x1 s
  | .meterSumDelivery x1 x2 => Sys2Proof.Machine.execMeterSumDelivery x1 x2 s
  | .seizeWrite x1 x2 x3 => Sys2Proof.Machine.execSeizeWrite x1 x2 x3 s
  | .trclaimWrite x1 x2 x3 x4 x5 => Sys2Proof.Machine.execTrclaimWrite x1 x2 x3 x4 x5 s
  | .traceTakeover x1 x2 => Sys2Proof.Machine.execTraceTakeover x1 x2 s
  | .lcreq x1 => Sys2Proof.Machine.execLcreq x1 s
  | .issueGate x1 => Sys2Proof.Machine.execIssueGate x1 s
  | .registerWrite x1 x2 x3 x4 x5 => Sys2Proof.Machine.execRegisterWrite x1 x2 x3 x4 x5 s
  | .linkTraining x1 x2 => Sys2Proof.Machine.execLinkTraining x1 x2 s
  | .syncMessage x1 x2 => Sys2Proof.Machine.execSyncMessage x1 x2 s
  | .pdelayResp x1 x2 => Sys2Proof.Machine.execPdelayResp x1 x2 s
  | .announce x1 => Sys2Proof.Machine.execAnnounce x1 s
  | .hostSubmit x1 x2 => Sys2Proof.Machine.execHostSubmit x1 x2 s
  | .cqbaseWrite x1 x2 => Sys2Proof.Machine.execCqbaseWrite x1 x2 s
  | .cqsizeWrite x1 x2 => Sys2Proof.Machine.execCqsizeWrite x1 x2 s
  | .cqheadWrite x1 x2 => Sys2Proof.Machine.execCqheadWrite x1 x2 s
  | .cqEnable x1 => Sys2Proof.Machine.execCqEnable x1 s
  | .cqDisable x1 => Sys2Proof.Machine.execCqDisable x1 s
  | .mbtxgo x1 x2 => Sys2Proof.Machine.execMbtxgo x1 x2 s
  | .mbrxack x1 => Sys2Proof.Machine.execMbrxack x1 s
  | .uncorrectableError x1 => Sys2Proof.Machine.execUncorrectableError x1 s
  | .softError x1 x2 => Sys2Proof.Machine.execSoftError x1 x2 s
  | .functionLevelReset x1 => Sys2Proof.Machine.execFunctionLevelReset x1 s
  | .selftest x1 x2 => Sys2Proof.Machine.execSelftest x1 x2 s
  | .attestationResponse x1 x2 => Sys2Proof.Machine.execAttestationResponse x1 x2 s
  | .getVersion x1 x2 => Sys2Proof.Machine.execGetVersion x1 x2 s
  | .getCapabilities x1 x2 => Sys2Proof.Machine.execGetCapabilities x1 x2 s
  | .negotiateAlgorithms x1 x2 => Sys2Proof.Machine.execNegotiateAlgorithms x1 x2 s
  | .getDigests x1 x2 => Sys2Proof.Machine.execGetDigests x1 x2 s
  | .getCertificate x1 x2 => Sys2Proof.Machine.execGetCertificate x1 x2 s
  | .challenge x1 x2 => Sys2Proof.Machine.execChallenge x1 x2 s
  | .getMeasurements x1 x2 => Sys2Proof.Machine.execGetMeasurements x1 x2 s
  | .keyExchange x1 x2 => Sys2Proof.Machine.execKeyExchange x1 x2 s
  | .finish x1 x2 => Sys2Proof.Machine.execFinish x1 x2 s
  | .authenticationFailure x1 x2 => Sys2Proof.Machine.execAuthenticationFailure x1 x2 s
  | .doeObject x1 => Sys2Proof.Machine.execDoeObject x1 s
  | .doeHostRead x1 => Sys2Proof.Machine.execDoeHostRead x1 s
  | .entropyHealthTest x1 => Sys2Proof.Machine.execEntropyHealthTest x1 s
  | .farPortLink x1 x2 x3 x4 => Sys2Proof.Machine.execFarPortLink x1 x2 x3 x4 s
  | .dbgHalt x1 => Sys2Proof.Machine.execDbgHalt x1 s
  | .dbgResume x1 => Sys2Proof.Machine.execDbgResume x1 s
  | .dbgStep x1 => Sys2Proof.Machine.execDbgStep x1 s
  | .readReg x1 => Sys2Proof.Machine.execReadReg x1 s
  | .writeReg x1 => Sys2Proof.Machine.execWriteReg x1 s
  | .readMem x1 => Sys2Proof.Machine.execReadMem x1 s
  | .writeMem x1 => Sys2Proof.Machine.execWriteMem x1 s
  | .arm x1 => Sys2Proof.Machine.execArm x1 s
  | .bkpt x1 => Sys2Proof.Machine.execBkpt x1 s
  | .circuitFlit => Sys2Proof.Machine.execCircuitFlit s
  | .configurationFlit => Sys2Proof.Machine.execConfigurationFlit s
  | .lostSlotsFree => Sys2Proof.Machine.execLostSlotsFree s
  | .rcgo => Sys2Proof.Machine.execRcgo s
  | .reconfigApply => Sys2Proof.Machine.execReconfigApply s
  | .doeDeliver => Sys2Proof.Machine.execDoeDeliver s
  | .doeAbort => Sys2Proof.Machine.execDoeAbort s
  | .checkpoint => Sys2Proof.Machine.execCheckpoint s
  | .crossHalt => Sys2Proof.Machine.execCrossHalt s
  | .coldStart => Sys2Proof.Machine.execColdStart s
  | .warmStart => Sys2Proof.Machine.execWarmStart s
  | .powerLoss => Sys2Proof.Machine.execPowerLoss s
  | .powerPeriod => Sys2Proof.Machine.execPowerPeriod s
  | .intercalatorRequest => Sys2Proof.Machine.execIntercalatorRequest s

end Sys2Proof.Machine
end

