-- ==== Sys2Proof/Machine/Step.lean ====
section
/-! DEFINITION. One step of the package (log 4), and the state in which a given word is the next instruction. -/

namespace Sys2Proof.Machine

/-- One step: an input of the outside, an event that is due, the issue of one core's instruction, or the turn
to the next cycle. -/
def step (s : State) : Host.Outcome State Fault Refusal :=
  match s.nextAction with
  | .run i t => exec i t
  | .done t => .next t
  | .off => .fault .powerOff

/-- The state with a word stored where the next step fetches: at PC of the root core's boot fibre, in its
private store, with nothing else before its issue (log 6). -/
def State.withFetchWord (s : State) (nbits w : Nat) : State := s.placeWord nbits w

end Sys2Proof.Machine
end

