-- ==== Sys2Proof/Safety.lean ====
section
/-! DEFINITION. What counts as a safe step and a well-formed state, in the terms that claims use. -/

namespace Sys2Proof

/-- The step goes on: it neither faults nor refuses. -/
def Machine.Goes (o : Machine.Out) : Prop := ∃ t, o = .next t

/-- Memory keeps its canonical form, so that equal memories are equal lists (log 1). -/
def Machine.State.MemOk (s : Machine.State) : Prop := Machine.Memory.wf s.mem = true

end Sys2Proof
end

