-- ==== Sys2Proof/Certificates/Slice0/Obligations.lean ====
section
/-! DEFINITION. The statements for the provers, and the terms in which they are made. -/

namespace Sys2Proof.Claims
open Sys2Proof.Machine

/-! ## The terms of the statements -/

/-- The instruction answers a next state of which P holds. -/
def Completes (i : Instr) (s : State) (P : State → Prop) : Prop := ∃ t, exec i s = .next t ∧ P t

/-- The state in which the executing fibre has become x and its instruction has a busy time of b cycles (R69): READY again in
the next cycle, or BUSY until a time that is due. Nothing else of the package changes. -/
def busyFor (s : State) (b : Nat) (x : Fibre) : State :=
  let y := { x with park := 0, cont := .none, buf := [] }
  if b = 1 then s.setFib s.cur { y with status := .ready, readyFrom := s.clock + 1 }
  else { s.setFib s.cur { y with status := .busy } with agenda := s.agenda ++ [(s.clock + b, .busyExpiry s.cur)] }

/-- The instruction writes v to gd with a busy time of b, goes on to the next word, and changes nothing else in the package.
-/
def WritesG (i : Instr) (s : State) (d : BitVec 3) (b : Nat) (v : Word) : Prop :=
  exec i s = .next (busyFor s b { s.me with g := lset s.me.g d.toNat v, pc := s.me.pc + 4 })

/-- The instruction writes c to kd, goes on to the next word, and changes nothing else in the package. -/
def WritesK (i : Instr) (s : State) (d : BitVec 2) (c : Cap) : Prop :=
  exec i s = .next (busyFor s 1 { s.me with k := lset s.me.k d.toNat c, pc := s.me.pc + 4 })

/-- The instruction goes on to the next word with a busy time of b and changes nothing else. -/
def Passes (i : Instr) (s : State) (b : Nat) : Prop := exec i s = .next (busyFor s b { s.me with pc := s.me.pc + 4 })

/-- The instruction parks its fibre with a reason code of R70 and what ends its wait; nothing else changes but the model's
note that an instruction which will issue again has been counted (R345). -/
def Parks (i : Instr) (s : State) (reason : Nat) (c : Cont) : Prop :=
  exec i s = .next (s.setFib s.cur
    { s.me with status := .parked, park := reason, cont := c, counted := c == .retry || c == .lease })

/-- The instruction traps precisely, with none of its effects (R382, R258). -/
def Traps (i : Instr) (s : State) (cause : Nat) (info : Word) : Prop :=
  exec i s = .next (s.trapEntry s.cur cause info false s.me.pc)

/-- The executing fibre with another PC reaches code that its core reads without parking (R69, R390). -/
def HitsLocalCode (s : State) (x : Fibre) : Prop :=
  ∃ h, (s.setFib s.cur x).fetchCheck s.cur = .ok h ∧ State.localCode s.cur.core h = true

/-- A taken jump (R390): the fibre, otherwise as x, goes to an address; its cluster's trace unit records it. Busy time 1
where the fetch buffer holds the target or the fetch will park or trap, 5 where the target stands in the own tile store or,
on a service core, in its private store (log 13). -/
def JumpsTo (i : Instr) (s : State) (x : Fibre) (to' : Word) : Prop :=
  let u := s.trace s.cur 1 s.me.pc to'
  let y := { x with pc := to' }
  (State.inBuffer x to'.toNat = true → exec i s = .next (busyFor u 1 y)) ∧
  (State.inBuffer x to'.toNat = false → HitsLocalCode s y → exec i s = .next (busyFor u 5 y)) ∧
  (State.inBuffer x to'.toNat = false → ¬ HitsLocalCode s y → exec i s = .next (busyFor u 1 y))

/-- The 64-bit word that is an integer modulo 2^64. -/
def wordOfInt (x : Int) : Word := BitVec.ofInt 64 x

/-- The byte that memory holds at a physical address. -/
def byteAt (s : State) (a : Nat) : Byte := getByte s.mem a

/-- Every byte of memory, every capability tag and every error mark is as before. -/
def SameMemory (s t : State) : Prop :=
  (∀ a, byteAt t a = byteAt s a) ∧ t.tags = s.tags ∧ t.poison = s.poison ∧ t.errors = s.errors

end Sys2Proof.Claims

open Sys2Proof Sys2Proof.Machine Sys2Proof.Claims

/-! ## Integer instructions -/

/-- R388, R416, R452, R501: the two-operand members of INT-R with busy time 1, and MUL with 3. -/
def Sys2Proof.Claims.IntegerRegisterResults : Prop :=
  ∀ (s : State) (d a b : BitVec 3),
    let x := s.g a
    let y := s.g b
    let n := y.toNat % 64
    WritesG (.add d a b) s d 1 (word (x.toNat + y.toNat)) ∧
    WritesG (.sub d a b) s d 1 (wordOfInt (x.toNat - y.toNat)) ∧
    WritesG (.and d a b) s d 1 (x &&& y) ∧
    WritesG (.or d a b) s d 1 (x ||| y) ∧
    WritesG (.xor d a b) s d 1 (x ^^^ y) ∧
    WritesG (.shl d a b) s d 1 (word (x.toNat * 2 ^ n)) ∧
    WritesG (.shr d a b) s d 1 (word (x.toNat / 2 ^ n)) ∧
    WritesG (.sar d a b) s d 1 (wordOfInt (x.toInt / 2 ^ n)) ∧
    WritesG (.slt d a b) s d 1 (if x.toInt < y.toInt then 1 else 0) ∧
    WritesG (.sltu d a b) s d 1 (if x.toNat < y.toNat then 1 else 0) ∧
    WritesG (.mul d a b) s d 3 (word (x.toNat * y.toNat))

/-- R416, R417: MIN, MAX and MULH, signed and unsigned. -/
def Sys2Proof.Claims.MinMaxMulhResults : Prop :=
  ∀ (s : State) (d a b : BitVec 3),
    let x := s.g a
    let y := s.g b
    WritesG (.min d a b 0) s d 1 (wordOfInt (Min.min x.toInt y.toInt)) ∧
    WritesG (.max d a b 0) s d 1 (wordOfInt (Max.max x.toInt y.toInt)) ∧
    WritesG (.mulh d a b 0) s d 3 (wordOfInt (x.toInt * y.toInt / 2 ^ 64)) ∧
    WritesG (.min d a b 1) s d 1 (word (Min.min x.toNat y.toNat)) ∧
    WritesG (.max d a b 1) s d 1 (word (Max.max x.toNat y.toNat)) ∧
    WritesG (.mulh d a b 1) s d 3 (word (x.toNat * y.toNat / 2 ^ 64))

/-- R394, R445: DIV and REM, with the zero divisor and the one quotient that does not fit; their function codes and the bit
that selects `.u`. -/
def Obligations.DivisionResults : Prop :=
  ∀ (s : State) (d a b : BitVec 3),
    let x := s.g a
    let y := s.g b
    (y = 0 →
      (∀ u, WritesG (.div d a b u) s d 34 (word (2 ^ 64 - 1))) ∧ (∀ u, WritesG (.rem d a b u) s d 34 x)) ∧
    (y ≠ 0 →
      WritesG (.div d a b 1) s d 34 (word (x.toNat / y.toNat)) ∧ WritesG (.rem d a b 1) s d 34 (word (x.toNat % y.toNat)) ∧
      WritesG (.div d a b 0) s d 34 (wordOfInt (Int.tdiv x.toInt y.toInt)) ∧
      WritesG (.rem d a b 0) s d 34 (wordOfInt (Int.tmod x.toInt y.toInt))) ∧
    (x.toInt = -2 ^ 63 → y.toInt = -1 → WritesG (.div d a b 0) s d 34 x ∧ WritesG (.rem d a b 0) s d 34 0) ∧
    (∀ u : BitVec 1,
      let word' (fn : Nat) := 2 ^ 26 + d.toNat * 2 ^ 23 + a.toNat * 2 ^ 20 + b.toNat * 2 ^ 17 + fn * 2 ^ 11 + u.toNat
      decodeWord (word' 14) = .ok (.div d a b u) ∧ decodeWord (word' 15) = .ok (.rem d a b u))

/-- R392, R416, R452: CLZ, FFS, POPC and SEXT on the low w bits: the result is the number that these conditions single out.
-/
def Obligations.BitCountResults : Prop :=
  ∀ (s : State) (d a : BitVec 3) (m : BitVec 2),
    let w := 8 * 2 ^ m.toNat
    let x : Nat := (s.g a).toNat % 2 ^ w
    (∃ n, WritesG (.clz d a m) s d 1 (word n) ∧ (x = 0 → n = w) ∧
      (x ≠ 0 → n < w ∧ 2 ^ (w - 1 - n) ≤ x ∧ x < 2 ^ (w - n))) ∧
    (∃ n, WritesG (.ffs d a m) s d 1 (word n) ∧ (x = 0 → n = 0) ∧
      (x ≠ 0 → 1 ≤ n ∧ n ≤ w ∧ x % 2 ^ n = 2 ^ (n - 1))) ∧
    WritesG (.popc d a m) s d 1 (word ((List.range w).filter fun i => x.testBit i).length) ∧
    (∃ v : Int, WritesG (.sext d a m) s d 1 (wordOfInt v) ∧ -2 ^ (w - 1) ≤ v ∧ v < 2 ^ (w - 1) ∧ (x : Int) % 2 ^ w = v % 2 ^ w)

/-- R389, R415, R436, R453, R466, R502: the immediate forms and the shifts by a constant. -/
def Sys2Proof.Claims.ImmediateResults : Prop :=
  ∀ (s : State) (d a : BitVec 3) (i : BitVec 20) (n : BitVec 6),
    let x := s.g a
    WritesG (.addi d a i) s d 1 (wordOfInt (x.toNat + i.toInt)) ∧
    WritesG (.andi d a i) s d 1 (x &&& wordOfInt i.toInt) ∧
    WritesG (.ori d a i) s d 1 (x ||| wordOfInt i.toInt) ∧
    WritesG (.xori d a i) s d 1 (x ^^^ wordOfInt i.toInt) ∧
    WritesG (.slti d a i) s d 1 (if x.toInt < i.toInt then 1 else 0) ∧
    WritesG (.lui d i) s d 1 (wordOfInt (i.toInt * 2 ^ 12)) ∧
    WritesG (.shli d a n) s d 1 (word (x.toNat * 2 ^ n.toNat)) ∧
    WritesG (.shri d a n) s d 1 (word (x.toNat / 2 ^ n.toNat)) ∧
    WritesG (.sari d a n) s d 1 (wordOfInt (x.toInt / 2 ^ n.toNat))

/-- R388, R389, R415 to R417, R436, R452, R453, R466, R501, R502: the integer results but division and the bit counts. -/
def Obligations.IntegerResults : Prop :=
  Sys2Proof.Claims.IntegerRegisterResults ∧ Sys2Proof.Claims.MinMaxMulhResults ∧ Sys2Proof.Claims.ImmediateResults

/-! ## Control, traps and the fibre group -/

/-- R65, R390, R399, R400: branches and jumps, and the traps of JALR. On a service core `jalr.k` enters its private store
too. The busy time of 5 at a target in that store is the model's reading (log 13). -/
def Obligations.BranchesAndJumps : Prop :=
  ∀ (s : State) (d a b c : BitVec 3) (o : BitVec 17) (j : BitVec 23) (n : BitVec 2),
    let x := s.g a
    let y := s.g b
    let pc := s.me.pc
    let taken := (c = 0 ∧ x = y) ∨ (c = 1 ∧ x ≠ y) ∨ (c = 2 ∧ x.toInt < y.toInt) ∨ (c = 3 ∧ y.toInt ≤ x.toInt) ∨
      (c = 4 ∧ x.toNat < y.toNat) ∨ (c = 5 ∧ y.toNat ≤ x.toNat)
    let link := { s.me with g := lset s.me.g d.toNat (pc + 4) }
    let e := s.k n
    let info := word (e.cursor + n.toNat * 2 ^ 56)
    let enters := (1 ≤ e.space ∧ e.space ≤ 3) ∨ (isService s.cur.core = true ∧ e.space = 7)
    let sentry := e.tag = true ∧ e.sealOf = 1 ∧ e.has Cap.permX = true
    (c.toNat < 6 → taken → JumpsTo (.bcc a b c o) s s.me (pc + wordOfInt (4 * o.toInt))) ∧
    (c.toNat < 6 → ¬ taken → Passes (.bcc a b c o) s 1) ∧
    JumpsTo (.jal d j) s link (pc + wordOfInt (4 * j.toInt)) ∧
    (x.toNat % 4 = 0 → JumpsTo (.jalr d a) s link x) ∧
    (x.toNat % 4 ≠ 0 → Traps (.jalr d a) s 8 x) ∧
    (e.tag = false → Traps (.jalrK d n) s 4 info) ∧
    (e.tag = true → (e.sealOf ≠ 1 ∨ e.has Cap.permX = false) → Traps (.jalrK d n) s 5 info) ∧
    (sentry → ¬ enters → Traps (.jalrK d n) s 6 info) ∧
    (sentry → enters → (e.cursor : Int) < e.bounds.1 ∨ e.bounds.2 < (e.cursor : Int) + 4 → Traps (.jalrK d n) s 7 info) ∧
    (sentry → enters → e.bounds.1 ≤ e.cursor → (e.cursor : Int) + 4 ≤ e.bounds.2 → e.cursor % 4 ≠ 0 →
      Traps (.jalrK d n) s 8 (word e.cursor)) ∧
    (sentry → enters → e.bounds.1 ≤ e.cursor →
      (e.cursor : Int) + 4 ≤ e.bounds.2 → e.cursor % 4 = 0 →
      ∃ r c', JumpsTo (.jalrK d n) s { link with k := lset s.me.k n.toNat r, code := c', fbuf := none } (word e.cursor) ∧
        r.tag = true ∧ r.sealOf = 1 ∧ r.cursor = (pc + 4).toNat % 2 ^ 56 ∧ r.perms = s.me.code.perms ∧
        r.space = s.me.code.space ∧ r.meter = s.me.code.meter ∧
        c'.tag = true ∧ c'.sealOf = 2 ∧ c'.cursor = e.cursor ∧ c'.perms = e.perms ∧ c'.space = e.space ∧ c'.meter = e.meter)

/-- R256, R258: what taking a trap does to a fibre outside a handler whose core holds a trap code capability for the level:
the trap frame is written, the fibre runs at the level in the handler, its registers, OUTS and lease are kept, and a gang of
which it is a member is no longer formed. Inside a handler, or without the capability, the fibre ends: it waits as FEXIT
does, its task is marked as ended by a fault. A target that is no multiple of 4 is rounded down (log 102). -/
def Sys2Proof.Claims.TrapEntryEffect : Prop :=
  ∀ (s : State) (f : FibreRef) (cause : Nat) (info pc : Word) (imp : Bool),
    let x := s.fib f
    let base := if cause = 0x15 then min (x.pl + 1) 3 else if cause = 0x1B then 2 else 1
    let l := max base x.pl
    let kc := s.trapCap f.core l
    let t := s.trapEntry f cause info imp pc
    let y := t.fib f
    let n := tileGang (coreTile f.core)
    (x.trap = false → kc.tag = true →
      y.ppl = x.pl ∧ y.imp = imp ∧ y.epc = pc ∧ y.cause = word cause ∧ y.einfo = info ∧ y.savedCode = x.code ∧
      y.pl = l ∧ y.trap = true ∧ y.code = kc ∧ y.pc = (word kc.cursor + lget 0 (s.core f.core).tvec (l - 1)) &&& ~~~3#64 ∧ y.fbuf = none ∧
      y.status = .ready ∧ y.g = x.g ∧ y.k = x.k ∧ y.outs = x.outs ∧ y.vl = x.vl ∧
      (isService f.core = false → f.core.kind = 2 → (s.gang n).formed = true → f ∈ (s.gang n).members → (t.gang n).formed = false)) ∧
    ((x.trap = true ∨ kc.tag = false) → (∀ d m, x.cont ≠ .wfe d m) → y.status = .parked ∧
      (y.cont = .exit ∨ y.cont = .leaseDrop true) ∧ y.g = x.g ∧ y.pc = x.pc ∧
      (x.inTask = true → (tget {} (t.die x.tdie).tasks x.taskix).faulted = true))

/-- R382, R348: a precise trap of a fibre that is no gang member and whose cluster has no trace unit in use changes nothing
but that fibre: no byte of memory, no other fibre, no core. -/
def Sys2Proof.Claims.TrapEntryFrame : Prop :=
  ∀ (s : State) (f : FibreRef) (cause : Nat) (info pc : Word) (imp : Bool),
    let l := max (State.causeLevel cause (s.fib f).pl) (s.fib f).pl
    (s.fib f).trap = false → (s.trapCap f.core l).tag = true →
    (s.cluster (tileCluster (coreTile f.core))).trOwner = 0 →
    f ∉ (s.gang (tileGang (coreTile f.core))).members →
    let t := s.trapEntry f cause info imp pc
    t = s.setFib f (t.fib f)

/-- R257, R258, R348: what taking a trap writes, and what it leaves. -/
def Obligations.TrapEntry : Prop :=
  Sys2Proof.Claims.TrapEntryEffect ∧ Sys2Proof.Claims.TrapEntryFrame

/-- R474, R478, R391: SVC, TRAP and an unarmed BRK take their traps, wherever the core may execute them. -/
def Sys2Proof.Claims.TrapInstructions : Prop :=
  ∀ (s : State) (z : BitVec 12),
    (s.cur.core ≠ .mgmt → Traps (.svc z) s 0x15 (word z.toNat)) ∧
    (s.cur.core = .mgmt → Traps (.svc z) s 1 (word (wordOf (.svc z)).toNat)) ∧
    Traps (.trap z) s 0x16 (word z.toNat) ∧
    (s.armed s.cur.core = false → Traps (.brk z) s 0x14 (word z.toNat))

/-- R391, R398, R339: BRK and HALT of an armed core are halt triggers that count as executed: the fibre goes past them and
issues nothing more before the halt; the cluster's armed cores will halt in the third cycle after, those of other clusters in
the 67th. HALT of an unarmed core has no effect; at U it traps PRIV. -/
def Sys2Proof.Claims.HaltInstructions : Prop :=
  ∀ (s : State) (z : BitVec 12),
    let n := tileCluster (coreTile s.cur.core)
    let u := { s.modCluster n (fun c => { c with haltAt := c.haltAt ++ [s.clock + 3] }) with
      agenda := if (s.cluster n).xo then s.agenda ++ [(s.clock + 67, Instr.crossHalt)] else s.agenda }
    let halting := u.setFib s.cur { s.me with
      pc := s.me.pc + 4, status := .ready, park := 0, cont := .none, buf := [], readyFrom := s.clock + 3 }
    (s.armed s.cur.core = true → (s.core s.cur.core).halted = false →
      exec (.brk z) s = .next halting ∧ (0 < s.me.pl → exec .halt s = .next halting)) ∧
    (s.armed s.cur.core = false → 0 < s.me.pl → Passes .halt s 1) ∧
    (s.me.pl = 0 → Traps .halt s 3 0)

/-- R339, R391, R398, R474, R478: the instructions whose effect is a trap, and BRK and HALT. -/
def Obligations.TrapAndHaltInstructions : Prop :=
  Sys2Proof.Claims.TrapInstructions ∧ Sys2Proof.Claims.HaltInstructions

/-- R259, R449: RFT restores the PC, the privilege and the code capability that the trap saved; at U it traps PRIV, outside a
handler ILLEGAL, and for a return address that is not a multiple of 4 ALIGN. -/
def Obligations.ReturnFromTrap : Prop :=
  ∀ s : State,
    let x := s.me
    (0 < x.pl → x.trap = true → x.epc.toNat % 4 = 0 →
      exec .rft s = .next ((s.trace s.cur 3 x.pc x.epc).setFib s.cur
        { x with
          pc := x.epc, pl := x.ppl, trap := false, code := x.savedCode, fbuf := none, counted := false
          status := .ready, park := 0, cont := .none, readyFrom := s.clock + 1 })) ∧
    (x.pl = 0 → Traps .rft s 3 0) ∧
    (0 < x.pl → x.trap = false → Traps .rft s 1 (word (wordOf .rft).toNat)) ∧
    (0 < x.pl → x.trap = true → x.epc.toNat % 4 ≠ 0 → Traps .rft s 8 x.epc)

/-- R348: a trace record stands in the die store at the unit's write position, moves that position by 32 modulo 1 MiB, and
changes no other byte; where no trace unit follows the core, nothing changes. The order of the fields within the record is
the model's choice (log 14). -/
def Sys2Proof.Claims.TraceRecordFrame : Prop :=
  ∀ (s : State) (f : FibreRef) (kind : Nat) (pc target : Word),
    let n := tileCluster (coreTile f.core)
    let c := s.cluster n
    let follows := isService f.core = false ∧ c.trOwner ≠ 0 ∧ field c.trSel 34 32 = f.core.kind ∧
      field c.trSel 19 16 = tileY (coreTile f.core) % 4 * 4 + tileX (coreTile f.core) % 4
    let t := s.trace f kind pc target
    let dst := paOf 3 f.core.die (field c.trSel 46 40 * 2 ^ 20 + c.trPos)
    (¬ follows → t = s) ∧
    (follows →
      (∀ a, a < dst ∨ dst + 32 ≤ a → byteAt t a = byteAt s a) ∧
      (Memory.wf s.mem = true → t.readBytes dst 32 = leBytes 8 s.wheel ++ leBytes 2 s.slotNo ++ leBytes 2 kind ++ leBytes 4 (fibreId f)
        ++ leBytes 8 pc.toNat ++ leBytes 8 target.toNat) ∧
      (t.cluster n).trPos = (c.trPos + 32) % 2 ^ 20 ∧ t.fibres = s.fibres ∧ t.cores = s.cores ∧ t.tiles = s.tiles)

/-- R395, R396, R397, R503: FSPAWN into the lowest free slot of the pool, its ALIGN and FIBRE_LIMIT traps, FID, YIELD, and
what FEXIT waits for. -/
def Obligations.FibreInstructions : Prop :=
  ∀ (s : State) (d a b : BitVec 3) (n : Nat),
    let c := s.cur.core
    let f : FibreRef := ⟨c, n⟩
    let x := s.me
    (n < 224 → (s.fib f).status = .free → (∀ m, m < n → (s.fib ⟨c, m⟩).status ≠ .free) → s.cur ≠ f → (s.g b).toNat % 4 = 0 →
      x.inTask = false →
      exec (.fspawn d a b) s = .next (busyFor
        (s.setFib f
          { status := .ready, readyFrom := s.clock + 1, pc := s.g b, g := [s.g a, word (fibreId s.cur), 0, 0, 0, 0, 0, 0],
            k := x.k, code := x.code, tdie := x.tdie, taskix := x.taskix, pl := x.pl, taskseq := x.taskseq }) 1
        { x with g := lset x.g d.toNat (word (fibreId f)), pc := x.pc + 4 })) ∧
    ((s.g b).toNat % 4 ≠ 0 → Traps (.fspawn d a b) s 8 (s.g b)) ∧
    ((s.g b).toNat % 4 = 0 → (∀ m, m < 224 → (s.fib ⟨c, m⟩).status ≠ .free) → Traps (.fspawn d a b) s 0x17 0) ∧
    WritesG (.fid d) s d 1 (word (fibreId s.cur)) ∧
    exec .yield s = .next (s.setFib s.cur
      { x with pc := x.pc + 4, status := .ready, park := 0, cont := .none, buf := [], readyFrom := s.clock + 2 }) ∧
    (x.trap = true ∨ x.pendFault = none ∧ x.pendStop = false →
      Completes .fexit s (fun t => (t.fib s.cur).status = .parked ∧ t.mem = s.mem ∧
      (x.outs = 0 → s.movesOf s.cur = false → x.vl = true → t.isDue (.leaseRelease c) = true) ∧
      (x.outs = 0 → s.movesOf s.cur = false → x.vl = false → s.laneWritesOf s.cur = false → t.isDue (.exitComplete s.cur) = true) ∧
      ((0 < x.outs ∨ s.movesOf s.cur = true) → (t.fib s.cur).cont = .exit ∧ t.agenda = s.agenda)))

/-! ## Capabilities -/

namespace Sys2Proof.Claims

/-- Two capabilities agree in every bit but the named field. -/
def SameButCursor (r c : Cap) : Prop := field r.bits 127 56 = field c.bits 127 56
def SameButPerms (r c : Cap) : Prop := field r.bits 127 110 = field c.bits 127 110 ∧ field r.bits 101 0 = field c.bits 101 0
def SameButBounds (r c : Cap) : Prop := field r.bits 127 102 = field c.bits 127 102 ∧ field r.bits 55 0 = field c.bits 55 0

/-- Every permission of r is one of c's, and the bounds of r lie within c's (R136). -/
def Within (r c : Cap) : Prop := r.perms &&& c.perms = r.perms ∧ c.bounds.1 ≤ r.bounds.1 ∧ r.bounds.2 ≤ c.bounds.2

end Sys2Proof.Claims

/-- R404, R406, R408: KCLR clears the tag and keeps the 128 bits, KMOV copies bits and tag, KTAG writes the tag to bit 0 of
gd; none of them traps, whatever the capability. -/
def Sys2Proof.Claims.CapabilityMoves : Prop :=
  ∀ (s : State) (d z : BitVec 2) (g : BitVec 3),
    WritesK (.kclr d) s d ⟨(s.k d).bits, false⟩ ∧
    WritesK (.kmov z d) s d (s.k z) ∧
    WritesG (.ktag g z) s g 1 (if (s.k z).tag then 1 else 0)

/-- R405: what KGET writes for each selector, tag and seal apart; the bounds modulo 2^64. -/
def Sys2Proof.Claims.CapabilityFields : Prop :=
  ∀ (s : State) (g : BitVec 3) (z : BitVec 2),
    let c := s.k z
    let gives (sel : BitVec 4) (v : Word) : Prop := WritesG (.kget g sel z) s g 1 v
    gives 0 (word (field c.bits 55 0)) ∧ gives 1 (wordOfInt c.bounds.1) ∧ gives 2 (wordOfInt c.bounds.2) ∧
    gives 3 (wordOfInt (c.bounds.2 - c.bounds.1)) ∧ gives 4 (word (field c.bits 109 102)) ∧
    gives 5 (word (field c.bits 113 110)) ∧ gives 6 (word (field c.bits 125 114)) ∧ gives 7 (word (field c.bits 127 126)) ∧
    gives 8 (word (field c.bits 61 56)) ∧ gives 9 (word (field c.bits 63 0)) ∧ gives 10 (word (field c.bits 127 64)) ∧
    (∀ sel : BitVec 4, 11 ≤ sel.toNat → Traps (.kget g sel z) s 1 (word (wordOf (.kget g sel z)).toNat))

/-- R404, R405, R406, R408: the capability instructions that copy, and those that read or write one field. -/
def Obligations.Capabilities : Prop :=
  Sys2Proof.Claims.CapabilityMoves ∧ Sys2Proof.Claims.CapabilityFields

/-- R402: KADD traps CAP_TAG for an untagged source and CAP_PERM for a sealed one; else it adds to the cursor modulo 2^56 and
keeps every other bit, and the tag stands exactly when the result is representable and has the bounds of the source. -/
def Sys2Proof.Claims.KaddResult : Prop :=
  ∀ (s : State) (a : BitVec 3) (z d : BitVec 2),
    let c := s.k z
    let v := (s.g a).toNat
    let info := word (c.cursor + z.toNat * 2 ^ 56)
    (c.tag = false → Traps (.kadd a z d) s 4 info) ∧
    (c.tag = true → c.sealOf ≠ 0 → Traps (.kadd a z d) s 5 info) ∧
    (c.tag = true → c.sealOf = 0 →
      ∃ r, WritesK (.kadd a z d) s d r ∧ SameButCursor r c ∧ r.cursor = (c.cursor + v) % 2 ^ 56 ∧
        (r.tag = true ↔ r.bounds = c.bounds ∧
          (37 ≤ c.e ∨ c.bounds.1 - 2 ^ (c.e + 18) ≤ r.cursor ∧ (r.cursor : Int) < c.bounds.1 + 3 * 2 ^ (c.e + 18))))

/-- R403: KBND traps CAP_TAG for an untagged source, CAP_PERM for a sealed one and ILLEGAL for the length zero. For a source
whose bounds end at 2^56 or below, it takes the bounds that R138 chooses for its cursor and the length, which contain them
all, or traps CAP_BOUNDS where they do not lie within the source's. -/
def Sys2Proof.Claims.KbndResult : Prop :=
  ∀ (s : State) (a : BitVec 3) (z d : BitVec 2),
    let c := s.k z
    let v := (s.g a).toNat
    let info := word (c.cursor + z.toNat * 2 ^ 56)
    let f := Cap.fit c.cursor v
    (c.tag = false → Traps (.kbnd a z d) s 4 info) ∧
    (c.tag = true → c.sealOf ≠ 0 → Traps (.kbnd a z d) s 5 info) ∧
    (c.tag = true → c.sealOf = 0 → v = 0 → Traps (.kbnd a z d) s 1 (word (wordOf (.kbnd a z d)).toNat)) ∧
    (c.tag = true → c.sealOf = 0 → 0 < v → c.bounds.2 ≤ 2 ^ 56 →
      (c.bounds.1 ≤ f.2.1 → (f.2.2 : Int) ≤ c.bounds.2 →
        ∃ r, WritesK (.kbnd a z d) s d r ∧ SameButBounds r c ∧ r.tag = true ∧ r.bounds = ((f.2.1 : Int), (f.2.2 : Int)) ∧
          r.bounds.1 ≤ c.cursor ∧ (c.cursor + v : Int) ≤ r.bounds.2) ∧
      ((f.2.1 : Int) < c.bounds.1 ∨ c.bounds.2 < f.2.2 → Traps (.kbnd a z d) s 7 info))

/-- R407: KPRM traps CAP_TAG for an untagged source, ILLEGAL for reserved bits of its operand, and below Root CAP_PERM for a
sealed source. Without ga[8] it keeps the permissions of the mask, but traps CAP_PERM where a metered capability would lose
O; at Root with ga[8] it sets permissions, seal and meter, but for seal 3 or a metered capability that R140 forbids. Every
other bit is kept. -/
def Sys2Proof.Claims.KprmResult : Prop :=
  ∀ (s : State) (a : BitVec 3) (z d : BitVec 2),
    let c := s.k z
    let v := (s.g a).toNat
    let i := Instr.kprm a z d
    let info := word (c.cursor + z.toNat * 2 ^ 56)
    let p := c.perms &&& v % 256
    let root := s.me.pl = 3
    let masks := (¬ root ∧ v < 256 ∧ c.sealOf = 0) ∨ (root ∧ v < 2 ^ 24 ∧ bitN v 11 = false ∧ bitN v 8 = false)
    let sets := root ∧ v < 2 ^ 24 ∧ bitN v 11 = false ∧ bitN v 8 = true
    let forbidden := bits v 10 9 = 3 ∨ (bits v 23 12 ≠ 0 ∧ meteredOk (v % 256) = false)
    (c.tag = false → Traps i s 4 info) ∧
    (c.tag = true →
      (¬ root → 256 ≤ v → Traps i s 1 (word (wordOf i).toNat)) ∧
      (root → (2 ^ 24 ≤ v ∨ bitN v 11 = true) → Traps i s 1 (word (wordOf i).toNat)) ∧
      (¬ root → v < 256 → c.sealOf ≠ 0 → Traps i s 5 info) ∧
      (masks → c.meter ≠ 0 → bitN p 6 = false → Traps i s 5 info) ∧
      (masks → (c.meter = 0 ∨ bitN p 6 = true) → ∃ r, WritesK i s d r ∧ SameButPerms r c ∧ r.perms = p ∧ r.tag = true) ∧
      (sets → forbidden → Traps i s 5 info) ∧
      (sets → ¬ forbidden → ∃ r, WritesK i s d r ∧ r.tag = true ∧ r.perms = v % 256 ∧ r.sealOf = bits v 10 9 ∧ r.meter = bits v 23 12 ∧
        r.space = c.space ∧ field r.bits 101 0 = field c.bits 101 0))

/-- R402, R403, R407: KADD, KBND and KPRM. -/
def Obligations.CapabilityDerivations : Prop :=
  Sys2Proof.Claims.KaddResult ∧ Sys2Proof.Claims.KbndResult ∧ Sys2Proof.Claims.KprmResult

/-- R141, R402, R403, R407: no derivation below Root widens authority. Whatever KADD, KBND or KPRM writes to its destination
when it completes, if tagged, comes from a tagged and unsealed capability, is no wider in permissions and bounds, keeps its
space and meter, and is unsealed. -/
def Obligations.DerivationNeverWidens : Prop :=
  ∀ (s t : State) (a : BitVec 3) (z d : BitVec 2) (i : Instr),
    (i = .kadd a z d ∨ i = .kbnd a z d ∨ i = .kprm a z d) → s.me.pl ≠ 3 → s.me.k.length = 4 → (s.k z).bounds.2 ≤ 2 ^ 56 →
    exec i s = .next t → t.me.pc = s.me.pc + 4 → t.me.trap = s.me.trap → (t.k d).tag = true →
    Within (t.k d) (s.k z) ∧ (t.k d).space = (s.k z).space ∧ (t.k d).meter = (s.k z).meter ∧
      (s.k z).tag = true ∧ (s.k z).sealOf = 0 ∧ (t.k d).sealOf = 0

/-! ## Scalar accesses -/

namespace Sys2Proof.Claims

/-- The access of n bytes at a that names k passes every check of R144 and R382, is aligned, makes no walk (R87), finds its
granule granted (R123) and no earlier access of the fibre to its bytes outstanding (R225); its home is h. -/
def Reaches (s : State) (k : BitVec 2) (a n perm : Nat) (write : Bool) (h : Home) : Prop :=
  s.checkCap (s.k k) a n perm write = .ok h ∧ a % n = 0 ∧ s.walks s.cur (s.k k) h = false ∧
  s.mustHold s.cur (s.k k).space (a % 2 ^ 56) n = false

/-- The home is memory of the executing core's own tile store. -/
def OwnStore (s : State) (pa : Nat) : Prop :=
  isService s.cur.core = false ∧ paKind pa = 1 ∧ paIdx pa = coreTile s.cur.core

/-- The value that a load of a size code gives from bytes of rising addresses (R411): signed for codes 0 to 3. -/
def Loaded (z : Nat) (bs : List Byte) : Word :=
  if z ≤ 3 then wordOfInt (BitVec.ofNat (8 * bs.length) (leNat bs)).toInt else word (leNat bs)

/-- What a write of bytes at a physical address leaves: those bytes from there, every other byte of memory as it was, the
tags of the 16-byte granules it touches clear and every other tag as it was (R145). -/
def Wrote (s t : State) (pa : Nat) (bs : List Byte) : Prop :=
  (∀ i, i < bs.length → byteAt t (pa + i) = bs.getD i 0) ∧ (∀ a, a < pa ∨ pa + bs.length ≤ a → byteAt t a = byteAt s a) ∧
  (∀ g, g % 16 = 0 → (g ∈ t.tags ↔ g ∈ s.tags ∧ (g + 16 ≤ pa ∨ pa + bs.length ≤ g)))

end Sys2Proof.Claims

/-- R145, R221: a write changes the bytes of its span and no other, clears the tags of what it touches, and leaves every
register, core, tile and event of the package as it was. -/
def Sys2Proof.Claims.WriteFrame : Prop :=
  ∀ (s : State) (pa : Nat) (bs : List Byte), Memory.wf s.mem = true → bs ≠ [] →
    let t := s.writeBytes pa bs
    Wrote s t pa bs ∧ t = { s with mem := t.mem, tags := t.tags, poison := t.poison, errors := t.errors }

/-- R145, R221, R348: the frame of a write, and of a trace record. -/
def Obligations.MemoryWrites : Prop :=
  Sys2Proof.Claims.WriteFrame ∧ Sys2Proof.Claims.TraceRecordFrame

/-- R411, R414, R224: LD and LDK of the own tile store read it in their issue cycle with busy time 3; no byte of memory
changes. LDK keeps the tag when its capability has K. -/
def Obligations.OwnStoreLoads : Prop :=
  ∀ (s : State) (d gi z : BitVec 3) (c k : BitVec 2) (x : BitVec 1) (o : BitVec 14) (pa : Nat),
    (x = 1 ∨ gi = 0) → OwnStore s pa →
    let ix : Int := if x = 1 then ((s.g gi).toNat : Int) else 0
    let n := ldBytes z.toNat
    let a := wrap 64 ((s.k k).cursor + ix + o.toInt * n)
    let b := wrap 64 ((s.k k).cursor + ix + o.toInt * 16)
    (z ≠ 7 → Reaches s k a n State.pR false (.mem pa) → s.readError pa n = none →
      WritesG (.ld d k x gi z o) s d 3 (Loaded z.toNat (s.readBytes pa n))) ∧
    (Reaches s k b 16 State.pR false (.mem pa) → s.readError pa 16 = none → (s.k k).space = 1 →
      exec (.ldk c k x gi o) s = .next (busyFor s 3
        { s.me with
          k := lset s.me.k c.toNat ⟨BitVec.ofNat 128 (leNat (s.readBytes pa 16)), (s.k k).has Cap.permK && s.tags.contains pa⟩
          pc := s.me.pc + 4 }))

/-- R471, R473, R224: ST and STK to the own tile store write it in their issue cycle with busy time 3: the bytes of gd,
rising, one nibble of a byte, or the capability with its tag when the address capability has K; registers keep their values.
-/
def Obligations.OwnStoreStores : Prop :=
  ∀ (s : State) (d gi z : BitVec 3) (c k : BitVec 2) (x : BitVec 1) (o : BitVec 14) (pa : Nat),
    (x = 1 ∨ gi = 0) → OwnStore s pa → s.errors = [] →
    let ix : Int := if x = 1 then ((s.g gi).toNat : Int) else 0
    let n := stBytes z.toNat
    let a := wrap 64 ((s.k k).cursor + ix + o.toInt * n)
    let b := wrap 64 ((s.k k).cursor + ix + o.toInt * 16)
    let old := (byteAt s pa).toNat
    let v := (s.g d).toNat
    let past := { s.me with pc := s.me.pc + 4 }
    (z.toNat ≤ 3 → Reaches s k a n State.pW true (.mem pa) →
      exec (.st d k x gi z o) s = .next (busyFor (s.writeBytes pa (leBytes n v)) 3 past)) ∧
    (z = 4 → Reaches s k a 1 State.pW true (.mem pa) →
      exec (.st d k x gi z o) s = .next (busyFor (s.writeBytes pa [BitVec.ofNat 8 (old / 16 * 16 + v % 16)]) 3 past)) ∧
    (z = 5 → Reaches s k a 1 State.pW true (.mem pa) →
      exec (.st d k x gi z o) s = .next (busyFor (s.writeBytes pa [BitVec.ofNat 8 (old % 16 + v % 16 * 16)]) 3 past)) ∧
    (Reaches s k b 16 State.pW true (.mem pa) → (s.k k).space = 1 →
      exec (.stk c k x gi o) s = .next (busyFor
        (s.writeCap pa ⟨(s.k c).bits, (s.k c).tag && (s.k k).has Cap.permK⟩) 3 past))

/-- R385, R386: an atomic on the own tile store is performed in its issue cycle with busy time 3: it reads the old value,
writes the new one where there is one, and a returning form puts the old value, zero-extended, in gd. An ACAS whose
comparison fails writes nothing. -/
def Obligations.OwnStoreAtomics : Prop :=
  ∀ (s : State) (d a b : BitVec 3) (k : BitVec 2) (p : BitVec 4) (w : BitVec 2) (o : BitVec 8) (pa : Nat),
    OwnStore s pa → s.errors = [] → w.toNat < 2 →
    let n := 4 * 2 ^ w.toNat
    let m := 2 ^ (8 * n)
    let e := wrap 64 ((s.k k).cursor + o.toInt * 8)
    let old := leNat (s.readBytes pa n)
    let x := (s.g a).toNat % m
    let sg (v : Nat) : Int := (BitVec.ofNat (8 * n) v).toInt
    let put (u : State) (i : Instr) (ret : Bool) : Prop :=
      exec i s = .next (busyFor u 3 { s.me with g := if ret then lset s.me.g d.toNat (word old) else s.me.g, pc := s.me.pc + 4 })
    let new : Option Nat :=
      if p = 0 then some ((old + x) % m) else if p = 1 then some (if sg x < sg old then x else old)
      else if p = 2 then some (if sg old < sg x then x else old) else if p = 3 then some (Min.min old x)
      else if p = 4 then some (Max.max old x) else if p = 5 then some (old &&& x) else if p = 6 then some (old ||| x)
      else if p = 7 then some (old ^^^ x) else if p = 8 then some x else none
    (∀ v, new = some v → s.readError pa n = none → Reaches s k e n State.pRWA true (.mem pa) →
      put (s.writeBytes pa (leBytes n v)) (.amo d k a p w o) true) ∧
    (∀ v, new = some v → Reaches s k e n State.pWA true (.mem pa) → put (s.writeBytes pa (leBytes n v)) (.amoRed k a p w o) false) ∧
    (s.readError pa n = none → Reaches s k e n State.pRWA true (.mem pa) →
      put (if old = (s.g b).toNat % m then s.writeBytes pa (leBytes n x) else s) (.acas d k a b w o) true)

/-- R70, R71, R222: doubleword LD and returning atomics with a home in other memory park their fibre with reason MEM until
the reply of the access that they launch; ST and non-returning atomics with such a home are posted, add one to OUTS and go
on; with sixteen outstanding they park with reason ACK and issue again, before a fault that is pending is taken (R263). No
byte of memory changes at issue. -/
def Obligations.RemoteAccesses : Prop :=
  ∀ (s : State) (d a b gi : BitVec 3) (k : BitVec 2) (x : BitVec 1) (o : BitVec 14) (p : BitVec 4) (q : BitVec 8) (pa : Nat),
    (x = 1 ∨ gi = 0) → p.toNat < 9 → ¬ OwnStore s pa → s.granuleOk s.cur.core pa = true → s.measWait (.mem pa) 8 = false →
    let ix : Int := if x = 1 then ((s.g gi).toNat : Int) else 0
    let e := wrap 64 ((s.k k).cursor + ix + o.toInt * 8)
    let f := wrap 64 ((s.k k).cursor + q.toInt * 8)
    let id := s.nextId
    let waits (i : Instr) (op : AccOp) : Prop :=
      Completes i s fun t =>
        t.me.status = .parked ∧ t.me.park = 1 ∧ t.me.cont = .access id ∧ t.me.pc = s.me.pc ∧ t.me.g = s.me.g ∧ SameMemory s t ∧
        ∃ x, t.access id = some x ∧ x.op = op ∧ x.who = s.cur ∧ x.pa = some pa ∧ x.posted = false ∧ x.stage = .sent
    let full := { s.me with status := .parked, park := 2, cont := .retry, counted := true, again := true }
    let posts (i : Instr) (op : AccOp) : Prop :=
      (s.me.outs < 16 → Completes i s fun t =>
        t.me.status = .ready ∧ t.me.outs = s.me.outs + 1 ∧ t.me.pc = s.me.pc + 4 ∧ t.me.g = s.me.g ∧ SameMemory s t ∧
        ∃ x, t.access id = some x ∧ x.op = op ∧ x.who = s.cur ∧ x.pa = some pa ∧ x.posted = true ∧ x.stage = .sent) ∧
      (16 ≤ s.me.outs → exec i s = .next (s.setFib s.cur full))
    (Reaches s k e 8 State.pR false (.mem pa) → waits (.ld d k x gi 3 o) (.load d 3)) ∧
    (Reaches s k e 8 State.pW true (.mem pa) → posts (.st d k x gi 3 o) (.store (leBytes 8 (s.g d).toNat))) ∧
    (Reaches s k f 8 State.pRWA true (.mem pa) → waits (.amo d k a p 1 q) (.atomic (some d) p.toNat (s.g a).toNat 0) ∧
      waits (.acas d k a b 1 q) (.atomic (some d) 15 (s.g a).toNat (s.g b).toNat)) ∧
    (Reaches s k f 8 State.pWA true (.mem pa) → posts (.amoRed k a p 1 q) (.atomic none p.toNat (s.g a).toNat 0))

/-- What a scalar access asks of a capability: its address, size and permissions, and its misaligned EINFO. -/
structure Sys2Proof.Claims.Asked where
  addr : Nat
  size : Nat
  perm : Nat
  write : Bool
  misaligned : Word

/-- The scalar accesses and atomics in every form, with what they ask of capability k (R384, R411, R414, R471, R473). -/
def Sys2Proof.Claims.asks (s : State) (k : BitVec 2) : Instr → Option Sys2Proof.Claims.Asked :=
  let at' (x : BitVec 1) (g : BitVec 3) (off : Int) : Nat :=
    wrap 64 ((s.k k).cursor + (if x = 1 then ((s.g g).toNat : Int) else 0) + off)
  let plain (a n perm : Nat) (write : Bool) : Option Sys2Proof.Claims.Asked := some ⟨a, n, perm, write, word a⟩
  fun
  | .ld _ k' x g z o => if k' = k ∧ z ≠ 7 ∧ (x = 1 ∨ g = 0) then
      plain (at' x g (o.toInt * ldBytes z.toNat)) (ldBytes z.toNat) State.pR false else none
  | .st _ k' x g z o => if k' = k ∧ z.toNat < 6 ∧ (x = 1 ∨ g = 0) then
      plain (at' x g (o.toInt * stBytes z.toNat)) (stBytes z.toNat) State.pW true else none
  | .ldk _ k' x g o => if k' = k ∧ (x = 1 ∨ g = 0) then plain (at' x g (o.toInt * 16)) 16 State.pR false else none
  | .stk _ k' x g o => if k' = k ∧ (x = 1 ∨ g = 0) then
      let a := at' x g (o.toInt * 16)
      some ⟨a, 16, State.pW, true, word (a % 2 ^ 56 + k.toNat * 2 ^ 56)⟩ else none
  | .amo _ k' _ p w o => if k' = k ∧ p.toNat < 9 ∧ w.toNat < 2 then
      plain (at' 0 0 (o.toInt * 8)) (4 * 2 ^ w.toNat) State.pRWA true else none
  | .amoRed k' _ p w o => if k' = k ∧ p.toNat < 9 ∧ w.toNat < 2 then
      plain (at' 0 0 (o.toInt * 8)) (4 * 2 ^ w.toNat) State.pWA true else none
  | .acas _ k' _ _ w o => if k' = k ∧ w.toNat < 2 then plain (at' 0 0 (o.toInt * 8)) (4 * 2 ^ w.toNat) State.pRWA true else none
  | _ => none

/-- The forms that space 8 takes: doublewords, or 16-byte table entries (R125). -/
def Sys2Proof.Claims.takesRegisters : Instr → Option Nat
  | .ld _ _ _ _ z _ => if z = 3 then some 8 else none
  | .st _ _ _ _ z _ => if z = 3 then some 8 else none
  | .ldk _ _ _ _ _ => some 16
  | .stk _ _ _ _ _ => some 16
  | _ => none

/-- R144, R382: the order of the causes of an access whose capability fails, for every form of LD, ST, LDK, STK, AMO and
ACAS: the tag, then the seal and the permissions, then the space, then the bounds, then the address that its space does not
have; a misaligned address traps ALIGN only where all of them pass. EINFO names the address and the register. -/
def Sys2Proof.Claims.CapabilityTraps : Prop :=
  ∀ (s : State) (i : Instr) (k : BitVec 2) (q : Sys2Proof.Claims.Asked), Sys2Proof.Claims.asks s k i = some q →
    let c := s.k k
    let a := q.addr
    let info := word (a % 2 ^ 56 + k.toNat * 2 ^ 56)
    let plain := c.tag = true ∧ c.sealOf = 0 ∧ c.perms &&& q.perm = q.perm ∧ c.has Cap.permO = false
    let inside := plain ∧ c.bounds.1 ≤ (a : Int) ∧ ((a + q.size : Nat) : Int) ≤ c.bounds.2
    let svc := isService s.cur.core
    (c.tag = false → Traps i s 4 info) ∧
    (c.tag = true → (c.sealOf ≠ 0 ∨ c.perms &&& q.perm ≠ q.perm ∨ c.has Cap.permO = true) → Traps i s 5 info) ∧
    (plain → (c.space = 0 ∨ 9 ≤ c.space ∨ (c.space = 7 ∧ svc = false)) → Traps i s 6 info) ∧
    (plain → 1 ≤ c.space → c.space ≤ 8 → (c.space = 7 → svc = true) →
      ((a : Int) < c.bounds.1 ∨ c.bounds.2 < ((a + q.size : Nat) : Int)) → Traps i s 7 info) ∧
    (inside → c.space = 7 → svc = true → (if s.cur.core = .root then 0x80000 else 0x40000) ≤ a → Traps i s 6 info) ∧
    (inside → c.space = 8 → (2 ^ 32 ≤ a ∨ 7 ≤ bits a 31 28 ∨ (svc = false ∧ 0x40 ≤ bits a 27 20)) → Traps i s 6 info) ∧
    (∀ h, s.checkCap c a q.size q.perm q.write = .ok h → a % q.size ≠ 0 → Traps i s 8 q.misaligned)

/-- R125, R126: an aligned access to space 8 that passes CheckCap: where its form is no doubleword and no 16-byte entry, or
the address is no register of its width, it traps ALIGN; below the register's privilege it traps PRIV. -/
def Sys2Proof.Claims.RegisterTraps : Prop :=
  ∀ (s : State) (i : Instr) (k : BitVec 2) (q : Sys2Proof.Claims.Asked) (die block off : Nat), Sys2Proof.Claims.asks s k i = some q →
    s.checkCap (s.k k) q.addr q.size q.perm q.write = .ok (.reg die block off) → q.addr % q.size = 0 →
    let row := State.regRow die block off
    (Sys2Proof.Claims.takesRegisters i = none → Traps i s 8 q.misaligned) ∧
    (row = none → Traps i s 8 q.misaligned) ∧
    (∀ n table r w, Sys2Proof.Claims.takesRegisters i = some n → row = some (table, r, w) →
      ((table = true ↔ n = 16) → s.me.pl < (if q.write = true then w else r) → Traps i s 3 0) ∧
      (¬ (table = true ↔ n = 16) → Traps i s 8 q.misaligned))

/-- R125, R126, R144, R382: where and how an access through a capability traps. -/
def Obligations.AccessTraps : Prop :=
  Sys2Proof.Claims.CapabilityTraps ∧ Sys2Proof.Claims.RegisterTraps

/-! ## System registers and events -/

/-- R372, R373: SRD of a listed register at a privilege that may read it writes gd and nothing else; an unlisted number traps
ILLEGAL with EINFO holding it, a read below the register's privilege PRIV. What the registers of the executing fibre and of
the clock read. -/
def Obligations.SystemRegisterReads : Prop :=
  ∀ (s : State) (d : BitVec 3) (r : BitVec 12),
    let n := r.toNat
    let x := s.me
    let c := s.core s.cur.core
    (∀ p q, sysPriv n = some (p, q) → p ≤ x.pl → (n = 0x13 → 1 ≤ x.pl) → WritesG (.srd d r) s d 1 (s.sysRead s.cur n)) ∧
    (sysPriv n = none → Traps (.srd d r) s 1 (word n)) ∧
    (∀ p q, sysPriv n = some (p, q) → x.pl < p → Traps (.srd d r) s 3 (word n)) ∧
    (n = 0x00 → WritesG (.srd d r) s d 1 (word (fibreId s.cur))) ∧
    (n = 0x03 → WritesG (.srd d r) s d 1 (word x.pl)) ∧
    (n = 0x04 → WritesG (.srd d r) s d 1 (word (s.clock / 1024))) ∧
    (n = 0x05 → WritesG (.srd d r) s d 1 (word (s.clock % 1024))) ∧
    (n = 0x06 → WritesG (.srd d r) s d 1 (word c.fpst)) ∧
    (1 ≤ x.pl →
      (n = 0x10 → WritesG (.srd d r) s d 1 x.cause) ∧ (n = 0x11 → WritesG (.srd d r) s d 1 x.epc) ∧
      (n = 0x12 → WritesG (.srd d r) s d 1 x.einfo) ∧ (n = 0x13 → WritesG (.srd d r) s d 1 (lget 0 c.tvec (x.pl - 1))) ∧
      (n = 0x14 → WritesG (.srd d r) s d 1
        (word (x.ppl * 256 + (if x.imp then 64 else 0) + (if x.lostf then 32 else 0))))) ∧
    (n = 0x20 → WritesG (.srd d r) s d 1 c.mhlo) ∧ (n = 0x21 → WritesG (.srd d r) s d 1 c.mhhi) ∧
    (n = 0x71 → WritesG (.srd d r) s d 1 x.taskseq) ∧
    (0x300 ≤ n → n < 0x340 → WritesG (.srd d r) s d 1 (tget 0 c.geom (n - 0x300)))

/-- R372, R373, R376: SWR of a register writes it and goes on: the trap frame of the executing fibre, the registers of its
core; a value with a bit that the register reserves traps ILLEGAL and changes nothing, at any privilege; else a write below
the register's privilege traps PRIV. That CAUSE refuses the codes that are never raised is the model's reading (log 102). -/
def Obligations.SystemRegisterWrites : Prop :=
  ∀ (s : State) (a : BitVec 3) (r : BitVec 12),
    let n := r.toNat
    let x := s.me
    let v := s.g a
    let past := { x with pc := x.pc + 4 }
    let core (h : Core → Core) : Prop := exec (.swr a r) s = .next (busyFor (s.modCore s.cur.core h) 1 past)
    (1 ≤ x.pl →
      (n = 0x10 → v.toNat < 0x1C → v.toNat ≠ 0x0F → exec (.swr a r) s = .next (busyFor s 1 { past with cause := v })) ∧
      (n = 0x11 → v.toNat < 2 ^ 56 → exec (.swr a r) s = .next (busyFor s 1 { past with epc := v })) ∧
      (n = 0x12 → exec (.swr a r) s = .next (busyFor s 1 { past with einfo := v })) ∧
      (n = 0x13 → v.toNat < 2 ^ 56 → v.toNat % 4 = 0 → core fun c => { c with tvec := lset c.tvec (x.pl - 1) v }) ∧
      (n = 0x20 → v.toNat < 2 ^ 56 → core fun c => { c with mhlo := v }) ∧
      (n = 0x21 → v.toNat < 2 ^ 56 → core fun c => { c with mhhi := v })) ∧
    (n = 0x10 → (0x1C ≤ v.toNat ∨ v.toNat = 0x0F) → Traps (.swr a r) s 1 (word (wordOf (.swr a r)).toNat)) ∧
    (n = 0x11 → 2 ^ 56 ≤ v.toNat → Traps (.swr a r) s 1 (word (wordOf (.swr a r)).toNat)) ∧
    (n = 0x11 → v.toNat < 2 ^ 56 → x.pl = 0 → Traps (.swr a r) s 3 (word n)) ∧
    (n = 0x06 → core fun c => { c with fpst := v.toNat % 32 }) ∧
    (0x300 ≤ n → n < 0x340 →
      core fun c => { c with geom := tset c.geom (n - 0x300) (v &&& wordOfInt (2 ^ 64 - 1 - 3 * 2 ^ 60)) }) ∧
    (sysPriv n = none → Traps (.swr a r) s 1 (word n))

/-- R499, R500: WFE with a selected event in the latch returns the selected events, clears them and goes on; without one it
parks with reason WFE. A selector of zero or beyond bit 6 traps ILLEGAL. -/
def Sys2Proof.Claims.WaitForEvent : Prop :=
  ∀ (s : State) (d : BitVec 3) (z : BitVec 12),
    let sel := z.toNat
    let el := s.me.latch
    (0 < sel → sel < 128 → el &&& sel ≠ 0 →
      exec (.wfe d z) s = .next (busyFor s 1
        { s.me with latch := el &&& (127 - sel), g := lset s.me.g d.toNat (word (el &&& sel)), pc := s.me.pc + 4 })) ∧
    (0 < sel → sel < 128 → el &&& sel = 0 → Parks (.wfe d z) s 10 (.wfe d sel)) ∧
    ((sel = 0 ∨ 128 ≤ sel) → Traps (.wfe d z) s 1 (word (wordOf (.wfe d z)).toNat))

/-! ## Semaphores, barriers and fences -/

/-- R251, R252: SEMP takes a unit at once where there is one, else parks with reason SEM behind the earlier waiters; SEMP.TRY
then writes 1 and goes on; SEMV adds a unit, and at 65,535 sets OVF. The waiters of the semaphore take units after the
increments and writes of the cycle, in the order in which they parked, as long as there are units: a semaphore that changes
is noted for that (logs 4 and 24), and at the end of the cycle the first waiter takes the unit. -/
def Sys2Proof.Claims.SemaphoreInstructions : Prop :=
  ∀ (s : State) (d : BitVec 3) (n : BitVec 6),
    let c := s.cur.core
    let k := s.sem c n.toNat
    let past := { s.me with pc := s.me.pc + 4 }
    let took := busyFor (s.setSem c n.toNat (k.1 - 1, k.2)) 1 { past with g := lset s.me.g d.toNat 0 }
    (0 < k.1 → exec (.semp d n) s = .next took ∧ exec (.sempTry d n) s = .next took) ∧
    (k.1 = 0 → exec (.semp d n) s = .next ((s.setSemWaiters c (s.semWaiters c ++ [(n.toNat, s.cur)])).setFib s.cur
      { s.me with status := .parked, park := 5, cont := .sem d n.toNat, counted := false })) ∧
    (k.1 = 0 → WritesG (.sempTry d n) s d 1 1) ∧
    (s.me.cont = .none → Completes (.semv n) s fun t =>
      t.sem c n.toNat = (if k.1 = 65535 then (65535, true) else (k.1 + 1, k.2)) ∧ t.me.pc = s.me.pc + 4 ∧
      State.semName c n.toNat ∈ t.semWork ∧ (∀ m, m ≠ n.toNat → t.sem c m = s.sem c m) ∧ t.mem = s.mem ∧ t.me.g = s.me.g) ∧
    (∀ f f' : FibreRef, s.semWork = [State.semName c n.toNat] → f ≠ f' → (s.fib f).cont = .sem d n.toNat → (s.fib f).g.length = 8 →
      s.semWaiters c = [(n.toNat, f), (n.toNat, f')] → k.1 = 1 →
      let t := s.serveSems
      t.sem c n.toNat = (0, k.2) ∧ (t.fib f).status = .ready ∧ (t.fib f).pc = (s.fib f).pc + 4 ∧ lget 0 (t.fib f).g d.toNat = 0 ∧
        t.fib f' = s.fib f' ∧ t.semWaiters c = [(n.toNat, f')] ∧ t.semWork = [] ∧ t.mem = s.mem)

/-- R251, R252, R499, R500: WFE, and the semaphores. -/
def Obligations.EventsAndSemaphores : Prop :=
  Sys2Proof.Claims.WaitForEvent ∧ Sys2Proof.Claims.SemaphoreInstructions

/-- R244 to R248: BARA of a member records an arrival for the current phase, then for the next one, and returns the phase; of
a core that is no member it returns NOTMEMBER and records nothing; beyond both it returns status 4. BARW returns at once for
a phase that has completed, else parks with reason BAR; bits 63:16 of its token must be zero. -/
def Sys2Proof.Claims.BarrierInstructions : Prop :=
  ∀ (s : State) (d a : BitVec 3) (n : BitVec 7), n.toNat < 96 →
    let c := s.cur.core
    let m := n.toNat
    let b := s.bar c m
    let tok := (s.g a).toNat
    let dist := (b.phase + 65536 - tok) % 65536
    (s.barMember c m = false → WritesG (.bara d n) s d 1 (word (2 ^ 16))) ∧
    (s.barMember c m = true → b.arr < b.count →
      Completes (.bara d n) s fun t =>
        t.bar c m = { b with arr := b.arr + 1 } ∧ t.me.g = lset s.me.g d.toNat (word b.phase) ∧ t.me.pc = s.me.pc + 4 ∧ t.mem = s.mem) ∧
    (s.barMember c m = true → b.count ≤ b.arr → b.ahead < b.count →
      Completes (.bara d n) s fun t =>
        t.bar c m = { b with ahead := b.ahead + 1 } ∧ t.me.g = lset s.me.g d.toNat (word ((b.phase + 1) % 65536)) ∧
        t.me.pc = s.me.pc + 4 ∧ t.mem = s.mem) ∧
    (s.barMember c m = true → b.count ≤ b.arr → b.count ≤ b.ahead →
      WritesG (.bara d n) s d 1 (word (4 * 2 ^ 16 + (b.phase + 1) % 65536))) ∧
    (tok < 65536 → s.barMember c m = true → 1 ≤ dist → dist ≤ 32768 → WritesG (.barw d a n) s d 1 (word tok)) ∧
    (tok < 65536 → s.barMember c m = true → (dist = 0 ∨ 32768 < dist) → Parks (.barw d a n) s 4 (.bar d tok m)) ∧
    (tok < 65536 → s.barMember c m = false → WritesG (.barw d a n) s d 1 (word (2 ^ 16))) ∧
    (65536 ≤ tok → Traps (.barw d a n) s 1 (s.g a))

/-- R245, R249: a phase completes at a core: PHASE counts on modulo 2^16, ARR takes AHEAD, and a fibre that waits for the
phase gets status 0. A tear reaches every member of the old configuration, the core that was rewritten among them: the
barrier forgets its phase and arrivals there, and a fibre that waits on it gets status 2. A completion at such a member that
falls in the tear's cycle or before stands, and a fibre that waits for its phase gets status 0; a later one does not happen.
-/
def Sys2Proof.Claims.BarrierEvents : Prop :=
  ∀ (s : State) (p n : Nat) (v : Word) (k : BitVec 3) (c : CoreId) (f : FibreRef) (d : BitVec 3) (tok : Nat),
    let at' (i : Instr) : Prop := ∃ w j, i = .barrierComplete p n w j ∧ c ∈ s.barRequired p w j.toNat
    let noneDue := ∀ x ∈ s.agenda, ¬ at' x.2
    let waits := s.fibres = [(f, s.fib f)] ∧ f.core = c ∧ (s.fib f).cont = .bar d tok n ∧ (s.fib f).g.length = 8
    let woken (t : State) (status : Nat) : Prop :=
      (t.fib f).status = .ready ∧ (t.fib f).pc = (s.fib f).pc + 4 ∧ lget 0 (t.fib f).g d.toNat = word (status * 2 ^ 16 + tok)
    let torn := s.barRequired p v k.toNat = [c] ∧ s.barTornAt n v k.toNat c = true
    (s.barRequired p v k.toNat = [c] →
      Completes (.barrierComplete p n v k) s fun t =>
        let b := s.bar c n
        t.bar c n = { b with phase := (b.phase + 1) % 65536, arr := b.ahead, ahead := 0 } ∧ t.mem = s.mem) ∧
    (torn → noneDue →
      Completes (.barrierTear p n v k) s fun t =>
        t.bar c n = { s.bar c n with phase := 0, arr := 0, ahead := 0, torn := (s.bar c n).torn.erase (v, k.toNat) } ∧ t.mem = s.mem) ∧
    (torn → Completes (.barrierTear p n v k) s fun t => ∀ x ∈ t.agenda, ¬ at' x.2) ∧
    (s.barRequired p v k.toNat = [c] → waits → tok = (s.bar c n).phase →
      Completes (.barrierComplete p n v k) s fun t => woken t 0) ∧
    (torn → noneDue → waits → Completes (.barrierTear p n v k) s fun t => woken t 2) ∧
    (torn → waits → tok = (s.bar c n).phase → ∀ m, s.agenda = [(m, .barrierComplete p n v k)] →
      Completes (.barrierTear p n v k) s fun t => t.agenda = [] ∧ woken t (if m ≤ s.clock then 0 else 2))

/-- R244, R245, R248, R249: BARA, BARW and what a barrier does when it is complete or torn. -/
def Obligations.Barriers : Prop :=
  Sys2Proof.Claims.BarrierInstructions ∧ Sys2Proof.Claims.BarrierEvents

/-- R227 to R230: a fence that finds nothing to wait for ends in its issue cycle; else it parks with reason ACK. IFENCE also
discards the fetch buffer. FENCE.REL traps ILLEGAL for a scope that R8 refuses. -/
def Obligations.FenceInstructions : Prop :=
  ∀ (s : State) (a : BitVec 3),
    let v := s.g a
    let vec := s.vecMemPending s.cur
    let mine (q : Access → Bool) : Prop := ∃ x ∈ s.flight, x.2.who = s.cur ∧ q x.2 = true
    (scopeBad v = true → Traps (.fenceRel a) s 1 v) ∧
    (scopeBad v = false → vec = false → ¬ mine (fun x => x.posted && s.scopeHolds s.myPart v x) → Passes (.fenceRel a) s 1) ∧
    (scopeBad v = false → (vec = true ∨ mine (fun x => x.posted && s.scopeHolds s.myPart v x)) →
      Parks (.fenceRel a) s 2 (.fence (some v))) ∧
    (s.me.outs = 0 → vec = false → s.movesOf s.cur = false → Passes .fenceX s 1) ∧
    ((0 < s.me.outs ∨ vec = true ∨ s.movesOf s.cur = true) → Parks .fenceX s 2 (.fence none)) ∧
    (s.me.outs = 0 → s.laneWritesOf s.cur = false →
      exec .ifence s = .next (busyFor s 1 { s.me with fbuf := none, pc := s.me.pc + 4 })) ∧
    ((0 < s.me.outs ∨ s.laneWritesOf s.cur = true) → Parks .ifence s 2 .ifence)

/-! ## Requests: tasks and circuits -/

/-- R108: TASKQ and its form with an argument read their record through a capability; with the record in the own tile store
and nothing to release first, the record leaves for its task unit and the fibre parks for the answer. An address that is not
a multiple of 128 traps ALIGN. -/
def Sys2Proof.Claims.TaskSubmission : Prop :=
  ∀ (s : State) (d a : BitVec 3) (c k : BitVec 2) (pa : Nat),
    let addr := wrap 64 ((s.k k).cursor + (s.g a).toNat)
    let left (i : Instr) (arg : Cap) (given : Bool) : Prop :=
      Completes i s fun t =>
        t.me.status = .parked ∧ t.me.park = 2 ∧ t.me.cont = .taskq d ∧ t.me.pc = s.me.pc ∧ t.me.g = s.me.g ∧ SameMemory s t ∧
        ∃ b, t.subs = s.subs ++ [(s.nextId, b)] ∧ b.part = s.myPart ∧ b.who = some s.cur ∧ b.body = s.readBytes pa 128 ∧
          b.arg = arg ∧ b.argGiven = given
    (addr % 128 = 0 → s.checkCap (s.k k) addr 128 State.pR false = .ok (.mem pa) → OwnStore s pa → OwnStore s (pa + 64) →
      s.home s.cur.core (s.k k).space (addr + 64) = some (.mem (pa + 64)) → s.readError pa 64 = none → s.readError (pa + 64) 64 = none →
      s.mustHold s.cur (s.k k).space (addr % 2 ^ 56) 64 = false → s.mustHold s.cur (s.k k).space ((addr + 64) % 2 ^ 56) 64 = false →
      s.piecesOf s.cur = false → s.releaseDone s.cur scopeWhole = true →
      left (.taskq d a k) .null false ∧ left (.taskqKc d a c k) (s.k c) true) ∧
    (addr % 128 ≠ 0 → Traps (.taskq d a k) s 8 (word addr) ∧ Traps (.taskqKc d a c k) s 8 (word addr))

/-- R109: TWAIT and TWAIT.POLL send a query for the entry and the order number in ga to the task unit of its die and park
with reason TASK; a die beyond 5 traps ILLEGAL. -/
def Sys2Proof.Claims.TaskWaits : Prop :=
  ∀ (s : State) (d a : BitVec 3),
    let v := s.g a
    let asks (i : Instr) (poll : Bool) : Prop :=
      Completes i s fun t =>
        t.me.status = .parked ∧ t.me.park = 9 ∧ t.me.cont = .task d s.nextId ∧ t.me.pc = s.me.pc ∧ t.me.g = s.me.g ∧ SameMemory s t ∧
        ∃ q, t.queries = s.queries ++ [(s.nextId, q)] ∧ q.who = s.cur ∧ q.part = s.myPart ∧ q.die = bits v.toNat 47 44 ∧
          q.ix = bits v.toNat 43 32 ∧ q.ord = v.toNat % 2 ^ 32 ∧ q.poll = poll
    (v.toNat < 2 ^ 48 → bits v.toNat 47 44 ≤ 5 → asks (.twait d a) false ∧ asks (.twaitPoll d a) true) ∧
    (v.toNat < 2 ^ 48 → 5 < bits v.toNat 47 44 → Traps (.twait d a) s 1 v ∧ Traps (.twaitPoll d a) s 1 v)

/-- R108, R109: TASKQ with and without an argument, TWAIT and TWAIT.POLL. -/
def Obligations.TaskInstructions : Prop :=
  Sys2Proof.Claims.TaskSubmission ∧ Sys2Proof.Claims.TaskWaits

/-- R44 to R52: each circuit instruction of the link core sends its request to the Intercalator as one residue flit and parks
with reason CIRC until the result; no byte of memory changes. A core of another kind traps WRONG_CORE. -/
def Obligations.CircuitRequests : Prop :=
  ∀ (s : State) (d a b : BitVec 3),
    let v := s.g a
    let w := s.g b
    let c := s.cur.core
    let asks (i : Instr) (fn : Nat) (y : Word) : Prop :=
      Completes i s fun t =>
        t.me.status = .parked ∧ t.me.park = 7 ∧ t.me.cont = .circ d ∧ t.me.pc = s.me.pc ∧ t.me.g = s.me.g ∧ SameMemory s t ∧
        ∃ fl, (fl ∈ (t.tile (coreTile c)).rwait ∨ fl ∈ (tget {} (t.tile (coreTile c)).rbuf (4, false)).flits) ∧ fl.dst = ioNode ∧
          fl.reply = false ∧ ∃ r, fl.req = some r ∧ r.who = s.cur ∧ r.part = s.partOf c ∧ r.fn = fn ∧ r.a = v ∧ r.b = y
    (c.valid = true → isService c = false → c.kind = 0 →
      (copenBad v = false → field v 63 61 = 0 → 1 ≤ field v 53 44 → field v 53 44 ≤ 959 → tileBad w = false →
        asks (.copen d a b 0) 0 w) ∧
      (v.toNat < 4096 → asks (.cshut d a) 1 0) ∧
      (v.toNat < 4096 → 1 ≤ w.toNat → w.toNat ≤ 959 → asks (.crsz d a b) 2 w) ∧
      (field v 63 32 = 0 → field v 15 12 = 0 → field v 31 16 ≠ 0 → asks (.crszArm d a b) 3 w) ∧
      asks (.cqry d a) 4 0) ∧
    (c.kind ≠ 0 → Traps (.cqry d a) s 2 (word (wordOf (.cqry d a)).toNat))

/-! ## Messages -/

/-- R446, R447, R461: SEND and SENDC of a compute core with a free send-queue entry put a message with g0 to g5, or with six
words of memory, into the request network, hold the entry for it, and go on; SEND also holds a reply reservation. A
destination word that R461 refuses traps ILLEGAL, a full send queue SEND_FULL. -/
def Sys2Proof.Claims.MessageSends : Prop :=
  ∀ (s : State) (a b : BitVec 3) (k : BitVec 2) (dst : CoreId) (pa : Nat),
    let c := s.cur.core
    let v := s.g a
    let e := wrap 64 ((s.k k).cursor + (s.g b).toNat)
    let id := s.nextId
    let left (i : Instr) (ws : List Word) (reserved : Bool) : Prop :=
      Completes i s fun t =>
        t.me.status = .ready ∧ t.me.pc = s.me.pc + 4 ∧ t.me.g = s.me.g ∧ SameMemory s t ∧ (id, reserved) ∈ (t.core c).sends ∧
        ∃ m, t.messages = s.messages ++ [(id, m)] ∧ m.src = s.cur ∧ m.dst = dst ∧ m.handler = word (v.toNat % 2 ^ 32) ∧
          m.words = ws ∧ m.reply = false ∧ m.reserved = reserved
    let inOwn := e % 8 = 0 ∧ e % 64 ≤ 16 ∧ s.checkCap (s.k k) e 48 State.pR false = .ok (.mem pa) ∧ OwnStore s pa ∧
      s.readError pa 48 = none ∧ s.mustHold s.cur (s.k k).space (e % 2 ^ 56) 48 = false ∧ s.piecesOf s.cur = false
    let six := (List.range 6).map fun j => word (leNat (s.readBytes (pa + 8 * j) 8))
    let regs := (List.range 6).map s.gN
    (isService c = false → s.sendTarget c v = some dst → (s.core c).sends.length < 16 →
      left (.send a 0) regs true ∧ left (.sendc a) regs false ∧
      (s.releaseDone s.cur scopeWhole = true → left (.send a 1) regs true) ∧
      (inOwn → left (.sendMem a b k 0) six true ∧ left (.sendcMem a b k) six false)) ∧
    (isService c = false → s.sendTarget c v = none → Traps (.send a 0) s 1 v ∧ Traps (.sendc a) s 1 v) ∧
    (isService c = false → s.sendTarget c v = some dst → 16 ≤ (s.core c).sends.length →
      Traps (.send a 0) s 0x0C 0 ∧ Traps (.sendc a) s 0x0C 0)

/-- R447: REPLY of a fibre with an unused reservation sends g0 to g5, or six words of memory, over the reply network to the
core that asked, uses the reservation up and goes on; without one it traps ILLEGAL. -/
def Sys2Proof.Claims.MessageReplies : Prop :=
  ∀ (s : State) (a b : BitVec 3) (k : BitVec 2) (dst : CoreId) (entry pa : Nat),
    let e := wrap 64 ((s.k k).cursor + (s.g b).toNat)
    let id := s.nextId
    let left (i : Instr) (ws : List Word) : Prop :=
      Completes i s fun t =>
        t.me.rpl = false ∧ t.me.status = .ready ∧ t.me.pc = s.me.pc + 4 ∧ t.me.g = s.me.g ∧ SameMemory s t ∧
        ∃ m, t.messages = s.messages ++ [(id, m)] ∧ m.src = s.cur ∧ m.dst = dst ∧ m.handler = s.g a ∧ m.words = ws ∧
          m.reply = true ∧ m.entry = entry
    (s.me.rpl = true → s.me.replyTo = some (dst, entry) →
      left (.reply a) ((List.range 6).map s.gN) ∧
      (e % 8 = 0 → e % 64 ≤ 16 → s.checkCap (s.k k) e 48 State.pR false = .ok (.mem pa) → OwnStore s pa →
        s.readError pa 48 = none → s.mustHold s.cur (s.k k).space (e % 2 ^ 56) 48 = false → s.piecesOf s.cur = false →
        left (.replyMem a b k) ((List.range 6).map fun j => word (leNat (s.readBytes (pa + 8 * j) 8))))) ∧
    (s.me.rpl = false → Traps (.reply a) s 1 (word (wordOf (.reply a)).toNat) ∧
      Traps (.replyMem a b k) s 1 (word (wordOf (.replyMem a b k)).toNat))

/-- R446, R447, R461: SEND, SENDC and REPLY. -/
def Obligations.MessageInstructions : Prop :=
  Sys2Proof.Claims.MessageSends ∧ Sys2Proof.Claims.MessageReplies

/-- R78 to R81, R462: a message that passes the handler check enters the receive queue of its network, one that fails it is
counted and does not enter; it takes the identity of the task that holds the core as it enters; the oldest of a queue starts
its handler in a free slot, with the payload, the sender's id and the flags in g0 to g7, and leaves its entry free (log 90);
a NACK sets SQSTAT.NACK and frees the entry, as does the empty reply. -/
def Obligations.MessageDelivery : Prop :=
  ∀ (s : State) (id n : Nat) (m : Message) (rest : List Message),
    let c := s.core m.dst
    (tfind s.messages id = some m →
      (s.handlerOk m.dst m.handler = true → m.reply = false → c.recvReq.length < 16 →
        Completes (.messageArrival id) s fun t =>
          tfind t.messages id = none ∧ t.isDue (.handlerStart m.dst false) = true ∧ t.mem = s.mem ∧
          (∀ d ix e, s.taskHolding m.dst = some (d, ix, e) →
            (t.core m.dst).recvReq = c.recvReq ++ [{ m with tdie := d, taskix := ix, taskseq := word (e.seq * 2 ^ 32 + e.ord) }]) ∧
          (s.taskHolding m.dst = none →
            (t.core m.dst).recvReq = c.recvReq ++ [{ m with tdie := m.dst.die, taskix := 0, taskseq := 0 }])) ∧
      (s.handlerOk m.dst m.handler = false → m.reply = false →
        Completes (.messageArrival id) s fun t =>
          (t.core m.dst).dropped = c.dropped + 1 ∧ (t.core m.dst).recvReq = c.recvReq ∧ t.mem = s.mem) ∧
      (m.reply = false → Completes (.nack id) s fun t =>
        (t.core m.src.core).nack = true ∧ tfind (t.core m.src.core).sends m.entry = none ∧ tfind t.messages id = none) ∧
      Completes (.emptyReply id) s fun t =>
        tfind (t.core m.dst).sends m.entry = none ∧ tfind t.messages id = none ∧ t.fibres = s.fibres) ∧
    (c.recvReq = m :: rest → s.freeSlot m.dst 224 16 = some n → s.requestHandlers m.dst < 12 →
      Completes (.handlerStart m.dst false) s fun t =>
        let f := t.fib ⟨m.dst, n⟩
        f.status = .ready ∧ f.pc = m.handler ∧
        f.g = m.words ++ [word (fibreId m.src), word (6 + (if m.reply then 16 else 0) + (if m.reserved then 32 else 0))] ∧
        f.code = c.mhcap ∧ f.pl = 0 ∧ f.msg = true ∧ f.rpl = m.reserved ∧ f.tdie = m.tdie ∧ f.taskix = m.taskix ∧
        f.taskseq = m.taskseq ∧ (t.core m.dst).recvReq = rest ∧ t.mem = s.mem)

/-! ## Streams and tile moves -/

/-- R457, R458, R463, R467, R468: SPOP takes the next visible word, SPUSH adds a word, SBIND of a CID whose entries the tile
holds binds an unbound register, which shows LOST where the circuit is lost already (log 103), SFREE unbinds one and counts
what it held, and SCNT reads a register and clears its MISS. -/
def Obligations.StreamInstructions : Prop :=
  ∀ (s : State) (a b z : BitVec 3) (x : BitVec 512) (l : List (BitVec 512)) (u : Nat) (us : List Nat),
    let c := s.cur.core
    let n := z.toNat
    let r := s.strm c n
    let past := { s.me with pc := s.me.pc + 4 }
    let va := (s.g a).toNat
    let vb := (s.g b).toNat
    (isService c = false →
      (r.bound = true → r.inj = false → r.fifo = x :: l → r.seen = u :: us → u ≤ s.clock → s.strmWaited c n = false →
        r.popped + 1 < r.n →
        exec (.spop a z) s = .next (busyFor (s.setStrm c n { r with popped := r.popped + 1 }) 1
          { past with g := lset s.me.g a.toNat (word (x.toNat / 2 ^ (64 * r.popped))) })) ∧
      (r.bound = true → r.inj = false → r.lost = false → r.fifo = [] → s.strmWaited c n = false →
        Completes (.spop a z) s fun t => t.me.status = .parked ∧ t.me.park = 6 ∧ t.me.pc = s.me.pc ∧ t.mem = s.mem) ∧
      (r.bound = true → r.inj = true → r.lost = false → r.fifo.length < 64 → s.strmWaited c n = false → r.part.length + 1 < r.n →
        Completes (.spush a 0 z) s fun t =>
          t.strm c n = { r with part := r.part ++ [s.g a] } ∧ t.me.pc = s.me.pc + 4 ∧ t.me.g = s.me.g ∧ t.mem = s.mem) ∧
      (r.bound = true → r.inj = true → r.lost = false → r.fifo.length < 64 → s.strmWaited c n = false → r.part.length + 1 = r.n →
        Completes (.spush a 0 z) s fun t =>
          (t.strm c n).part = [] ∧ (t.strm c n).fifo.length = r.fifo.length + 1 ∧ (t.strm c n).seen = r.seen ++ [s.clock + 2] ∧
          t.me.pc = s.me.pc + 4 ∧ t.me.g = s.me.g ∧ t.mem = s.mem) ∧
      (r.bound = false → r.lost = false → r.fifo = [] → Traps (.spop a z) s 0x0E (word n)) ∧
      (r.bound = false → Traps (.spush a 0 z) s 0x0E (word n)) ∧
      (va < 4096 → vb < 8 → r.bound = false → vb % 2 = 0 →
        (∃ e ∈ s.tableEntries (coreTile c), e.1 = 4 ∧ entryV e.2 = true ∧ entryCid e.2 = va ∧ entryPtag e.2 = s.myPart) →
        (∀ k, k < 3 → ∀ y ∈ (s.core (coreOf (coreTile c) k)).streams, ¬ (y.2.bound = true ∧ y.2.cid = va ∧ y.2.inj = false)) →
        exec (.sbind a b z) s = .next (busyFor
          (s.setStrm c n { bound := true, inj := false, cid := va, n := 2 ^ (vb / 2 % 4), lost := s.circuitLost s.myPart va }) 1 past)) ∧
      (r.bound = true → (s.core c).strmWait = [] → Completes (.sfree z) s fun t =>
        (t.strm c n).bound = false ∧ (t.strm c n).fifo = [] ∧ t.me.pc = s.me.pc + 4 ∧ t.mem = s.mem ∧
        (t.tile (coreTile c)).drops = (s.tile (coreTile c)).drops + r.fifo.length + (if r.part = [] then 0 else 1)) ∧
      Completes (.scnt a z) s fun t =>
        t.strm c n = { r with miss := false } ∧ t.me.pc = s.me.pc + 4 ∧ t.mem = s.mem ∧
        t.me.g = lset s.me.g a.toNat (scntWord s c n))

/-- R150, R476: a tile move of a link core between tile or cluster stores, of a geometry that R476 accepts, enters the move
queue in its issue cycle with its whole geometry, and the fibre goes on; no byte of memory changes yet. One whose source lies
in a die store or behind a gateway parks with reason MEM while the span is checked. -/
def Obligations.MoveIssue : Prop :=
  ∀ (s : State) (z d : BitVec 2) (b : BitVec 3) (g e : BitVec 6) (h h' : Home),
    let c := s.cur.core
    let geo := tget 0 (s.core c).geom g.toNat
    let form := field geo 63 62
    let ks := s.k z
    let kd := s.k d
    let sa := wrap 64 (ks.cursor + (BitVec.ofNat 32 (s.g b).toNat).toInt)
    let da := wrap 64 (kd.cursor + (BitVec.ofNat 32 ((s.g b).toNat / 2 ^ 32)).toInt)
    let root := s.me.pl == 3
    let good (trans : Bool) := field geo 59 48 ≠ 0 ∧ field geo 47 32 ≠ 0 ∧ form ≠ 3 ∧
      s.checkCapAt c root ks sa (srcSpan trans geo) State.pR false true = .ok h ∧
      s.checkCapAt c root kd da (dstSpan trans geo) State.pW true true = .ok h' ∧ ks.meter = 0 ∧ kd.meter = 0
    let entered (i : Instr) (trans : Bool) : Prop :=
      Completes i s fun t =>
        t.me.status = .ready ∧ t.me.pc = s.me.pc + 4 ∧ t.me.g = s.me.g ∧ SameMemory s t ∧
        (t.core c).moves = (s.core c).moves ++ [s.nextId] ∧
        ∃ m, t.move s.nextId = some m ∧ m.who = s.cur ∧ m.trans = trans ∧ m.src = ks ∧ m.dst = kd ∧ m.sa = sa ∧ m.da = da ∧
          m.geom = geo ∧ m.sem = e.toNat ∧ m.next = 0 ∧ m.left = field geo 59 48 * field geo 47 32
    let waits (i : Instr) : Prop :=
      Completes i s fun t => t.me.status = .parked ∧ t.me.park = 1 ∧ t.me.cont = .move s.nextId ∧ t.me.pc = s.me.pc ∧ SameMemory s t
    let near := 1 ≤ ks.space ∧ ks.space ≤ 2 ∧ 1 ≤ kd.space ∧ kd.space ≤ 2 ∧ (s.core c).moves.length < 32
    let aligned := sa % 32 = 0 ∧ da % 32 = 0
    (isService c = false → c.kind = 0 →
      (good false → form = 0 → near → entered (.tmov z d b g e) false) ∧
      (good false → 1 ≤ form → aligned → near → entered (.tmovSq z d b g e) false) ∧
      (good true → 1 ≤ form → aligned → near → entered (.tldt z d b g e) true) ∧
      (good false → form = 0 → 3 ≤ ks.space → ks.space ≤ 6 → 1 ≤ kd.space → kd.space ≤ 7 → waits (.tmov z d b g e)))

/-! ## The root core -/

/-- R437, R438, R418 to R420, R464: SHA but its start form, PKSIGN, PKVER and MEXT of the root core check their operands and
park with reason MEM while their sources are read; no register and no byte of memory changes. PKSIGN and PKVER take the
signature unit in their order of issue: one issues again while an earlier one still reads its source. The start form of SHA
reads nothing: it computes for 32 cycles and its 128-byte state record waits to be posted. -/
def Sys2Proof.Claims.RootReads : Prop :=
  ∀ (s : State) (a b : BitVec 3) (z k : BitVec 2) (m : BitVec 2) (n : BitVec 4),
    s.cur.core = .root → s.flight = [] → (s.core .root).disp = [] → (s.core .root).running = [] →
    let lo := field (s.g b) 31 0
    let hi := field (s.g b) 63 32
    let waits (i : Instr) : Prop :=
      Completes i s fun t =>
        t.me.status = .parked ∧ t.me.park = 1 ∧ t.me.cont = .gather i ∧ t.me.pc = s.me.pc ∧ t.me.g = s.me.g ∧ SameMemory s t ∧
        t.piecesOf s.cur = true
    let dst := rootDst s k b 128
    let unit := ∀ f, s.pkg.sigClaim = some f → f = s.cur
    let held (i : Instr) : Prop := Completes i s fun t =>
      t.me.status = s.me.status ∧ t.me.readyFrom = s.clock + 1 ∧ t.me.pc = s.me.pc ∧ t.me.g = s.me.g ∧ t.pkg = s.pkg ∧ SameMemory s t
    (m = 0 → 1 ≤ (s.g a).toNat → (s.g a).toNat ≤ 16777216 → s.srcCheck (rootSrc s z b (s.g a).toNat) = none →
      s.destCheck (rootDst s k b 32) = none → s.physLimit (rootDst s k b 32) = none → waits (.sha a b z k 0)) ∧
    (s.srcCheck (rootSrc s z b 32) = none → s.destCheck (rootDst s k b 384) = none → s.physLimit (rootDst s k b 384) = none →
      (unit → waits (.pksign a b z k)) ∧ (¬ unit → held (.pksign a b z k))) ∧
    (hi = 0 → s.srcCheck (rootSrc s z b 800) = none → (unit → waits (.pkver a b z)) ∧ (¬ unit → held (.pkver a b z))) ∧
    (hi = 0 → s.srcCheck (rootSrc s z b 32) = none → waits (.mext b z n)) ∧
    (lo = 0 → s.g a = 0 → s.destCheck dst = none → dst.a % 8 = 0 → s.physLimit dst = none →
      Completes (.sha a b 0 k 1) s fun t =>
        t.me.status = .busy ∧ t.me.pc = s.me.pc + 4 ∧ t.agenda = s.agenda ++ [(s.clock + 32, .busyExpiry s.cur)] ∧ SameMemory s t ∧
        ∃ w, t.pkg.work = s.pkg.work ++ [w] ∧ w.who = s.cur ∧ w.addr = dst.a ∧ w.bytes = shaStart ∧ w.done = true)

/-- R437, R438, R420, R464: what the members of the group compute once the last piece of their sources has come back: SHA a
digest that waits to be posted, PKVER 0 or 1 in ga after the signature unit's time, PKSIGN in the retired lifecycle state 1
in ga; MEXT takes its 32 bytes and computes for 160 cycles. -/
def Sys2Proof.Claims.RootResults : Prop :=
  ∀ (s : State) (a b : BitVec 3) (z k : BitVec 2) (f : FibreRef),
    f.core = .root → s.piecesOf f = false → s.cur = f →
    let x := s.fib f
    let src (n : Nat) : List Byte := State.assembleAll x.buf [rootSrc s z b n] |>.headD []
    (x.cont = .gather (.sha a b z k 0) → ∃ t, s.gatherDone f = .next t ∧ (t.fib f).status = .busy ∧ (t.fib f).pc = x.pc + 4 ∧
      ∃ w, t.pkg.work = s.pkg.work ++ [w] ∧ w.bytes = sha256 (src (s.g a).toNat)) ∧
    (x.cont = .gather (.pkver a b z) → ∃ t, s.gatherDone f = .next t ∧ (t.fib f).status = .busy ∧ (t.fib f).pc = x.pc + 4 ∧
      (t.fib f).g = lset x.g a.toNat
        (if pssVerify (slice (src 800) 0 384) (slice (src 800) 384 32) (slice (src 800) 416 384) then 0 else 1)) ∧
    (x.cont = .gather (.pksign a b z k) → s.pkg.start.lc = 4 →
      ∃ t, s.gatherDone f = .next t ∧ (t.fib f).status = .busy ∧ (t.fib f).g = lset x.g a.toNat 1 ∧ t.pkg.work = s.pkg.work) ∧
    (x.cont = .gather (.mext b z 0) → ∃ t, s.gatherDone f = .next t ∧ (t.fib f).status = .busy ∧
      t.agenda = s.agenda ++ [(s.clock + 160, .busyExpiry f)] ∧ t.mem = s.mem ∧
      t.pkg.work = s.pkg.work.map fun w => if w.who = f ∧ w.meas.isSome = true ∧ w.done = false then { w with bytes := src 32 } else w)

/-- R418, R420, R437, R438, R464: what the root group reads, and what it computes. -/
def Obligations.RootInstructions : Prop :=
  Sys2Proof.Claims.RootReads ∧ Sys2Proof.Claims.RootResults

/-- R450, R432, R433: RNG writes 64 bits of the generator to ga and zero to gb, or zero and one while the entropy source has
failed, with a busy time of 64. A request takes the next block of AES-256 in counter mode, changes the key and the counter,
and counts; one that finds 2^20 requests served has the generator seeded first. Which 8 bytes of the block are used is the
model's choice (log 109). MTRQ of a core that may ask sends its request to the root core and parks with reason ROOT. -/
def Obligations.RandomAndMeterRequests : Prop :=
  ∀ (s : State) (a b : BitVec 3) (z : BitVec 2),
    (s.cur.core = .root → s.pkg.entropyOk = true →
      let g := s.pkg.drbg
      let (v, u) := s.randomWord
      let next := drbgUpdate (List.replicate 48 0) g.key (g.v + 1)
      exec (.rng a b) s = .next (busyFor u 64 { s.me with g := lset (lset s.me.g a.toNat v) b.toNat 0, pc := s.me.pc + 4 }) ∧
        (g.requests < 2 ^ 20 → v = word (leNat ((aes256 (beBytes 32 g.key.toNat) (beBytes 16 ((g.v.toNat + 1) % 2 ^ 128))).take 8)) ∧
          u = { s with pkg := { s.pkg with drbg := { key := next.1, v := next.2, requests := g.requests + 1 } } }) ∧
        (2 ^ 20 ≤ g.requests → u.pkg.drbg.requests = 1)) ∧
    (s.cur.core = .root → s.pkg.entropyOk = false →
      exec (.rng a b) s = .next (busyFor s 64 { s.me with g := lset (lset s.me.g a.toNat 0) b.toNat 1, pc := s.me.pc + 4 })) ∧
    (isService s.cur.core = false → 1 ≤ s.me.pl → (s.g b).toNat < 2 ^ 32 →
      let src := rootSrc s z b 768
      (∃ h, s.checkCap src.c src.a 768 State.pRW true = .ok h) → src.a % 64 = 0 → 1 ≤ src.c.space → src.c.space ≤ 4 →
      (∃ p, s.physPieces s.cur.core s.myPart src.c.space src.a 768 true = .ok p) →
      (∃ p, s.physPieces s.cur.core s.myPart src.c.space src.a 768 false = .ok p) → s.releaseDone s.cur scopeWhole = true →
      Completes (.mtrq a b z) s fun t =>
        t.me.status = .parked ∧ t.me.park = 12 ∧ t.me.cont = .mtrq a s.nextId ∧ t.me.pc = s.me.pc ∧ SameMemory s t ∧
        ∃ r, t.pkg.mtrq = s.pkg.mtrq ++ [r] ∧ r.id = s.nextId ∧ r.who = s.cur ∧ r.part = s.myPart ∧ r.addr = src.a)

/-! ## The vector, matrix and shape groups -/

namespace Sys2Proof.Claims
open Sys2Proof.Machine

/-- The group of R18 of every instruction that is dispatched (R195, R480); none for the others. -/
def dispatchGroup : Instr → Option Group
  | .vadd _ _ _ _ _ => some .vec
  | .vsub _ _ _ _ _ => some .vec
  | .vmul _ _ _ _ _ => some .vec
  | .vmin _ _ _ _ _ => some .vec
  | .vmax _ _ _ _ _ => some .vec
  | .vand _ _ _ _ _ => some .vec
  | .vor _ _ _ _ _ => some .vec
  | .vxor _ _ _ _ _ => some .vec
  | .vsh _ _ _ _ _ => some .vec
  | .vclz _ _ _ _ => some .vec
  | .vffs _ _ _ _ => some .vec
  | .vpopc _ _ _ _ => some .vec
  | .vfadd _ _ _ _ _ => some .math
  | .vfsub _ _ _ _ _ => some .math
  | .vfmul _ _ _ _ _ => some .math
  | .vfma _ _ _ _ _ => some .math
  | .vfmin _ _ _ _ _ => some .math
  | .vfmax _ _ _ _ _ => some .math
  | .vexp2 _ _ _ _ => some .math
  | .vlog2 _ _ _ _ => some .math
  | .vrcp _ _ _ _ => some .math
  | .vrsq _ _ _ _ => some .math
  | .vtanh _ _ _ _ => some .math
  | .vcmp _ _ _ _ _ => some .math
  | .vsel _ _ _ _ _ => some .math
  | .vperm _ _ _ _ _ => some .vec
  | .vbcst _ _ _ _ => some .vec
  | .vcvt _ _ _ _ _ _ => some .vec
  | .vext _ _ _ _ _ => some .vec
  | .vins _ _ _ _ _ => some .vec
  | .vred _ _ _ _ _ => some .vec
  | .vld _ _ _ _ _ _ => some .vec
  | .vst _ _ _ _ _ _ => some .vec
  | .vgth _ _ _ _ _ => some .vec
  | .vsct _ _ _ _ _ => some .vec
  | .vmac _ _ _ _ _ => some .math
  | .vaclr _ => some .math
  | .vnrw _ _ _ _ => some .math
  | .mfmt _ => some .math
  | .mgang _ => some .math
  | .mma _ _ _ _ _ => some .math
  | .mmaHold _ _ _ _ _ => some .math
  | .mmaHb _ _ _ _ => some .math
  | .mzero _ _ => some .math
  | .mrd _ _ => some .math
  | .mrdRel _ _ => some .math
  | .mrel _ => some .math
  | .mrcl _ => some .math
  | .mstat _ _ => some .math
  | .qenc _ _ _ _ _ => some .shape
  | .qdec _ _ _ _ _ _ => some .shape
  | .qtrn _ _ _ _ => some .shape
  | .qscl _ _ _ _ _ => some .shape
  | _ => none

/-- The operand in a general register is one that the instruction accepts: the lane of VEXT and VINS (R488, R490), the words
of MFMT, MGANG, MMA, MZERO, MRD and MSTAT (R208, R206, R422, R217, R218), those of the shape group (R439, R441 to R444). -/
def operandsGood (s : State) : Instr → Prop
  | .vext _ _ b t _ => (s.g b).toNat < Instr.laneCount t
  | .vins _ _ b t _ => (s.g b).toNat < Instr.laneCount t
  | .mfmt a => ∃ p q r, (s.g a).toNat = p + 4 * q + 256 * r ∧ p < 3 ∧ q < 3 ∧ r < 2 ∧ (p = 2 ↔ q = 2)
  | .mgang a => (s.g a).toNat < 65536
  | .mma _ _ _ _ b => (s.g b).toNat < 4096
  | .mmaHold _ _ _ _ b => (s.g b).toNat < 4096
  | .mmaHb _ _ _ b => (s.g b).toNat < 4096
  | .mzero _ b => (s.g b).toNat < 4096
  | .mrd a _ => ∃ slot row, (s.g a).toNat = slot + 256 * row ∧ slot < 16 ∧ row < 32
  | .mrdRel a _ => ∃ slot row, (s.g a).toNat = slot + 256 * row ∧ slot < 16 ∧ row < 32
  | .mstat a _ => (s.g a).toNat < 16
  | .qenc _ b _ _ _ => ∃ m p, (s.g b).toNat = m + 65536 * p ∧ 1 ≤ m ∧ m ≤ 5 ∧ p < 65536
  | .qdec _ b _ _ _ _ => ∃ m p, (s.g b).toNat = m + 8 * p ∧ m ≤ 2 ∧ p < 2
  | .qtrn _ b _ _ => (s.g b).toNat < 2
  | .qscl _ b _ _ _ => ∃ m p, (s.g b).toNat = m + 512 * p ∧ m < 512 ∧ m ≠ 256 ∧ p < 2
  | _ => True

/-- The destination of VEXT and MSTAT, for which the fibre parks (R197). -/
def awaits : Instr → Option (BitVec 3)
  | .vext d _ _ _ _ => some d
  | .mstat _ d => some d
  | _ => none

/-- A computation writes one vector register: lane l of width w takes f l where its mask bit is set, and keeps the
destination's old value elsewhere (R192, R194). -/
def Lanes (o : Option VecOut) (d : BitVec 5) (w : Nat) (mask : BitVec 32) (old : BitVec 1024) (f : Nat → Nat) : Prop :=
  ∃ r v, o = some v ∧ v.wr = [(d.toNat, BitVec.setWidth 2048 (r : BitVec 1024))] ∧
    ∀ l, l < 1024 / w → laneOf r w l = if mask.toNat.testBit (l * w / 32) then f l else laneOf old w l

/-- A lane as a signed number of w bits. -/
def signedLane (w x : Nat) : Int := if x < 2 ^ (w - 1) then x else x - 2 ^ w

/-- The w bits of an integer modulo 2^w. -/
def laneOfInt (w : Nat) (x : Int) : Nat := (x % 2 ^ w).toNat

end Sys2Proof.Claims

/-- R195, R197, R262, R480: every well-formed instruction of the vector, accumulator, matrix and shape groups, on a core that
runs its group and in a fibre that holds the vector lease, enters the dispatch queue with its operands and a ring entry, and
the fibre goes on; VEXT and MSTAT park until they retire. No register of the machine and no byte of memory changes yet. A
fibre that finds the lease free and no fibre waiting for it takes it first; one that finds it taken parks for it behind those
that wait; with a full queue a fibre parks with reason ENG. The counter that numbers the dispatches is incremented first (log
18), and instructions under way count towards the 16 entries (log 37). -/
def Obligations.VectorDispatch : Prop :=
  ∀ (s : State) (i : Instr) (grp : Group),
    let c := s.cur.core
    let x := s.core c
    let no := (x.dispNo + 1) % 65536
    dispatchGroup i = some grp → groupRuns grp c = true → i.wellFormed = true → shapeBad c i = false → operandsGood s i →
    let free := x.lease = none ∧ x.leaseWait = []
    ((s.me.vl = true ∨ free) → x.disp.length + x.running.length < 16 →
      Completes i s fun t =>
        let y := t.core c
        t.me.vl = true ∧ y.lease = (if s.me.vl = true then x.lease else some s.cur.slot) ∧ y.leaseWait = x.leaseWait ∧
        SameMemory s t ∧ t.me.g = s.me.g ∧ t.me.k = s.me.k ∧ y.v = x.v ∧ y.a = x.a ∧ y.m = x.m ∧ y.fpst = x.fpst ∧
        y.running = x.running ∧ y.dispNo = no ∧
        y.disp = x.disp ++ [{ seq := no, slot := s.cur.slot, i := i, pc := s.me.pc, g := s.me.g, k := s.me.k, pl := s.me.pl }] ∧
        tget {} y.ring (no % 64) = ⟨wordOf i, s.me.pc.toNat, no, true, 0, fibreId s.cur⟩ ∧
        (awaits i = none → t.me.status = .ready ∧ t.me.pc = s.me.pc + 4) ∧
        (∀ d, awaits i = some d → t.me.status = .parked ∧ t.me.park = 11 ∧ t.me.cont = .dispatch d no ∧ t.me.pc = s.me.pc)) ∧
    (s.me.vl = true → 16 ≤ x.disp.length + x.running.length → Parks i s 11 .retry) ∧
    (s.me.vl = false → x.lease.isSome = true →
      Completes i s fun t => t.me.status = .parked ∧ t.me.park = 8 ∧ t.me.cont = .lease ∧ t.me.pc = s.me.pc ∧
        (t.core c).leaseWait = x.leaseWait ++ [s.cur.slot] ∧ (t.core c).disp = x.disp ∧ SameMemory s t)

/-- R192, R194, R483: what the integer lane instructions compute from the registers: each active lane its value modulo 2 to
the lane's width, an inactive lane its old value. -/
def Sys2Proof.Claims.VectorIntegerLanes : Prop :=
  ∀ (c : Core) (gs : List Word) (d a b : BitVec 5) (t : BitVec 3) (m : BitVec 4),
    let w := laneWidth t
    let mask := if m.getLsbD 3 then mOf c (m.toNat % 8) else BitVec.allOnes 32
    let u := m = 1#4
    let x := laneOf (vOf c a) w
    let y := laneOf (vOf c b) w
    let is (i : Instr) (f : Nat → Nat) : Prop := Lanes (vecCompute c gs i) d w mask (vOf c d) f
    t.toNat < 4 →
    is (.vadd d a b t m) (fun l => (x l + y l) % 2 ^ w) ∧
    is (.vsub d a b t m) (fun l => laneOfInt w ((x l : Int) - y l)) ∧
    is (.vmul d a b t m) (fun l => x l * y l % 2 ^ w) ∧
    is (.vand d a b t m) (fun l => x l &&& y l) ∧
    is (.vor d a b t m) (fun l => x l ||| y l) ∧
    is (.vxor d a b t m) (fun l => x l ^^^ y l) ∧
    (u → is (.vmin d a b t m) (fun l => min (x l) (y l)) ∧ is (.vmax d a b t m) (fun l => max (x l) (y l))) ∧
    (¬ u → m = 0#4 ∨ 8 ≤ m.toNat →
      is (.vmin d a b t m) (fun l => laneOfInt w (min (signedLane w (x l)) (signedLane w (y l)))) ∧
      is (.vmax d a b t m) (fun l => laneOfInt w (max (signedLane w (x l)) (signedLane w (y l))))) ∧
    (m = 0#4 ∨ 8 ≤ m.toNat → is (.vsh d a b t m) (fun l => x l * 2 ^ (y l % w) % 2 ^ w)) ∧
    (m = 2#4 → is (.vsh d a b t m) (fun l => x l / 2 ^ (y l % w))) ∧
    (m = 4#4 → is (.vsh d a b t m) (fun l => laneOfInt w (signedLane w (x l) / 2 ^ (y l % w)))) ∧
    is (.vpopc d a t m) (fun l => ((List.range w).filter fun i => (x l).testBit i).length) ∧
    (∃ f, is (.vclz d a t m) f ∧ ∀ l, (x l = 0 → f l = w) ∧ (x l ≠ 0 → f l < w ∧ 2 ^ (w - 1 - f l) ≤ x l ∧ x l < 2 ^ (w - f l))) ∧
    (∃ f, is (.vffs d a t m) f ∧ ∀ l, (x l = 0 → f l = 0) ∧ (x l ≠ 0 → 1 ≤ f l ∧ f l ≤ w ∧ x l % 2 ^ f l = 2 ^ (f l - 1)))

namespace Sys2Proof.Claims
open Sys2Proof.Machine

/-- The finite value v times 2^k, for every k that makes the three values integers: v is the sum of p and q. -/
def IsSum (v p q : FpVal) : Prop :=
  ∃ n m e n1 m1 e1 n2 m2 e2, v = .fin n m e ∧ p = .fin n1 m1 e1 ∧ q = .fin n2 m2 e2 ∧
    ∀ k : Int, 0 ≤ e + k → 0 ≤ e1 + k → 0 ≤ e2 + k → scaledTo n m e (-k) = scaledTo n1 m1 e1 (-k) + scaledTo n2 m2 e2 (-k)

/-- A result code of a floating lane: one rounding of an exact value (R169). -/
def roundedLane (t : BitVec 3) (mode : Nat) (v : FpVal) : Nat := (round (laneFmt t) mode false v).1

end Sys2Proof.Claims

/-- R169, R171, R489: where the operands of a lane are finite, VFADD, VFSUB and VFMA round the exact sum once, and VFMUL the
exact product, in the mode of the instruction; a NaN operand gives the canonical NaN; VFMIN and VFMAX give the operand that
stands lower or higher in the order of the codes, in which -0 stands below +0. -/
def Sys2Proof.Claims.VectorArithmeticLanes : Prop :=
  ∀ (c : Core) (gs : List Word) (d a b : BitVec 5) (t : BitVec 3) (m : BitVec 4),
    let w := laneWidth t
    let mask := if m.getLsbD 3 then mOf c (m.toNat % 8) else BitVec.allOnes 32
    let mode := if m.getLsbD 3 then 0 else m.toNat
    let x (l : Nat) := fpDecode (laneFmt t) (laneOf (vOf c a) w l)
    let y (l : Nat) := fpDecode (laneFmt t) (laneOf (vOf c b) w l)
    let z (l : Nat) := fpDecode (laneFmt t) (laneOf (vOf c d) w l)
    let finite (v : FpVal) : Prop := ∃ n m e, v = .fin n m e
    let nan := canonNaN (laneFmt t)
    let is (i : Instr) (P : Nat → Nat → Prop) : Prop := ∃ f, Lanes (vecCompute c gs i) d w mask (vOf c d) f ∧ ∀ l, P l (f l)
    4 ≤ t.toNat →
    is (.vfadd d a b t m) (fun l r => (x l = .nan ∨ y l = .nan → r = nan) ∧
      (finite (x l) → finite (y l) → ∃ v, IsSum v (x l) (y l) ∧ r = roundedLane t mode v)) ∧
    is (.vfsub d a b t m) (fun l r => (x l = .nan ∨ y l = .nan → r = nan) ∧
      (finite (x l) → finite (y l) → ∃ v, IsSum (x l) v (y l) ∧ r = roundedLane t mode v)) ∧
    is (.vfmul d a b t m) (fun l r => (x l = .nan ∨ y l = .nan → r = nan) ∧
      ∀ n1 m1 e1 n2 m2 e2, x l = .fin n1 m1 e1 → y l = .fin n2 m2 e2 →
        r = roundedLane t mode (.fin (n1 != n2) (m1 * m2) (e1 + e2))) ∧
    is (.vfma d a b t m) (fun l r => (x l = .nan ∨ y l = .nan ∨ z l = .nan → r = nan) ∧
      ∀ n1 m1 e1 n2 m2 e2, x l = .fin n1 m1 e1 → y l = .fin n2 m2 e2 → finite (z l) →
        ∃ v, IsSum v (.fin (n1 != n2) (m1 * m2) (e1 + e2)) (z l) ∧ r = roundedLane t mode v) ∧
    let place (code : Nat) : Int := if code < 2 ^ (w - 1) then code else 2 ^ (w - 1) - 1 - (code : Int)
    let u := laneOf (vOf c a) w
    let v := laneOf (vOf c b) w
    is (.vfmin d a b t m) (fun l r => (x l = .nan ∨ y l = .nan → r = nan) ∧
      (x l ≠ .nan → y l ≠ .nan → r = if place (u l) ≤ place (v l) then u l else v l)) ∧
    is (.vfmax d a b t m) (fun l r => (x l = .nan ∨ y l = .nan → r = nan) ∧
      (x l ≠ .nan → y l ≠ .nan → r = if place (v l) ≤ place (u l) then u l else v l))

/-- R173, R486: VCVT. Its lanes are as many as the wider type has; a widening form takes the lanes of its part, a narrowing
one writes zeros above. A floating value is rounded once to a floating type; an integer is converted exactly and rounded
once; a floating value goes to an integer by rounding, with the limit of the range beyond it and 0 for a NaN; an integer goes
to a wider one by sign extension and to a narrower one by its low bits. -/
def Sys2Proof.Claims.ConversionLanes : Prop :=
  ∀ (c : Core) (gs : List Word) (d a : BitVec 5) (p : BitVec 2) (z t : BitVec 3) (m : BitVec 4),
    let ws := laneWidth z
    let wd := laneWidth t
    let mask := if m.getLsbD 3 then mOf c (m.toNat % 8) else BitVec.allOnes 32
    let mode := if m.getLsbD 3 then 0 else m.toNat
    let n := 1024 / max ws wd
    let x (l : Nat) : Nat := laneOf (vOf c a) ws ((if ws < wd then p.toNat * n else 0) + l)
    let val (l : Nat) : FpVal := fpDecode (laneFmt z) (x l)
    let int (v : Int) : FpVal := .fin (decide (v < 0)) v.natAbs 0
    let lo : Int := -2 ^ (wd - 1)
    let hi : Int := 2 ^ (wd - 1) - 1
    ∃ f, Lanes (vecCompute c gs (.vcvt d a p z t m)) d wd mask (vOf c d) f ∧
      (∀ l, n ≤ l → f l = 0) ∧
      ∀ l, l < n →
        (4 ≤ z.toNat → 4 ≤ t.toNat → f l = roundedLane t mode (val l)) ∧
        (z.toNat < 4 → 4 ≤ t.toNat → f l = roundedLane t mode (int (signedLane ws (x l)))) ∧
        (z.toNat < 4 → t.toNat < 4 → f l = laneOfInt wd (signedLane ws (x l))) ∧
        (4 ≤ z.toNat → t.toNat < 4 →
          (val l = .nan → f l = 0) ∧ (val l = .inf true → f l = laneOfInt wd lo) ∧ (val l = .inf false → f l = laneOfInt wd hi) ∧
          ∀ neg q e, val l = .fin neg q e → f l = laneOfInt wd (max lo (min hi (roundInt mode neg q e).1)))

/-- R189, R190, R487: what VEXP2, VLOG2, VRCP, VRSQ and VTANH give in an active lane for the inputs of the table of R190, and
the results that R189 makes exact; VTANH of the opposite number is the opposite result. What they give elsewhere is one of
two neighbours, which the spec leaves open (log 8). -/
def Sys2Proof.Claims.SpecialFunctionLanes : Prop :=
  ∀ (c : Core) (gs : List Word) (d a : BitVec 5) (m : BitVec 4),
    let mask := if m.getLsbD 3 then mOf c (m.toNat % 8) else BitVec.allOnes 32
    let x := laneOf (vOf c a) 32
    let gives (i : Instr) (P : Nat → Nat → Prop) : Prop :=
      ∃ f : Nat → Nat, Lanes (vecCompute c gs i) d 32 mask (vOf c d) (fun l => f (x l)) ∧ ∀ v, P v (f v)
    let nan := canonNaN fmt32
    let isNan (v : Nat) : Prop := fpDecode fmt32 v = .nan
    let inf := 0x7F800000
    let minus := 0x80000000
    let code (v : FpVal) : Nat := (round fmt32 0 false v).1
    let pow (n : Int) : Nat := code (.fin false 1 n)
    let int (n : Int) : Nat := code (.fin (decide (n < 0)) n.natAbs 0)
    let below (v : Nat) : Prop := ∃ q e, 0 < q ∧ fpDecode fmt32 v = .fin true q e
    gives (.vexp2 d a 6#3 m) (fun v r => (isNan v → r = nan) ∧ (v = inf → r = inf) ∧ (v = inf + minus → r = 0) ∧
      (v = 0 ∨ v = minus → r = pow 0) ∧ ∀ n : Int, -149 ≤ n → n ≤ 127 → v = int n → r = pow n) ∧
    gives (.vlog2 d a 6#3 m) (fun v r => (isNan v ∨ v = inf + minus ∨ below v → r = nan) ∧ (v = inf → r = inf) ∧
      (v = 0 ∨ v = minus → r = inf + minus) ∧ ∀ n : Int, -149 ≤ n → n ≤ 127 → v = pow n → r = int n) ∧
    gives (.vrcp d a 6#3 m) (fun v r => (isNan v → r = nan) ∧ (v = inf → r = 0) ∧ (v = inf + minus → r = minus) ∧
      (v = 0 → r = inf) ∧ (v = minus → r = inf + minus) ∧
      ∀ n : Int, -127 ≤ n → n ≤ 127 → (v = pow n → r = pow (-n)) ∧ (v = pow n + minus → r = pow (-n) + minus)) ∧
    gives (.vrsq d a 6#3 m) (fun v r => (isNan v ∨ v = inf + minus ∨ below v → r = nan) ∧ (v = inf → r = 0) ∧
      (v = 0 → r = inf) ∧ (v = minus → r = inf + minus) ∧ ∀ n : Int, -74 ≤ n → n ≤ 63 → v = pow (2 * n) → r = pow (-n)) ∧
    gives (.vtanh d a 6#3 m) (fun v r => (isNan v → r = nan) ∧ (v = inf → r = pow 0) ∧ (v = inf + minus → r = pow 0 + minus) ∧
      (v = 0 ∨ v = minus → r = v)) ∧
    ∃ f : Nat → Nat, Lanes (vecCompute c gs (.vtanh d a 6#3 m)) d 32 mask (vOf c d) (fun l => f (x l)) ∧
      ∀ v, v < minus → ¬ isNan v → f (v + minus) = f v + minus

/-- R169, R171, R173, R189, R190, R486, R487, R489: the lanes of the floating-point instructions, the conversions and the
special functions. -/
def Obligations.VectorFloatLanes : Prop :=
  Sys2Proof.Claims.VectorArithmeticLanes ∧ Sys2Proof.Claims.ConversionLanes ∧ Sys2Proof.Claims.SpecialFunctionLanes

/-- R194, R201, R202, R484, R485, R488, R490, R494 to R498: selections, permutations, broadcasts, lane moves, integer
compares, the integer reductions by sum and by bits, integer multiply-accumulate, VACLR and the saturating VNRW. -/
def Sys2Proof.Claims.VectorMoveLanes : Prop :=
  ∀ (c : Core) (gs : List Word) (d a b : BitVec 5) (e : BitVec 3) (ga gb t : BitVec 3) (m : BitVec 4),
    let w := laneWidth t
    let mask := if m.getLsbD 3 then mOf c (m.toNat % 8) else BitVec.allOnes 32
    let x := laneOf (vOf c a) w
    let y := laneOf (vOf c b) w
    let on (l : Nat) : Bool := mask.toNat.testBit l
    let is (i : Instr) (f : Nat → Nat) : Prop := Lanes (vecCompute c gs i) d w mask (vOf c d) f
    let wrote (i : Instr) (key : Nat) (n : Nat) (P : BitVec n → Prop) : Prop :=
      ∃ v r, vecCompute c gs i = some v ∧ v.wr = [(key, BitVec.setWidth 2048 r)] ∧ P r
    let n := (lget 0 gs gb.toNat).toNat
    let v := (lget 0 gs ga.toNat).toNat
    let z := laneOf (aOf c e) 64
    let x32 := laneOf (vOf c a) 32
    let y32 := laneOf (vOf c b) 32
    let acc (i : Instr) (f : Nat → Nat) : Prop :=
      wrote i (32 + e.toNat) 2048 fun r => ∀ l, l < 32 → laneOf r 64 l = if on l then f l else z l
    let reduced (o : BitVec 5) (r : Nat) : Prop := wrote (.vred d a o 2#3 m) d.toNat 1024 fun x => x = BitVec.ofNat 1024 r
    let present := (List.range 32).filter on
    Lanes (vecCompute c gs (.vsel d a b t e)) d w (mOf c e.toNat) (vOf c b) x ∧
    is (.vperm d a b t m) (fun l => x (y l % (1024 / w))) ∧
    is (.vbcst d ga t m) (fun _ => v % 2 ^ w) ∧
    wrote (.vins d ga gb t m) d.toNat 1024 (fun r => ∀ l, l < 1024 / w → laneOf r w l = if l = n then v % 2 ^ w else laneOf (vOf c d) w l) ∧
    (4 ≤ t.toNat ∨ m = 1#4 → ∃ o, vecCompute c gs (.vext e a gb t m) = some o ∧ o.wr = [] ∧ o.result = word (x n)) ∧
    (t.toNat < 4 → m = 0#4 → ∃ o, vecCompute c gs (.vext e a gb t m) = some o ∧ o.wr = [] ∧ o.result = wordOfInt (signedLane w (x n))) ∧
    (t = 2#3 ∨ t = 3#3 →
      let cmp (P : Nat → Nat → Prop) : Prop := wrote (.vcmp e a b t m) (40 + e.toNat) 2048 fun r =>
        ∀ i, i < 32 → (r.toNat.testBit i = true ↔ if on (i * 32 / w * w / 32) then P (x (i * 32 / w)) (y (i * 32 / w)) else (mOf c e.toNat).toNat.testBit i = true)
      (m.getLsbD 3 = true ∨ m.toNat / 2 = 0 → cmp fun p q => p = q) ∧
      (m.toNat / 2 = 1 → cmp fun p q => p ≠ q) ∧
      (m = 4#4 → cmp fun p q => signedLane w p < signedLane w q) ∧ (m = 5#4 → cmp fun p q => p < q) ∧
      (m = 6#4 → cmp fun p q => signedLane w q ≤ signedLane w p) ∧ (m = 7#4 → cmp fun p q => q ≤ p)) ∧
    reduced 0 ((present.map x32).sum % 2 ^ 32) ∧
    reduced 3 ((present.map x32).foldl (· &&& ·) (2 ^ 32 - 1)) ∧
    reduced 4 ((present.map x32).foldl (· ||| ·) 0) ∧
    reduced 5 ((present.map x32).foldl (· ^^^ ·) 0) ∧
    (m = 1#4 → acc (.vmac e a b 2#3 m) (fun l => (z l + x32 l * y32 l) % 2 ^ 64)) ∧
    (m = 0#4 ∨ m.getLsbD 3 = true →
      acc (.vmac e a b 2#3 m) (fun l => laneOfInt 64 (signedLane 64 (z l) + signedLane 32 (x32 l) * signedLane 32 (y32 l)))) ∧
    wrote (.vaclr e) (32 + e.toNat) 2048 (fun r => r = 0) ∧
    (t.toNat < 3 → m = 0#4 → wrote (.vnrw d e t m) d.toNat 1024 fun r => ∀ l, l < 1024 / w → laneOf r w l =
      if l < 32 then laneOfInt w (max (-2 ^ (w - 1)) (min (2 ^ (w - 1) - 1) (signedLane 64 (z l)))) else 0) ∧
    (t.toNat < 3 → m = 1#4 → wrote (.vnrw d e t m) d.toNat 1024 fun r => ∀ l, l < 1024 / w → laneOf r w l =
      if l < 32 then min (2 ^ w - 1) (z l) else 0)

/-- R192, R194, R201, R202, R483, R484, R485, R488, R490, R494, R498: the lanes of the integer, move and lane-crossing vector
instructions. -/
def Obligations.VectorIntegerAndMoves : Prop :=
  Sys2Proof.Claims.VectorIntegerLanes ∧ Sys2Proof.Claims.VectorMoveLanes

/-- A parked fibre waits for something that a retirement tests again (R70). -/
def Sys2Proof.Claims.retested : Cont → Bool
  | .retry => true
  | .fence _ => true
  | .ifence => true
  | .release _ _ => true
  | .exit => true
  | .walkWait _ _ => true
  | .leaseDrop _ => true
  | _ => false

/-- R195, R197, R219, R172, R215: the head of a dispatch queue whose sources are ready starts and computes from the
registers; one that reads a register with an uncorrectable error faults UE (R481, log 80). After its latency it retires: its
registers are written, its flags join FPST, its ring entry says so, an accumulator slot that it releases is FREE, and a fibre
that waits for its word gets it and goes on. Memory is unchanged; no other fibre waits for the retirement. -/
def Sys2Proof.Claims.RegisterStartAndRetire : Prop :=
  ∀ (s : State) (c : CoreId) (d : Disp) (l : List Disp) (o : VecOut),
    let x := s.core c
    let f : FibreRef := ⟨c, d.slot⟩
    s.stopped (s.partOf c) = false → vmemOf d.i = none → shapeOp d = none →
    (x.disp = d :: l → x.running = [] → (s.die c.die).vgate = false → State.readsError x d.i = true →
      Completes (.dispatchStart c) s fun t =>
        let y := t.core c
        y.disp = l ∧ y.running = [{ d with startAt := s.clock, doneAt := s.clock + 1, fault := some (8, 0) }] ∧
        y.v = x.v ∧ y.a = x.a ∧ y.m = x.m ∧ t.fibres = s.fibres ∧ SameMemory s t) ∧
    (x.disp = d :: l → x.running = [] → (s.die c.die).vgate = false → State.readsError x d.i = false → isMtx d.i = false →
      x.sfuFree ≤ s.clock → vecCompute x d.g d.i = some o →
      Completes (.dispatchStart c) s fun t =>
        let y := t.core c
        y.disp = l ∧ y.running = [{ d with startAt := s.clock, doneAt := s.clock + vecLatency d.i, wr := o.wr, flags := o.flags, result := o.result }] ∧
        y.v = x.v ∧ y.a = x.a ∧ y.m = x.m ∧ t.fibres = s.fibres ∧ SameMemory s t) ∧
    (x.disp = d :: l → x.running = [] → (s.die c.die).vgate = true → exec (.dispatchStart c) s = .next s) ∧
    (x.running = [d] → d.reads = 0 → d.doneAt ≤ s.clock → d.fault = none → d.out = [] → d.wr.length ≤ 1 →
      (∀ y ∈ s.fibres, y.1.core = c → y.2.status = .parked → retested y.2.cont = false) →
      ((s.fib f).status ≠ .parked ∨ ∃ g, (s.fib f).cont = .dispatch g d.seq) →
      Completes (.dispatchRetire c) s fun t =>
        let y := t.core c
        y.running = [] ∧ y.fpst = x.fpst ||| d.flags ∧ SameMemory s t ∧
        (∀ key r, (key, r) ∈ d.wr → key < 48 → regOf y key = fileReg (setFileReg {} key r) key) ∧
        (∀ key, key < 48 → (∀ r, (key, r) ∉ d.wr) → regOf y key = fileReg x key) ∧
        (∀ e, tfind x.ring (d.seq % 64) = some e → e.seq = d.seq → (tget {} y.ring (d.seq % 64)).state = 2) ∧
        (d.frees = true → tget {} (t.gang (State.gangOf c)).slots (slotOf d) = .free) ∧
        ∀ g, (s.fib f).cont = .dispatch g d.seq →
          (t.fib f).status = .ready ∧ (t.fib f).pc = (s.fib f).pc + 4 ∧ (t.fib f).g = lset (s.fib f).g g.toNat d.result) ∧
    (x.running = [d] → s.clock < d.doneAt → (∀ y ∈ s.fibres, y.1.core = c → y.2.status = .parked → retested y.2.cont = false) →
      exec (.dispatchRetire c) s = .next s)

/-- R144, R194, R219, R267, R492: a VLD, VGTH, VST or VSCT whose active lanes lie in the own tile store and pass their checks
starts. Its lanes stand at the capability's cursor with the index and 128 bytes for each unit of the offset, or with the
lane's own signed 32-bit index. A load takes each active lane's bytes and keeps the old value of the others; a store fixes
the bytes of each active lane, in increasing lane order; memory is unchanged. Where a lane fails its check, the fault has the
subcode and address of the lowest such lane. -/
def Sys2Proof.Claims.MemoryLanes : Prop :=
  ∀ (s : State) (c : CoreId) (d : Disp) (l : List Disp) (k : BitVec 2) (v : BitVec 5) (m : BitVec 4) (n : Nat) (addr pa : Nat → Nat),
    let x := s.core c
    let cap := lget .null d.k k.toNat
    let mask := if m.getLsbD 3 then mOf x (m.toNat % 8) else BitVec.allOnes 32
    let on (j : Nat) : Bool := mask.toNat.testBit (j * n / 4)
    let act := (List.range (128 / n)).filter on
    let linear (ix : BitVec 1) (gi : BitVec 3) (o : BitVec 9) : Prop := n = 4 ∧ ∀ j, addr j = wrap 64
      (cap.cursor + (if ix = 1 then ((lget 0 d.g gi.toNat).toNat : Int) else 0) + o.toInt * 128 + 4 * j)
    let indexed (vi : BitVec 5) (w : BitVec 1) : Prop := n = (if w = 1 then 8 else 4) ∧ ∀ j, addr j = wrap 64
      (cap.cursor + (BitVec.ofNat 32 (laneOf (vOf x vi) 32 (j * n / 4))).toInt)
    let load := (∃ ix gi o, d.i = .vld v k m ix gi o ∧ linear ix gi o) ∨ ∃ vi w, d.i = .vgth v k m vi w ∧ indexed vi w
    let store := (∃ ix gi o, d.i = .vst v k m ix gi o ∧ linear ix gi o) ∨ ∃ vi w, d.i = .vsct v k m vi w ∧ indexed vi w
    let one := (∃ ix gi o, d.i = .vld v k m ix gi o ∨ d.i = .vst v k m ix gi o)
    let asked := act.map fun j => (j, addr j)
    let passed := act.map fun j => (j, addr j, n, [(pa j, n)])
    let begun (t : State) (P : Disp → Prop) : Prop := ∃ d', (t.core c).running = [d'] ∧ (t.core c).disp = l ∧ P d' ∧
      d'.seq = d.seq ∧ d'.startAt = s.clock ∧ SameMemory s t ∧ t.fibres = s.fibres
    let time (d' : Disp) : Prop := (one → d'.doneAt = s.clock + 6) ∧ (¬ one → d'.doneAt = s.clock + 8 + (act.length + 3) / 4)
    s.stopped (s.partOf c) = false → (s.die c.die).vgate = false → x.disp = d :: l → x.running = [] → x.memFree ≤ s.clock →
    State.readsError x d.i = false → cap.space < 4 → (∀ y ∈ s.flight, y.2.who ≠ ⟨c, d.slot⟩) →
    d = { seq := d.seq, slot := d.slot, i := d.i, pc := d.pc, g := d.g, k := d.k, pl := d.pl } →
    ((∀ j ∈ act, paKind (pa j) = 1 ∧ paIdx (pa j) = coreTile c) →
      (load → s.vmemCheck c d cap n false asked = .ok passed → (∀ j ∈ act, s.readError (pa j) n = none) →
        Completes (.dispatchStart c) s fun t => begun t fun d' => d'.fault = none ∧ d'.reads = 0 ∧ time d' ∧
          ∃ r : BitVec 1024, dispWr d' = [(v.toNat, BitVec.setWidth 2048 r)] ∧ ∀ j, j < 128 / n →
            laneOf r (8 * n) j = if on j then leNat (s.readBytes (pa j) n) else laneOf (vOf x v) (8 * n) j) ∧
      (store → s.vmemCheck c d cap n true asked = .ok passed →
        Completes (.dispatchStart c) s fun t => begun t fun d' => d'.fault = none ∧ d'.reads = 0 ∧ time d' ∧ d'.wr = [] ∧
          d'.out = act.map fun j => (addr j, [(pa j, n)], leBytes n (laneOf (vOf x v) (8 * n) j)))) ∧
    (∀ e a j, load ∨ store → s.vmemCheck c d cap n (vmemWrites d.i) asked = .error (e, a, j) →
      Completes (.dispatchStart c) s fun t => begun t fun d' => d'.fault = some (e, word a) ∧ d'.wr = [] ∧ d'.out = [])

/-- R172, R223, R224, R440, R492: a vector store or a SHAPE instruction whose destination lies in the own tile store retires:
its units are written in their order, its flags join FPST, and no other byte of memory changes. -/
def Sys2Proof.Claims.MemoryRetire : Prop :=
  ∀ (s : State) (c : CoreId) (d : Disp) (outs : List (Nat × Nat × List Byte)),
    let x := s.core c
    let e := match shapeOp d with | some o => State.shapeResult d o | none => d
    let cap := match shapeOp d, vmemOf d.i with
      | some o, _ => o.dc
      | none, some (k, _) => lget .null d.k k.toNat
      | none, none => .null
    let put (u : State) (o : Nat × Nat × List Byte) : State := u.writeBytes o.2.1 o.2.2
    s.stopped (s.partOf c) = false → x.running = [d] → d.reads = 0 → d.doneAt ≤ s.clock → d.fault = none → d.wr = [] → d.frees = false →
    s.errors = [] → (∀ y ∈ s.fibres, y.1.core = c → y.2.status ≠ .parked) →
    e.out = outs.map (fun o => (o.1, [(o.2.1, o.2.2.length)], o.2.2)) →
    (∀ o ∈ outs, paKind o.2.1 = 1 ∧ paIdx o.2.1 = coreTile c ∧ s.windowFault o.2.1 o.2.2.length cap.meter (d.pl == 3) true = false) →
    Completes (.dispatchRetire c) s fun t =>
      let u := outs.foldl put s
      t.mem = u.mem ∧ t.tags = u.tags ∧ t.poison = u.poison ∧ (t.core c).running = [] ∧ (t.core c).fpst = x.fpst ||| e.flags

/-- R223, R440: a SHAPE instruction with its source and destination in the own tile store starts: it reads its whole source,
occupies the unit for the cycles of the table, and will write what the source gives, with its flags. -/
def Sys2Proof.Claims.ShapeStart : Prop :=
  ∀ (s : State) (c : CoreId) (d : Disp) (l : List Disp) (o : ShapeOp) (pa pb : Nat),
    let x := s.core c
    let units (a n align base : Nat) := (shapeUnits a n align).map fun u => (0, u.1, u.2, [(base + (u.1 - a), u.2)])
    let code := match d.i with
      | .qenc _ _ _ _ _ => true
      | .qdec _ _ _ _ _ _ => true
      | _ => false
    let cycles := if code then (if o.form = 1 then 96 else 80) else (if o.form = 1 then 40 else 24)
    s.stopped (s.partOf c) = false → (s.die c.die).vgate = false → x.disp = d :: l → x.running = [] → x.sfuFree ≤ s.clock →
    State.readsError x d.i = false → shapeOp d = some o → o.sc.space = 1 → o.dc.space = 1 → (∀ y ∈ s.flight, y.2.who ≠ ⟨c, d.slot⟩) →
    d = { seq := d.seq, slot := d.slot, i := d.i, pc := d.pc, g := d.g, k := d.k, pl := d.pl } →
    s.shapeCheck c d o = .ok (units o.sa o.sn o.salign pa, units o.da o.dn o.dalign pb) →
    (∀ i, i < o.sn → paKind (pa + i) = 1 ∧ paIdx (pa + i) = coreTile c) → (∀ i n, s.readError (pa + i) n = none) →
    Completes (.dispatchStart c) s fun t => ∃ d', (t.core c).running = [d'] ∧ (t.core c).disp = l ∧ d'.fault = none ∧ d'.reads = 0 ∧
      d'.doneAt = s.clock + cycles ∧ SameMemory s t ∧
      let w := shapeCompute d.i d.g o.form (s.readBytes pa o.sn)
      (State.shapeResult d' o).flags = w.2 ∧
        (State.shapeResult d' o).out = (shapeUnits o.da o.dn o.dalign).map fun u =>
          (u.1, [(pb + (u.1 - o.da), u.2)], slice w.1 (u.1 - o.da) u.2)

namespace Sys2Proof.Claims
open Sys2Proof.Machine

/-- Element (i, j) of a block, its row and its column exponent (R174). -/
def elemAt (four : Bool) (bs : List Byte) (i j : Nat) : Nat :=
  if four then (let b := (lget 0 bs (32 + 16 * i + j / 2)).toNat; if j % 2 = 0 then b % 16 else b / 16)
  else (lget 0 bs (32 + 32 * i + j)).toNat
def rowExp (bs : List Byte) (i : Nat) : Nat := bits (leNat ((bs.drop 1).take 8)) (2 * i + 1) (2 * i)
def colExp (bs : List Byte) (j : Nat) : Nat := bits (leNat ((bs.drop 9).take 8)) (2 * j + 1) (2 * j)
def tileExp (bs : List Byte) : Nat := (lget 0 bs 0).toNat
def generation (bs : List Byte) : Nat := leNat ((bs.drop 18).take 2)

/-- The block is well-formed for a form: 1 SQ8, 2 SQ4 (R174, R175). -/
def WellFormedBlock (form : Nat) (bs : List Byte) : Prop :=
  let f := (lget 0 bs 17).toNat
  (form = 1 ∧ bs.length = 1056 ∧ (f = 1 ∨ f = 2 ∨ f = 4) ∨ form = 2 ∧ bs.length = 544 ∧ (f = 3 ∨ f = 5)) ∧
    ∀ i, 20 ≤ i → i < 32 → lget 0 bs i = 0

/-- The value of element (i, j) of a well-formed block that is no NaN tile (R176). -/
def elemVal (form : Nat) (bs : List Byte) (i j : Nat) : FpVal :=
  match elemValue (lget 0 bs 17).toNat (elemAt (form == 2) bs i j) with
  | .fin neg q e => .fin neg q (e + tileExp bs - 127 + rowExp bs i + colExp bs j)
  | v => v

end Sys2Proof.Claims

/-- R174 to R178, R183, R441, R443, R444: what QDEC, QTRN and QSCL give for a block. QDEC rounds each value of a good block
to the target; another gives NaNs. QTRN keeps the tile exponent and the generation, swaps the row and the column exponents
and the elements, or makes a NaN tile of another form. QSCL adds to the tile exponent within its range and counts the
generation; beyond it the block saturates, or becomes a NaN tile or zero. -/
def Sys2Proof.Claims.BlockTransforms : Prop :=
  ∀ (g : List Word) (form : Nat) (bs : List Byte) (a b : BitVec 3) (z k : BitVec 2) (sat : BitVec 1) (r : BitVec 3),
    let four := form == 2
    let v := (lget 0 g b.toNat).toNat
    let good := WellFormedBlock form bs
    let f := (lget 0 bs 17).toNat
    let t := tileExp bs
    let inside (i j : Nat) : Prop := i < 32 ∧ j < 32
    let decoded := (shapeCompute (.qdec a b z k sat r) g form bs).1
    let fmt := if v % 8 = 0 then fmt32 else if v % 8 = 1 then fmtBf else fmt16
    let n := if v % 8 = 0 then 4 else 2
    let value (i j : Nat) : Nat := leNat ((decoded.drop ((32 * i + j) * n)).take n)
    let turned := shapeCompute (.qtrn a b z k) g form bs
    let scaled := shapeCompute (.qscl a b z k sat) g form bs
    let w := scaled.1
    let by' := (BitVec.ofNat 9 v).toInt
    let live (i j : Nat) : Prop := ∃ neg q e, 0 < q ∧ elemVal form bs i j = .fin neg q e
    let largest (x : Nat) : Nat :=
      if f = 1 then x / 128 * 128 + 0x7E else if f = 2 then x / 128 * 128 + 0x7B else if f = 3 then x / 8 * 8 + 7
      else if f = 4 then (if x < 128 then 0x7F else 0x80) else (if x < 8 then 7 else 8)
    let counted := generation w = (generation bs + 1) % 65536 ∧ (lget 0 w 17).toNat = f ∧ ∀ i, 20 ≤ i → i < 32 → lget 0 w i = 0
    (good → t ≠ 255 → ∀ i j, inside i j → value i j = (round fmt r.toNat (sat == 1#1) (elemVal form bs i j)).1) ∧
    (good → t = 255 → ∀ i j, inside i j → value i j = canonNaN fmt) ∧
    (good → turned.2 = 0 ∧ tileExp turned.1 = t ∧ generation turned.1 = generation bs ∧ (lget 0 turned.1 17).toNat = f ∧
      ∀ i j, inside i j → elemAt four turned.1 i j = elemAt four bs j i ∧ rowExp turned.1 i = colExp bs i ∧ colExp turned.1 j = rowExp bs j) ∧
    (formOk form bs = false → turned.2 = flagNV ∧ tileExp turned.1 = 255) ∧
    (good → t = 255 → w = [255#8] ++ (bs.drop 1).take 17 ++ leBytes 2 (generation bs + 1) ++ bs.drop 20 ∧ scaled.2 = 0) ∧
    (good → t ≠ 255 → (∀ i j, inside i j → ¬ live i j) →
      scaled.2 = 0 ∧ counted ∧ (tileExp w : Int) = min 254 (max 0 (t + by'))) ∧
    (good → t ≠ 255 → 0 ≤ t + by' → t + by' ≤ 254 →
      scaled.2 = 0 ∧ counted ∧ (tileExp w : Int) = t + by' ∧ ∀ i j, inside i j → elemAt four w i j = elemAt four bs i j ∧
        rowExp w i = rowExp bs i ∧ colExp w j = colExp bs j) ∧
    (good → t ≠ 255 → 254 < t + by' → (∃ i j, inside i j ∧ live i j) → scaled.2 = flagOF + flagNX ∧ counted ∧
      (sat = 1 → tileExp w = 254 ∧ ∀ i j, inside i j → rowExp w i = 3 ∧ colExp w j = 3 ∧
        (live i j → elemAt four w i j = largest (elemAt four bs i j)) ∧ (¬ live i j → elemAt four w i j = elemAt four bs i j)) ∧
      (sat = 0 → tileExp w = 255 ∧ ∀ i j, inside i j → rowExp w i = 0 ∧ colExp w j = 0 ∧ elemAt four w i j = 0)) ∧
    (good → t ≠ 255 → t + by' < 0 → (∃ i j, inside i j ∧ live i j) → scaled.2 = flagUF + flagNX ∧ counted ∧ tileExp w = 0 ∧
      ∀ i j, inside i j → rowExp w i = 0 ∧ colExp w j = 0 ∧
        ((∃ neg q e, elemVal form bs i j = .fin neg q e) → elemAt four w i j =
          if f = 3 then elemAt four bs i j / 8 * 8 else if f = 1 ∨ f = 2 then elemAt four bs i j / 128 * 128 else 0))

/-- R179 to R181, R442: what QENC gives for 1,024 FP32 values: a NaN tile where one of them is a NaN, or an infinity that the
format has not; else the tile exponent, the column and row exponents of EncodeSQ, and each value divided by its scale and
rounded once with saturation. -/
def Sys2Proof.Claims.BlockEncoding : Prop :=
  ∀ (g : List Word) (form : Nat) (bs : List Byte) (a b : BitVec 3) (z k : BitVec 2) (r : BitVec 3) (f gen : Nat),
    let out := shapeCompute (.qenc a b z k r) g form bs
    let w := out.1
    let four := f == 3 || f == 5
    let x (i j : Nat) : FpVal := fpDecode fmt32 (leNat ((bs.drop (4 * (32 * i + j))).take 4))
    let inside (i j : Nat) : Prop := i < 32 ∧ j < 32
    let refused (v : FpVal) : Prop := v = .nan ∨ ∃ s, v = .inf s ∧ f ≠ 2
    let top (i j : Nat) (e : Int) : Prop := ∃ neg q e', 0 < q ∧ x i j = .fin neg q e' ∧ e = Nat.log2 q + e'
    let p : Int := if f = 1 then 8 else if f = 2 then 15 else if f = 4 then 6 else 2
    let largest (Q : Int → Prop) (e : Int) : Prop := Q e ∧ ∀ y, Q y → y ≤ e
    let need (e : Int) : Int := min 3 (max 0 e)
    let t : Int := (tileExp w : Int) - 127
    let c (j : Nat) : Int := colExp w j
    (lget 0 g b.toNat).toNat = f + gen * 65536 → 1 ≤ f → f ≤ 5 → gen < 65536 →
      (lget 0 w 17).toNat = f ∧ generation w = gen ∧ (∀ i, 20 ≤ i → i < 32 → lget 0 w i = 0) ∧
      w.length = (if four then 544 else 1056) ∧
      ((∃ i j, inside i j ∧ refused (x i j)) → tileExp w = 255 ∧ out.2 = flagNV) ∧
      ((∀ i j, inside i j → ¬ refused (x i j)) →
        (∀ e, largest (fun y => ∃ i j, inside i j ∧ top i j y) e → t = max (-127) (e - p - 6)) ∧
        ((∀ i j e, inside i j → ¬ top i j e) → t = -127) ∧
        (∀ j, j < 32 → (∀ e, largest (fun y => ∃ i, i < 32 ∧ top i j y) e → c j = need (e - p - t - 3)) ∧
          ((∀ i e, i < 32 → ¬ top i j e) → c j = 0)) ∧
        (∀ i, i < 32 → (∀ e, largest (fun y => ∃ j m, j < 32 ∧ top i j m ∧ y = m - p - t - c j) e → (rowExp w i : Int) = need e) ∧
          ((∀ j e, j < 32 → ¬ top i j e) → rowExp w i = 0)) ∧
        ∀ i j, inside i j → f ≠ 4 → f ≠ 5 → ∀ neg q e, x i j = .fin neg q e → elemAt four w i j =
          (round (if f = 1 then fmtE4M3 else if f = 2 then fmtE5M2 else fmtE2M1) r.toNat true (.fin neg q (e - t - rowExp w i - c j))).1) ∧
      ((∀ i j, inside i j → ¬ refused (x i j)) → ∀ i j, inside i j → f = 4 ∨ f = 5 → ∀ neg q e, x i j = .fin neg q e →
        let n := if f = 4 then 8 else 4
        elemAt four w i j = laneOfInt n (max (-2 ^ (n - 1)) (min (2 ^ (n - 1) - 1)
          (roundInt r.toNat neg q (e - t - rowExp w i - c j)).1)))

/-- R172 to R183, R195, R197, R219, R223, R440 to R444, R492: the start and the retirement of dispatched instructions, what
the vector loads and stores move, and what the SHAPE instructions make of a block. -/
def Obligations.DispatchStartAndRetire : Prop :=
  Sys2Proof.Claims.RegisterStartAndRetire ∧ Sys2Proof.Claims.MemoryLanes ∧ Sys2Proof.Claims.MemoryRetire ∧
    Sys2Proof.Claims.ShapeStart ∧ Sys2Proof.Claims.BlockTransforms ∧ Sys2Proof.Claims.BlockEncoding

/-- R205 to R208, R212 to R218, R422 to R431, R435: four agreeing heads of the gang queues join: MGANG forms the gang and
leaves no format, MFMT sets it, MZERO clears a slot at once where nothing before it is under way, MMA opens its slot and
waits for its operands. An operand period reads the blocks of the one MMA that waits, and none where the matrix gate is
closed. A due result is written to the slot. MRD, MREL, MRCL and MSTAT act on a slot as their states allow, and on one of
another partition trap MEMBER. -/
def Obligations.GangOperations : Prop :=
  ∀ (s : State) (n c : Nat) (o0 o1 o2 o3 : GangOp) (m : Mma) (xs : List (Operand × Nat)) (rd : State.Reads),
    let g := s.gang n
    let ops := [o0, o1, o2, o3]
    let d := o0.d
    let slot := State.gangOpSlot d.i
    let joined (P : Gang → Prop) : Prop := Completes (.gangJoin n) s fun t =>
      P (t.gang n) ∧ SameMemory s t ∧ (t.gang n).queues = g.queues.map fun q => (q.1, q.2.drop 1)
    let free := tget {} g.slots slot
    (State.gangHeads g = ops → s.gangRuns n = true → ops.all s.headReady = true → (ops.all fun o => headsAgree d o.d) = true →
      (∀ o ∈ ops, (s.fib o.fibre).status = .ready) →
      (∀ a, d.i = .mgang a → joined fun h => h.formed = true ∧ h.token = gangValue d % 65536 ∧ h.members = ops.map (·.fibre) ∧
        h.valid = false ∧ h.hbv = false ∧ h.mmas = g.mmas) ∧
      (∀ a, d.i = .mfmt a → joined fun h => h.valid = true ∧ h.hbv = false ∧ h.sa = gangValue d % 4 ∧ h.sb = gangValue d / 4 % 4 ∧
        (h.sat = true ↔ gangValue d / 256 % 2 = 1) ∧ h.formed = g.formed ∧ h.slots = g.slots ∧ h.mmas = g.mmas) ∧
      (∀ z b, d.i = .mzero z b → free.state = 0 → free.dying = false → g.mmas = [] → joined fun h =>
        let a := tget {} h.slots slot
        a.state = 1 ∧ a.tag = gangTag d ∧ a.members = g.members.map fibreId ∧ a.vals = [] ∧ h.mmas = []) ∧
      (∀ z k l a b, d.i = .mma z k l a b → g.valid = true → free.state = 0 → free.dying = false → joined fun h =>
        let e := tget {} h.slots slot
        e.state = 1 ∧ e.tag = gangTag d ∧ e.members = g.members.map fibreId ∧
        ∃ m, h.mmas = g.mmas ++ [m] ∧ m.slot = slot ∧ m.tag = gangTag d ∧ m.ops = ops ∧ m.sa = g.sa ∧ m.sb = g.sb ∧ m.sat = g.sat ∧
          m.toFetch = (if g.sa = 2 then 2 else 1) ∧ m.blocks = [])) ∧
    (g.mmas = [m] → s.gangRuns n = true → m.toFetch = 0 → m.writeAt ≤ s.clock → m.var < 3 → (tget {} g.slots m.slot).dying = false →
      (∀ o ∈ m.ops, (s.fib o.fibre).status = .ready) →
      Completes (.mmaSlotWrite n) s fun t =>
        let e := tget {} (t.gang n).slots m.slot
        let old := tget {} g.slots m.slot
        (t.gang n).mmas = [] ∧ e.state = old.state ∧ e.tag = old.tag ∧ e.vals = (mmaSlot m old).1 ∧ SameMemory s t ∧
        ∀ o ∈ m.ops, ∃ fl, (t.core o.fibre.core).fpst = fl ||| (mmaSlot m old).2) ∧
    ((s.die (c / 16)).mgate = true → exec (.operandPeriod c) s = .next s) ∧
    ((s.die (c / 16)).mgate = false → n = 4 * c → g.mmas = [m] → (∀ i, 1 ≤ i → i < 4 → (s.gang (n + i)).mmas = []) → s.gangRuns n = true →
      m.toFetch = 1 → m.sa ≠ 2 → m.var < 2 → m.blocks = [] → s.servable n m = true → s.operandsCheck n (operandsOf m) = .ok xs →
      State.fitReads {} (xs.map fun x => (State.periodBlock m x).1) = some rd →
      (∀ x ∈ xs, s.readError (State.periodBlock m x).1 (State.periodBlock m x).2 = none) →
      let got (h : Bool) : List (List Byte) := (xs.filter fun x => x.1.b == h).map fun x =>
        s.readBytes (State.periodBlock m x).1 (State.periodBlock m x).2
      Completes (.operandPeriod c) s fun t => ∃ m', (t.gang n).mmas = [m'] ∧ m'.toFetch = 0 ∧ m'.blocks = got false ++ got true ∧
        m'.startAt = max (s.clock + 16) g.arrayFree ∧ m'.writeAt = m'.startAt + arrayTime m.sa m.sb + 3 ∧ m'.ops = m.ops ∧ m'.slot = m.slot ∧
        (t.gang n).slots = g.slots ∧ t.fibres = s.fibres ∧ SameMemory s t) ∧
    (∀ (c : CoreId) (a d : BitVec 3) (v : BitVec 5) (z : BitVec 4) (dd : Disp),
      let sl := slotOf dd
      let e := tget {} (s.gang (State.gangOf c)).slots sl
      let ours := e.part = s.partOf c
      let mine := ours ∧ lget 0 e.members (State.posOf c) = fibreId ⟨c, dd.slot⟩
      let r := (lget 0 dd.g a.toNat).toNat / 256 % 32
      let fails (sub : Nat) : Prop := s.slotAct c dd = { dd with fault := some (sub, 0) }
      let row := [(v.toNat, (slotRow e r).setWidth 2048)]
      (dd.i = .mrd a v → e.state = 1 → mine → r ∉ e.bad → s.slotAct c dd = { dd with wr := row, frees := false }) ∧
      (dd.i = .mrdRel a v → e.state = 1 → mine → r ∉ e.bad → s.slotAct c dd = { dd with wr := row, frees := true }) ∧
      (dd.i = .mrd a v ∨ dd.i = .mrdRel a v → e.state = 0 → fails 13) ∧
      (dd.i = .mrel z → e.state = 1 → mine → s.slotAct c dd = { dd with frees := true }) ∧
      (dd.i = .mrd a v ∨ dd.i = .mrdRel a v ∨ dd.i = .mrel z ∨ dd.i = .mrcl z ∨ dd.i = .mstat a d → e.state ≠ 0 → ¬ ours → fails 11) ∧
      (dd.i = .mrcl z → e.state = 2 → ours → s.slotAct c dd = { dd with frees := true }) ∧
      (dd.i = .mrcl z → e.state = 1 → ours → fails 13) ∧
      (dd.i = .mstat a d → e.state = 0 ∨ ours → s.slotAct c dd = { dd with result := s.mstatWord c sl }))

/-! ## Events: fibres, accesses, circuits and links -/

/-- R67, R69, R77, R84, R110, R263: a busy time ends; FEXIT completes, leaving a FREE slot and one fibre less in its task; a
lease passes to the next that waits for it; a pending fault or STOP is taken as a trap. That a STOP sets IMP is the model's
reading (log 45). -/
def Obligations.FibreEvents : Prop :=
  ∀ (s : State) (f : FibreRef) (c : CoreId) (p : PendFault) (n m : Nat),
    let x := s.fib f
    (f.core ≠ .root → x.status = .busy →
      exec (.busyExpiry f) s = .next (s.setFib f { x with status := .ready, readyFrom := s.clock })) ∧
    (x.cont = .exit → f.slot < 224 → x.rpl = false → x.pendFault = none → f.core ≠ .mgmt ∨ s.pkg.saveFaults = [] →
      Completes (.exitComplete f) s fun t =>
        (t.fib f).status = .free ∧ SameMemory s t ∧ t.cores = s.cores ∧
        (x.inTask = false → t = { s with fibres := tdel s.fibres f }) ∧
        (x.inTask = true → (tget {} (t.die x.tdie).tasks x.taskix).fibres = (tget {} (s.die x.tdie).tasks x.taskix).fibres - 1)) ∧
    ((s.core c).lease = some n → (s.fib ⟨c, n⟩).cont = .leaseDrop false → s.dispatchedOf ⟨c, n⟩ = false → c.kind ≠ 2 → m ≠ n →
      ((s.core c).leaseWait = [] → Completes (.leaseRelease c) s fun t =>
        (t.core c).lease = none ∧ (t.fib ⟨c, n⟩).vl = false ∧ (t.fib ⟨c, n⟩).status = .ready ∧
        (t.fib ⟨c, n⟩).pc = (s.fib ⟨c, n⟩).pc + 4 ∧ SameMemory s t) ∧
      (∀ l, (s.core c).leaseWait = m :: l → Completes (.leaseRelease c) s fun t =>
        (t.core c).lease = some m ∧ (t.core c).leaseWait = l ∧ (t.fib ⟨c, n⟩).vl = false ∧ (t.fib ⟨c, m⟩).vl = true ∧
        (t.fib ⟨c, m⟩).status = .ready ∧ (t.fib ⟨c, m⟩).pc = (s.fib ⟨c, m⟩).pc ∧ SameMemory s t)) ∧
    (x.pendFault = some p →
      exec (.impreciseDelivery f) s =
        .next ((s.setFib f { x with pendFault := none, eseq := p.seq % 65536 }).trapEntry f p.cause p.einfo true x.pc)) ∧
    (x.pendFault = none → x.pendStop = true →
      exec (.impreciseDelivery f) s = .next ((s.setFib f { x with pendStop := false }).trapEntry f 0x13 0 true x.pc))

/-- R67, R88 to R91: a walk leaves as the 192 bytes of its packet, and its fibre parks; the packet carries the registers, the
PC and FST, and the fibre that it installs has them, one walk more and every event latched. At its home die it takes the
first free walker slot; a die that is not OPEN and one without a core of the kind refuse it; the acknowledgement frees the
old slot and carries over what became pending there. A refusal goes as a reply from the home die to the source, which traps
with its code: code 1 is sent for a packet whose wait for a slot times out, code 2 where the die is not OPEN, and code 3
where it has no core of the kind left. That TASKSEQ and the membership of the task travel beside the packet, and that code 3
is given at once, are the model's choices (log 82). -/
def Obligations.WalkEvents : Prop :=
  ∀ (s : State) (f g : FibreRef) (sp id code n : Nat) (h : Home) (w : WalkPkt),
    let x := s.fib f
    let y := s.fib w.src
    let u := { s with walkers := tdel s.walkers id }.addDelay w.src.core 13 y.delay
    (x.cont = .walkWait sp h → f.core.kind ≠ 2 → Completes (.walkDeparture f) s fun t =>
      (t.fib f).status = .parked ∧ (t.fib f).park = 13 ∧ (t.fib f).cont = .walking s.nextId ∧ SameMemory s t ∧
      t.walkers = s.walkers ++ [(s.nextId, {
        src := f, part := s.partOf f.core, die := homeDie h, space := sp, home := h, bytes := State.walkBytes f (s.partOf f.core) (t.fib f)
        taskseq := x.taskseq, inTask := x.inTask })]) ∧
    (x.g.length = 8 → x.k.length = 4 → x.tdie < 8 → x.taskix < 4096 → x.pl < 4 → x.outs < 256 → x.walks < 4096 →
      let bs := State.walkBytes f (s.partOf f.core) x
      let z := s.walked { w with bytes := bs }
      bs.length = 192 ∧ z.pc = x.pc ∧ z.g = x.g ∧ z.k = x.k ∧ z.code = x.code ∧ z.tdie = x.tdie ∧ z.taskix = x.taskix ∧ z.pl = x.pl ∧
      z.trap = x.trap ∧ z.vl = x.vl ∧ z.msg = x.msg ∧ z.rpl = x.rpl ∧ z.outs = x.outs ∧ z.walks = min 4095 (x.walks + 1) ∧
      z.latch = 127 ∧ z.status = .ready) ∧
    (tfind s.walkers id = some w →
      (w.into = none → s.dieOpen w.die = true → s.walkSlot w = some g → Completes (.walkPacket id) s fun t =>
        t.fib g = s.walked w ∧ (∃ z, tfind t.walkers id = some z ∧ z.into = some g) ∧ SameMemory s t) ∧
      (w.into = none → s.dieOpen w.die = false → exec (.walkPacket id) s = .next (s.refuseWalk id w 2)) ∧
      (w.into = none → s.dieOpen w.die = true → s.walkCores w = [] → exec (.walkPacket id) s = .next (s.refuseWalk id w 3)) ∧
      (w.into = none → s.dieOpen w.die = true → s.walkCores w ≠ [] → s.walkSlot w = none → w.arrived = none →
        Completes (.walkPacket id) s fun t =>
          t.agenda = s.agenda ++ [(s.clock + 65536, .walkTimeout id)] ∧ t.fibres = s.fibres ∧ SameMemory s t) ∧
      (y.cont = .walking id → w.into = some g → g ≠ w.src → w.src.slot < 224 → w.src.core ≠ .mgmt → Completes (.walkAck id) s fun t =>
        (t.fib w.src).status = .free ∧ tfind t.walkers id = none ∧ (t.fib g).pendStop = ((s.fib g).pendStop || y.pendStop) ∧
        (t.fib g).pc = (s.fib g).pc ∧ (t.fib g).g = (s.fib g).g ∧ SameMemory s t) ∧
      (y.cont = .walking id → exec (.walkFail id code) s =
        .next (((u.setFib w.src { y with delay := 0 }).ready w.src).trapEntry w.src 0x18 (word code) false y.pc)) ∧
      (w.into = none → w.arrived = some n → exec (.walkTimeout id) s = .next (s.refuseWalk id w 1)) ∧
      (blockNode w.die ≠ coreNode w.src.core → blockNode w.die ≠ ioNode →
        let t := s.refuseWalk id w code
        SameMemory s t ∧ tfind t.walkers id = some { w with arrived := none } ∧
        ∃ fl, (fl ∈ (t.tile (blockNode w.die)).rwait ∨ fl ∈ (tget {} (t.tile (blockNode w.die)).rbuf (4, true)).flits) ∧
          fl.reply = true ∧ fl.dst = coreNode w.src.core ∧ fl.req = none ∧ fl.ev = some (.walkFail id code)))

/-- R70 to R72, R157, R221, R240: an access is performed at its home in one cycle: a load takes the bytes that stand there, a
store puts its bytes and no others; a gateway that holds the translation puts it in its queue with its physical address, or
faults where the page lies beyond its memory or may not be read. The answer gives a parked fibre its value, a fault its
precise trap, and a vector instruction the bytes of its lane; an acknowledgement lowers OUTS; a refill fills the fetch
buffer. -/
def Obligations.AccessEvents : Prop :=
  ∀ (s : State) (id gw va pa sz : Nat) (a : Access) (d : BitVec 3) (e : BitVec 2) (keep : Bool) (bs : List Byte) (f : FibreRef) (x : Xlat),
    let w := s.fib a.who
    let gone (t : State) : Prop := t.access id = none ∧ SameMemory s t
    let holds (v : Nat) : Prop := s.xlatHeld gw a.space v x = true
    let at52 := word (if a.space = 4 then a.va % 2 ^ 53 else a.va % 2 ^ 56)
    let back (P : Fibre → Prop) : Prop := Completes (.accessReply id) s fun t =>
      (t.fib a.who).status = .ready ∧ (t.fib a.who).pc = w.pc + 4 ∧ P (t.fib a.who) ∧ gone t
    (s.access id = some a → s.stopped a.part = false →
      (a.space ≤ 3 → a.pa = some pa → a.pieces = [] →
        (a.op = .load d sz → s.windowLate a pa = false → s.readError pa a.size = none → Completes (.homeAccess id) s fun t =>
          t.access id = some { a with pa := some pa, reply := s.readBytes pa a.size, replyTag := false, stage := .performed } ∧
          SameMemory s t) ∧
        (a.op = .load d sz → s.windowLate a pa = true → Completes (.homeAccess id) s fun t =>
          t.access id = some { a with fault := some (5, State.capInfo a.va a.kn), stage := .performed } ∧ SameMemory s t) ∧
        (a.op = .store bs → s.windowLate a pa = false → bs ≠ [] → s.errors = [] → a.merged = [] → Memory.wf s.mem = true → Completes (.homeAccess id) s fun t =>
          t.access id = some { a with pa := some pa, reply := [], replyTag := false, stage := .performed } ∧ Wrote s t pa bs)) ∧
      (4 ≤ a.space → a.space ≤ 6 → a.op = .load d sz → a.stage = .sent → s.home a.who.core a.space a.va = some (.gateway gw va) →
        isService a.who.core = false → s.cached gw a.part a.space va = some x →
        (¬ holds va ∨ ¬ holds (va + a.size - 1) → Completes (.homeAccess id) s fun t => SameMemory s t ∧
          t.access id = some { a with due := s.clock, fault := some (9, at52), stage := .performed }) ∧
        (holds va → holds (va + a.size - 1) → x.pr = true → (a.atRoot = true ∨ s.windowBad (State.xlatPa gw a.space x va) a.size a.meter = false) →
          Completes (.homeAccess id) s fun t =>
            (t.die gw).gw.queue = (s.die gw).gw.queue ++ [(id, servicePort (State.xlatPa gw a.space x va))] ∧ SameMemory s t ∧
            t.access id = some { a with due := s.clock, pa := some (State.xlatPa gw a.space x va), stage := .queued, router := false }) ∧
        (holds va → holds (va + a.size - 1) → x.pr = false → Completes (.homeAccess id) s fun t => SameMemory s t ∧
          t.access id = some { a with due := s.clock, fault := some (0xA, at52), stage := .performed })) ∧
      (a.fault = none → w.cont = .access id →
        (a.op = .load d sz → back fun y => y.g = lset w.g d.toNat (loadValue sz a.reply) ∧ y.k = w.k) ∧
        (a.op = .loadCap e keep → back fun y => y.k = lset w.k e.toNat ⟨BitVec.ofNat 128 (leNat a.reply), a.replyTag⟩ ∧ y.g = w.g) ∧
        (∀ op v cmp, a.op = .atomic (some d) op v cmp → back fun y => y.g = lset w.g d.toNat (word (leNat a.reply)) ∧ y.k = w.k)) ∧
      (∀ cause info, a.fault = some (cause, info) → w.cont = .access id → a.op = .load d sz →
        exec (.accessReply id) s = .next ((((s.dropAccess id).addDelay a.who.core a.dclass a.wait).ready a.who).trapEntry a.who cause info false w.pc)) ∧
      (∀ seq dd, a.fault = none → a.op = .laneRead seq → (s.core a.who.core).running = [dd] → dd.seq = seq → Completes (.accessReply id) s fun t =>
        (∃ dd', (t.core a.who.core).running = [dd'] ∧ dd'.buf = dd.buf ++ [(vaKey a.space a.va, a.reply)] ∧ dd'.reads = dd.reads - 1 ∧
          dd'.fault = dd.fault) ∧ t.fibres = s.fibres ∧ gone t) ∧
      (a.op = .store bs → a.who.slot < 256 → w.status ≠ .parked → w.cont ≠ .accept id → Completes (.accessAck id) s fun t =>
        t.fib a.who = { w with outs := w.outs - 1 } ∧ t.access id = none ∧ SameMemory s t)) ∧
    (s.flight.find? (fun b => b.2.who == f && b.2.op == AccOp.fetch) = some (id, a) → s.stopped a.part = false →
      (s.fib f).cont = .fetch → a.fault = none → Completes (.fetchRefill f) s fun t =>
        (t.fib f).fbuf = some (a.va, a.reply) ∧ (t.fib f).status = .ready ∧ (t.fib f).pc = (s.fib f).pc ∧ SameMemory s t)

/-- R37, R81, R151, R231: a residue port sends one flit of a slot, a reply before a request but after 8 replies in a row; at
its node it is delivered, and its die spends the tokens of a flit (R359). A move that has been written frees its queue entry
and increments its semaphore. -/
def Obligations.ResidueAndMoveEvents : Prop :=
  ∀ (s : State) (node q q' id : Nat) (fl fl' : RFlit) (e : Instr) (m : Move),
    let gone (t : State) (b : Nat) (x : RFlit) : Prop :=
      (t.rbufOf node b x.reply).flits = State.without x (s.rbufOf node b x.reply).flits ∧ SameMemory s t ∧
      (t.die (tileDie node)).spentTok = (s.die (tileDie node)).spentTok + Config.activity 4 ∧
      ∃ l, t.agenda = s.agenda ++ l ++ [(s.clock, e)] ∧ ∀ z ∈ l, z.2 = .issueGate (tileDie node)
    (node < 1536 → q < 4 → q' < 4 → s.residueFree node 4 = true → fl.req = none → fl.ev = some e → fl.wait = 0 → fl.since = s.clock → fl.part < 64 →
      (fl.reply = false → s.offers node 4 false = [(q, fl)] → s.offers node 4 true = [] →
        Completes (.residueSlot node 4) s fun t => gone t q fl) ∧
      (fl.reply = true → fl'.reply = false → s.offers node 4 true = [(q, fl)] → s.offers node 4 false = [(q', fl')] →
        (s.robin node 9).2 < 8 →
        Completes (.residueSlot node 4) s fun t => gone t q fl ∧
          (t.robin node 9).2 = (s.robin node 9).2 + 1)) ∧
    (s.residueFree node 4 = false → exec (.residueSlot node 4) s = .next s) ∧
    (s.move id = some m → (∀ x ∈ s.moves, x.2.checking = false) → m.who.slot < 256 → (s.fib m.who).status ≠ .parked →
      let k := s.sem m.who.core m.sem
      Completes (.moveCompletion id) s fun t =>
        t.move id = none ∧ (t.core m.who.core).moves = (s.core m.who.core).moves.filter (· ≠ id) ∧ SameMemory s t ∧
        t.sem m.who.core m.sem = if k.1 = 65535 then (k.1, true) else (k.1 + 1, k.2))

/-- R26, R36, R41 to R44, R47, R50 to R54: the Intercalator's request, its configuration flits, their staging, the commit of
a COPEN and of a CSHUT, their results, a burst's start, the freeing of lost slots, and a flit that a table entry forwards,
for which its die spends the tokens of a flit (R359). A CSHUT whose circuit another has freed after it became LOST is
answered too. -/
def Obligations.CircuitEvents : Prop :=
  ∀ (s : State) (r : CircReq) (rest : List CircReq) (c : Circuit) (m : Commit) (a x y n b : Nat) (rec : CRecord) (recs : List CRecord)
    (f : FibreRef) (v : Word) (d : BitVec 3) (tl : Tile) (e : Entry) (fl : CFlit),
    let ic := s.pkg.ic
    let result (t : State) (g : FibreRef) (w : Word) : Prop := t.pkg.ic.results = ic.results ++ [(g, w)]
    (ic.active = none → ic.queue = r :: rest →
      (r.fn = 4 → s.circuit r.part (field r.a 11 0) = some c → Completes .intercalatorRequest s fun t =>
        result t r.who (cqryWord c (s.slotsAhead c)) ∧ t.pkg.ic.queue = rest ∧ t.pkg.circuits = s.pkg.circuits ∧ SameMemory s t) ∧
      (1 ≤ r.fn → r.fn ≤ 3 → s.circuit r.part (field r.a 11 0) = none → Completes .intercalatorRequest s fun t =>
        result t r.who (circWord 7 0 (field r.a 11 0)) ∧ t.pkg.ic.queue = rest ∧ t.pkg.circuits = s.pkg.circuits ∧ SameMemory s t)) ∧
    (ic.active = some m → m.queue = [(a, rec)] → m.fn = 2 → m.remove = [] → Completes .configurationFlit s fun t =>
      t.pkg.ic.active = none ∧ SameMemory s t ∧ t.isDue (.configForward rec.x 15) = true ∧ t.isDue (.configForward rec.x 16) = true ∧
      (s.clock / 1024 * 1024 + 16384, .intercalation m.seq) ∈ t.agenda ∧
      t.pkg.ic.commits = ic.commits ++ [{ m with queue := [], sent := m.sent ++ [(s.wheel, rec.x, a, [rec])], wc := s.wheel + 16 }]) ∧
    (ic.active = none → ic.commits = [m] → s.dieOpen (tileDie (48 * y + x)) = true →
      (((s.tile (48 * y + x)).shadow.map fun st => st.recs.length).sum + recs.length ≤ 64) →
      m.sent = [(s.wheel - (15 - y), x, a, recs)] → 15 - y ≤ s.wheel → 1 ≤ y → y ≤ 15 →
      recs ≠ [] → (∀ q ∈ recs, q.y = y) → Completes (.configForward x y) s fun t =>
        (t.tile (48 * y + x)).shadow = (s.tile (48 * y + x)).shadow ++ [⟨m.seq, a, recs⟩] ∧ SameMemory s t ∧
        (s.clock + 1024, .configForward x (y - 1)) ∈ t.agenda) ∧
    (ic.commits = [m] → s.tiles = [(n, tl)] → tl.shadow = [⟨m.seq, 0, recs⟩] → (∀ q ∈ recs, 48 * q.y + q.x = n) →
      (∀ q ∈ recs, entryPtag q.entry = m.part ∧ entryCid q.entry = m.cid) → m.fn = 0 →
      m.count = 1 → m.remove = [] → s.circuit m.part m.cid = some c → c.state = 1 → c.hops ≠ [] → c.wc ≤ m.wc → Completes (.intercalation m.seq) s fun t =>
        t.circuit m.part m.cid = some { c with state := 2 } ∧ result t m.who (circWord 0 m.wc m.cid) ∧ t.pkg.ic.commits = [] ∧
        (t.tile n).shadow = [] ∧ SameMemory s t ∧
        ∀ q ∈ recs, ∀ z ∈ recordSlots q, z ≠ 0 → ∃ q' ∈ recs, tfind (t.tile n).slots (q.tbl, z) = some q'.entry) ∧
    (ic.commits = [m] → m.fn = 1 → (∀ z, s.circuit m.part m.cid = some z → m.about z = true) → Completes (.deferredClear m.seq) s fun t =>
      t.circuit m.part m.cid = none ∧ result t m.who (circWord 0 m.wc m.cid) ∧ t.pkg.ic.commits = [] ∧
      ((∀ x ∈ s.cores, x.2.strmWait = []) → SameMemory s t)) ∧
    (ic.results.find? (fun z => z.1 == f) = some (f, v) → (s.fib f).cont = .circ d → Completes (.circuitResult f) s fun t =>
      (t.fib f).g = lset (s.fib f).g d.toNat v ∧ (t.fib f).status = .ready ∧ (t.fib f).pc = (s.fib f).pc + 4 ∧ SameMemory s t) ∧
    (Completes .lostSlotsFree s fun t =>
      (∀ z ∈ t.pkg.circuits, z.state = 3 → z.hops = []) ∧ t.pkg.circuits.length = s.pkg.circuits.length ∧ SameMemory s t) ∧
    (s.circuit x y = some c → c.armed = some (s.wheel, n) → s.slotNo = 0 → Completes (.burstStart x y) s fun t =>
      t.circuit x y = some { c with armed := none, burst := some (s.clock, n) } ∧ SameMemory s t) ∧
    (s.tiles = [(n, tl)] → s.pkg.plinks = [] → s.entriesNow tl = [(b, e)] → b < 4 → entryLocal e = false → entrySrc e < 4 →
      (∀ ch, State.bridgeOut n b = some ch → s.ioCarries ch s.slotNo (entryPtag e) (entryCid e) = true) → s.pkg.wires = [(n, entrySrc e, s.clock, fl)] → s.linkOpen n (neighbour n b).1 = true → 0 < (neighbour n b).2.2 →
      Completes .circuitFlit s fun t => SameMemory s t ∧
        t.pkg.wires = [((neighbour n b).1, (neighbour n b).2.1, s.clock + (neighbour n b).2.2, fl)] ∧
        (t.die (tileDie n)).spentTok = (s.die (tileDie n)).spentTok + Config.activity 3)

/-- R58, R61, R62, R131, R299, R304, R316 to R320: package-link training and time messages, keys and their rollovers, the
opening of a die, the closing of a link, with the die's answers (their layout is log 16), an authentication failure, and a
far port's link. A time message's offset is in eighths of a slot. An Announce is sent with every so many Syncs, a number that
R61 leaves open (free, log 75). The secret that a package link's rollover takes is a free value (log 110), and the
vendor-defined messages take their effect when they are sent (log 114). What a peer's port shows in training comes with the
event (log 10). -/
def Obligations.LinkEvents : Prop :=
  ∀ (s : State) (l d epoch ws n w : Nat) (secret : BitVec 256) (o : Int),
    let p := s.plink l
    let x := s.link l
    let tr := (s.die d).trust
    let links (i : Instr) (P : PLink → Prop) : Prop := Completes i s fun t => P (t.plink l) ∧ SameMemory s t ∧ t.fibres = s.fibres
    let keys (i : Instr) (P : LinkKey → Prop) : Prop := Completes i s fun t => P (t.link l) ∧ SameMemory s t ∧ t.fibres = s.fibres
    let told (i : Instr) (op status : Nat) (P : LinkKey → Prop) : Prop := Completes i s fun t =>
      P (t.link l) ∧ (t.die d).spdm.last = vendorResponse op status ∧ SameMemory s t ∧ t.fibres = s.fibres
    (l < 12 → n ≤ 1019 → s.pkg.circuits = [] → links (.linkTraining l (some n)) fun q =>
      q.d = n + 4 ∧ q.trained = true ∧ q.lost = true ∧ q.failed = false ∧ q.good = 0 ∧ q.bad = 0) ∧
    (s.pkg.circuits = [] → links (.linkTraining l none) fun q => q.trained = false ∧ q.lost = true) ∧
    (p.trained = true →
      (48 < o.natAbs → p.bad = 0 → links (.syncMessage l o) fun q => q = { p with bad := 1, good := 0 }) ∧
      (48 < o.natAbs → 1 ≤ p.bad → s.pkg.circuits = [] → links (.syncMessage l o) fun q => q.lost = true ∧ q.bad = p.bad + 1) ∧
      (o.natAbs ≤ 32 → p.failed = false → 1 ≤ p.good → links (.syncMessage l o) fun q =>
        q.good = p.good + 1 ∧ q.bad = 0 ∧ q.lost = false ∧ q.locked = true) ∧
      links (.syncInterval l) (fun q => q = { p with
        syncs := p.syncs + 1, announces := p.announces + if (p.syncs + 1) % (Config.announceEvery + 1) = 0 then 1 else 0 }) ∧
      links (.pdelayReq l true) (fun q => q = { p with answered := p.answered + 1 }) ∧
      links (.pdelayReq l false) (fun q => q = { p with pdelays := p.pdelays + 1 }) ∧
      links (.pdelayResp l n) (fun q => q = { p with delay := n }) ∧
      links (.announce l) (fun q => q = { p with announced := p.announced + 1 })) ∧
    (Completes (.farPortLink d true w n) s fun t =>
      tget {} t.pkg.ports d = { present := true, up := true, width := w, mib := min n 524288 } ∧ SameMemory s t) ∧
    ((s.die d).spdm.session = true → epoch < 2 ^ 32 → ws < 2 ^ 64 →
      ((linksOf d).contains l = true →
        (s.wheel + 4 ≤ ws → told (.setLinkKey d l epoch ws secret) 1 0 fun y => y = { x with staged := some (epoch, ws, secret) }) ∧
        (ws < s.wheel + 4 → told (.setLinkKey d l epoch ws secret) 1 3 fun y => y = x) ∧
        (ws < s.wheel + 4 → Completes (.setLinkKey d l epoch ws secret) s fun t =>
          (t.die d).trust.sent = State.vendorRequest 1 (leBytes 1 l ++ leBytes 4 epoch ++ leBytes 8 (s.wheel + 4) ++ leBytes 32 secret.toNat) ∧
          (s.clock, .setLinkKey d l epoch (s.wheel + 4) secret) ∈ t.agenda) ∧
        (x.closed = none → told (.closeLink d l) 3 0 fun y => y.closed = some ((s.wheel + 1) * 1024) ∧ y.secret = none)) ∧
      ((linksOf d).contains l = false → exec (.setLinkKey d l epoch ws secret) s = .next (s.vendorAnswer d 1 2) ∧
        exec (.closeLink d l) s = .next (s.vendorAnswer d 3 2))) ∧
    ((s.die d).spdm.session = false →
      let refused := (s.modDie d fun y => { y with spdm := { y.spdm with last := [0x12, 0x7F, 4, 0] } }).sendAtt d false 4 []
      exec (.setLinkKey d l epoch ws secret) s = .next refused ∧ exec (.linkOpen d ws) s = .next refused ∧
      exec (.closeLink d l) s = .next refused) ∧
    ((s.die d).spdm.session = true → s.wheel + 4 ≤ ws → ws < 2 ^ 64 → Completes (.linkOpen d ws) s fun t =>
      (t.die d).trust.wo = ws ∧ t.isDue (.dieOpen d) = true ∧ SameMemory s t) ∧
    (d < 6 → tr.state = 3 → tr.wo * 1024 = s.clock → Completes (.dieOpen d) s fun t =>
      (t.die d).trust.state = 4 ∧ (t.die d).trust.fails = 0 ∧ (t.die d).trust.sess = (tr.sess + 1) % 256 ∧
      (t.die d).trust.wheel = s.wheel) ∧
    (x.staged = some (epoch, ws, secret) → ws * 1024 = s.clock → s.linkKeyed l = true → x.again = false → keys (.keySwitch l) fun y =>
      y.secret = some secret ∧ y.oldSecret = x.secret ∧ y.epoch = epoch ∧ y.ws = ws ∧ y.staged = none ∧ y.closed = none) ∧
    (x.staged = some (epoch, ws, secret) → ws * 1024 = s.clock → s.linkKeyed l = false → keys (.keySwitch l) fun y =>
      y.secret = x.secret ∧ y.staged = none) ∧
    (l < 112 → (x.ws + 1) * 1024 ≤ s.clock → keys (.keyErase l) fun y => y = { x with oldSecret := none }) ∧
    (112 ≤ l → l < 124 → s.linkKeyed l = true → x.staged = none → x.secret.isSome = true → s.clock = (x.ws + 2 ^ 21 - 4) * 1024 →
      keys (.autoRollover l) fun y => ∃ k, y.staged = some (x.epoch + 1, x.ws + 2 ^ 21, k)) ∧
    (d < 6 → (linksOf d).contains l = true → s.linkKeyed l = true → x.staged.isSome = true → keys (.roll d) fun y => y = { x with again := true }) ∧
    (112 ≤ l → l < 124 → s.linkCarries l = true → s.pkg.circuits = [] → Completes (.authenticationFailure l w) s fun t =>
      (t.plink (l - 112)).lost = true ∧ (t.plink (l - 112)).failed = true ∧ SameMemory s t)

/-! ## Events: tasks, the host's registers, device registers, gateways -/

/-- R94 to R104, R106, R108, R110, R111, R113: a record at its task unit is accepted or answered with its status, the host's
at once, a fibre's by an answer on its way back, which ends the fibre's wait; a record waits for the ends of its cycle (the
order of one cycle is log 4). A task is placed, ages, is dispatched and completes. What the check takes an entry or an
argument to be outside of, and the statuses RECORD and ARG, are logs 49 and 76; ORD is each die's own (log 48); the placement
takes the first origin among equals (log 77), and its cores start 48 cycles later (log 47). -/
def Obligations.TaskEvents : Prop :=
  ∀ (s : State) (id die ix e n : Nat) (b : Submission) (task : Task) (dd : Die) (o : Nat × Nat) (tiles : List Nat) (c : CoreId)
    (w : Word) (d : BitVec 3) (f : FibreRef),
    let t0 := tget {} (s.die die).tasks ix
    let at' (t : State) : Task := tget {} (t.die die).tasks ix
    (tfind s.subs id = none → exec (.taskRecord id) s = .next s) ∧
    (tfind s.subs id = some b → b.answer = none →
      (s.endsDue = true → exec (.taskRecord id) s = .next (s.now (.taskRecord id))) ∧
      (s.endsDue = false → s.recordCheck b = .error e →
        (b.who = none → Completes (.taskRecord id) s fun t =>
          (t.vf b.part).busy = false ∧ (t.vf b.part).code = e ∧ tfind t.subs id = none ∧ t.dies = s.dies ∧ SameMemory s t) ∧
        (b.who = some f → Completes (.taskRecord id) s fun t =>
          tfind t.subs id = some { b with answer := some (word (2 ^ 63 + e * 2 ^ 48)) } ∧ SameMemory s t)) ∧
      (s.endsDue = false → s.recordCheck b = .ok task → State.takeEntry (s.die b.die) = some (ix, dd) →
        (b.who = none → Completes (.taskRecord id) s fun t =>
          (t.vf b.part).busy = false ∧ (t.vf b.part).code = 0 ∧ (t.vf b.part).lastAcc = task.seq ∧ tfind t.subs id = none ∧
          tget {} (t.die b.die).tasks ix = task ∧ (t.die b.die).freed = dd.freed ∧ (t.die b.die).nextFresh = dd.nextFresh ∧
          t.isDue (.taskPlace b.die) = true ∧ SameMemory s t) ∧
        (b.who = some f → Completes (.taskRecord id) s fun t =>
          tfind t.subs id = some { b with answer := some (State.taskqWord b.die ix task.ord) } ∧
          tget {} (t.die b.die).tasks ix = task ∧ t.isDue (.taskPlace b.die) = true ∧ SameMemory s t))) ∧
    (tfind s.subs id = some b → b.who = some f → b.answer = some w → (s.fib f).cont = .taskq d → Completes (.taskRecord id) s fun t =>
      (t.fib f).g = lset (s.fib f).g d.toNat w ∧ (t.fib f).status = .ready ∧ (t.fib f).pc = (s.fib f).pc + 4 ∧ tfind t.subs id = none ∧
      SameMemory s t) ∧
    (s.nextPlace die = some (ix, task, o, tiles) → Completes (.taskPlace die) s fun t =>
      (at' t).state = .running ∧ (at' t).tiles = tiles ∧ (at' t).origin = o ∧
      (∀ k ∈ State.coresOf tiles task.kinds, k ∈ (at' t).going ∨ k ∈ (at' t).pendCores) ∧
      (s.clock + 48, .taskDispatch die ix) ∈ t.agenda ∧ t.fibres = s.fibres ∧ SameMemory s t) ∧
    (s.nextPlace die = none → exec (.taskPlace die) s = .next s) ∧
    (Completes (.priorityAging die) s fun t =>
      (t.die die).tasks = (s.die die).tasks.map (fun x => if x.2.state = .queued ∧ s.stopped x.2.part = false
        then (x.1, { x.2 with waited := x.2.waited + 1 }) else x) ∧ t.isDue (.taskPlace die) = true ∧ t.fibres = s.fibres ∧
      SameMemory s t) ∧
    (t0.going = [c] → s.freeSlot c 0 224 = some n → Completes (.taskDispatch die ix) s fun t =>
      let x := t.fib ⟨c, n⟩
      x.status = .ready ∧ x.pc = t0.entry ∧ x.code = t0.code ∧ x.k = [t0.arg, .null, .null, .null] ∧ x.pl = 0 ∧ x.inTask = true ∧
      x.tdie = die ∧ x.taskix = ix ∧ lget 0 x.g 1 = word t0.n ∧ (at' t).fibres = t0.fibres + 1 ∧ (at' t).going = [] ∧ SameMemory s t) ∧
    (t0.state = .running → t0.fibres = 0 → t0.pendCores = [] → t0.going = [] → Completes (.taskCompletion die ix) s fun t =>
      (at' t).state = .waitPost ∧ (at' t).endWheel = s.wheel ∧ (t.vf t0.part).held = (s.vf t0.part).held ++ [(die, ix)] ∧
      (at' t).status = (if t0.dieReset then 2 else if t0.faulted then 1 else if t0.killed then 4 else 0) ∧
      t.isDue (.completionPost t0.part) = true ∧ t.fibres = s.fibres ∧ SameMemory s t) ∧
    (t0.state ≠ .running ∨ t0.fibres ≠ 0 → exec (.taskCompletion die ix) s = .next s)

/-- R107, R109 to R111, R115 to R117, R127, R479: the oldest completed task of a partition is posted, bytes 4 to 31 of its
entry first, then bytes 0 to 3, and frees its entry; a page that cannot be written disables the queue. Nothing is posted
while the queue is disabled or full, or (the model's choice, log 79) the partition stopped; each write waits for a unit of
the host link (R164). A deferred MSI-X message is sent in the wheel for which it is due, and no second one in that wheel. A
query is answered with the task's status, with GONE or with PENDING, or waits at its task unit. A kill ends a queued task and
marks a running one. -/
def Obligations.CompletionEvents : Prop :=
  ∀ (s : State) (id die ix p pa vec n : Nat) (task : Task) (w : Word) (d : BitVec 3) (q : Query) (rest : List (Nat × Nat)),
    let t0 := tget {} (s.die die).tasks ix
    let v := s.vf p
    let at' (t : State) : Task := tget {} (t.die die).tasks ix
    let told (n : Nat) : Prop := Completes (.twaitQuery id) s fun t =>
      tfind t.queries id = some { q with here := false, answer := some (word n) } ∧ t.dies = s.dies ∧ SameMemory s t
    (v.held = [] ∨ v.cqen = false ∨ s.stopped p = true → exec (.completionPost p) s = .next s) ∧
    (v.held = (die, ix) :: rest → v.cqen = true → s.stopped p = false →
      (v.posting = none → State.cqFull v = true → exec (.completionPost p) s = .next s) ∧
      (v.posting.isSome = true ∨ State.cqFull v = false →
        (v.postUnit = none → Completes (.completionPost p) s fun t =>
          t.vf p = { v with postUnit := some (s.nextId, false) } ∧ (t.die 6).gw.queue = (s.die 6).gw.queue ++ [(s.nextId, 8)] ∧
          t.fibres = s.fibres ∧ SameMemory s t) ∧
        (v.postUnit = some (n, false) → exec (.completionPost p) s = .next s)) ∧
      (v.postUnit = some (n, true) → v.posting = none → State.cqFull v = false → s.hostPa p (v.cqbase.toNat + 32 * v.cqtail) = none →
        Completes (.completionPost p) s fun t =>
          t.vf p = { v with cqen := false, cqcode := 5, postUnit := none } ∧ t.fibres = s.fibres ∧ SameMemory s t) ∧
      (v.postUnit = some (n, true) → v.posting = none → State.cqFull v = false → s.hostPa p (v.cqbase.toNat + 32 * v.cqtail) = some pa → s.errors = [] →
        Memory.wf s.mem = true → Completes (.completionPost p) s fun t =>
          Wrote s t (pa + 4) ((State.completionEntry v die ix t0).drop 4) ∧ t.vf p = { v with posting := some pa, postUnit := none } ∧
          t.isDue (.completionPost p) = true ∧ t.fibres = s.fibres) ∧
      (v.postUnit = some (n, true) → v.posting = some pa → Memory.wf s.mem = true → Completes (.completionPost p) s fun t =>
        Wrote s t pa (leBytes 4 v.cseq) ∧ (t.vf p).posting = none ∧ (t.vf p).postUnit = none ∧ (t.vf p).cqtail = (v.cqtail + 1) % max v.cqsize.toNat 1 ∧
        (t.vf p).cqseq = v.cseq ∧ (t.vf p).cseq = (v.cseq + 1) % 2 ^ 32 ∧ (t.vf p).held = rest ∧ (at' t).state = .done ∧
        (t.die die).freed = (s.die die).freed ++ [ix] ∧
        (tfind s.queries id = some q → q.here = true → q.die = die → q.ix = ix →
          tfind t.queries id = some { q with here := false, answer := some (word t0.status) }))) ∧
    (v.msiDefer.contains vec = false ∨ tget 0 v.msiWheel vec = s.wheel + 1 → exec (.msixDeferred p vec) s = .next s) ∧
    (v.msiDefer.contains vec = true → tget 0 v.msiWheel vec ≠ s.wheel + 1 → Completes (.msixDeferred p vec) s fun t =>
      tget 0 (t.vf p).msiWheel vec = s.wheel + 1 ∧
      tget 0 (t.vf p).msiSent vec = tget 0 v.msiSent vec + 1 ∧ (t.vf p).msiDefer.contains vec = false ∧ t.fibres = s.fibres ∧
      SameMemory s t) ∧
    (tfind s.queries id = none → exec (.twaitQuery id) s = .next s) ∧
    (tfind s.queries id = some q → q.answer = none →
      (tfind (s.die q.die).tasks q.ix = none → told (2 ^ 16)) ∧
      (tfind (s.die q.die).tasks q.ix = some task →
        (task.ord ≠ q.ord ∨ (task.part ≠ q.part ∧ q.part < 48) → told (2 ^ 16)) ∧
        (task.ord = q.ord → task.part = q.part ∨ 48 ≤ q.part →
          (task.state = .done ∨ (task.state = .waitPost ∧ (q.poll = true ∨ s.dieOpen q.die = true)) → told task.status) ∧
          (task.state = .queued ∨ task.state = .running → q.poll = true → told (2 * 2 ^ 16)) ∧
          (q.poll = false → (task.state = .queued ∨ task.state = .running ∨ (task.state = .waitPost ∧ s.dieOpen q.die = false)) →
            Completes (.twaitQuery id) s fun t =>
              tfind t.queries id = some { q with here := true } ∧ t.fibres = s.fibres ∧ SameMemory s t)))) ∧
    (tfind s.queries id = some q → q.answer = some w → (s.fib q.who).cont = .task d id → Completes (.twaitQuery id) s fun t =>
      (t.fib q.who).g = lset (s.fib q.who).g d.toNat w ∧ (t.fib q.who).status = .ready ∧ (t.fib q.who).pc = (s.fib q.who).pc + 4 ∧
      tfind t.queries id = none ∧ SameMemory s t) ∧
    (tfind (s.die die).tasks (field w 43 32) = some task → field w 63 44 = 0 → (s.part p).active = true → task.part = p →
      task.ord = field w 31 0 →
      let u (t : State) := tget {} (t.die die).tasks (field w 43 32)
      (task.state = .queued → Completes (.tkill die p w) s fun t => (u t).state = .waitPost ∧ (u t).status = 4 ∧ SameMemory s t) ∧
      (task.state = .running → Completes (.tkill die p w) s fun t => (u t).killed = true ∧ (u t).going = [] ∧ (u t).pendCores = [] ∧
        SameMemory s t)) ∧
    (tfind (s.die die).tasks (field w 43 32) = none ∨ field w 63 44 ≠ 0 ∨ (s.part p).active = false →
      exec (.tkill die p w) s = .next s)

/-- R113 to R116, R119, R120: the host's writes of a virtual function's registers: the task port, the completion queue's
registers with their rejections, and the mailbox in both directions. That an entry of which only the first write is done is
posted again from its start is the model's choice (log 51). -/
def Obligations.HostPortEvents : Prop :=
  ∀ (s : State) (p : Nat) (w : Word) (d : Nat),
    let v := s.vf p
    let x := s.part p
    let size := w.toNat
    let power (n : Nat) : Prop := ∃ k, 4 ≤ k ∧ k ≤ 16 ∧ n = 2 ^ k
    let inside (a n : Nat) : Prop := x.winBase ≤ a ∧ a + n ≤ x.winBase + x.winLen
    let to' (i : Instr) (u : Vf) : Prop := Completes i s fun t => t.vf p = u ∧ SameMemory s t ∧ t.fibres = s.fibres
    let rejected (i : Instr) (code : Nat) : Prop := to' i { v with cqen := false, cqcode := code, posting := none, postUnit := none }
    (v.busy = false → Completes (.hostSubmit p w) s fun t =>
      (t.vf p).busy = true ∧ t.agenda = s.agenda ++ [(s.clock + 40, .taskRecord s.nextId)] ∧ SameMemory s t ∧
      ∃ b, t.subs = s.subs ++ [(s.nextId, b)] ∧ b.part = p ∧ b.who = none ∧ b.answer = none ∧
        b.body = ((List.range 15).flatMap fun i => leBytes 8 (tget 0 v.tsub i).toNat) ++ leBytes 8 w.toNat) ∧
    (v.busy = true → to' (.hostSubmit p w) { v with lost := true }) ∧
    (v.cqen = false →
      (w.toNat % 4096 = 0 → inside w.toNat 1 → to' (.cqbaseWrite p w) { v with cqbase := w }) ∧
      (w.toNat % 4096 ≠ 0 ∨ ¬ inside w.toNat 1 → rejected (.cqbaseWrite p w) 1) ∧
      (power size → to' (.cqsizeWrite p w) { v with cqsize := w }) ∧
      (¬ power size → rejected (.cqsizeWrite p w) 2) ∧
      (power v.cqsize.toNat → v.cqbase.toNat % 4096 = 0 → inside v.cqbase.toNat (32 * v.cqsize.toNat) → v.cqhead.toNat < v.cqsize.toNat →
        to' (.cqEnable p) { v with cqen := true, cqcode := 0, cqtail := v.cqhead.toNat }) ∧
      (power v.cqsize.toNat → v.cqbase.toNat % 4096 = 0 → inside v.cqbase.toNat (32 * v.cqsize.toNat) → v.cqsize.toNat ≤ v.cqhead.toNat →
        rejected (.cqEnable p) 3)) ∧
    (v.cqen = true → rejected (.cqbaseWrite p w) 4 ∧ rejected (.cqsizeWrite p w) 4 ∧ exec (.cqEnable p) s = .next s) ∧
    (w.toNat < v.cqsize.toNat → to' (.cqheadWrite p w) { v with cqhead := w }) ∧
    (v.cqsize.toNat ≤ w.toNat → rejected (.cqheadWrite p w) 3) ∧
    to' (.cqDisable p) { v with cqen := false, posting := none, postUnit := none } ∧
    (v.txbusy = false → to' (.mbtxgo p w) { v with txbusy := true, mbgo := w }) ∧
    (v.txbusy = true → to' (.mbtxgo p w) { v with txlost := true }) ∧
    (v.txbusy = true → (v.mbitail + 1) % 16 ≠ v.mbihead → Completes (.mailboxEntry p) s fun t =>
      (t.vf p).txbusy = false ∧ (t.vf p).mbitail = (v.mbitail + 1) % 16 ∧
      tfind (t.vf p).mbin v.mbitail = some ((List.range 7).map (fun i => tget 0 v.mbtx i) ++ [v.mbgo]) ∧ SameMemory s t) ∧
    (v.txbusy = true → (v.mbitail + 1) % 16 = v.mbihead → to' (.mailboxEntry p) { v with txbusy := false, txfull := true }) ∧
    to' (.mbrxack p) { v with mbrx := v.mbrx.drop 1 } ∧
    (x.active = true →
      to' (.mbihead p w) { v with mbihead := w.toNat % 16 } ∧
      (v.mbrx.length < 16 → Completes (.mbogo p w) s fun t =>
        (t.vf p).mbrx = v.mbrx ++ [(List.range 7).map (fun i => tget 0 v.mbow i) ++ [w]] ∧ SameMemory s t ∧ t.fibres = s.fibres) ∧
      (16 ≤ v.mbrx.length → to' (.mbogo p w) { v with mbofull := true })) ∧
    (x.active = false → exec (.mbihead p w) s = .next s ∧ exec (.mbogo p w) s = .next s ∧ exec (.rephead d p w) s = .next s ∧
      exec (.replost d p) s = .next s)

/-- R65, R128, R129, R131, R265, R346, R348: writes of device registers: the report ring's head, TROOT, a metered window's
base, the power limit, the management core's start, the seizing of event banks, and the claims on a trace unit. The numbers
by which the event names a register's block are the model's (log 20). In recovery only the root core runs, and the physical
function takes STCMD alone (R357). -/
def Obligations.RegisterEvents : Prop :=
  ∀ (s : State) (d p c off : Nat) (w : Word),
    let x := s.cluster (d * 16 + c)
    let same (i : Instr) (P : State → Prop) : Prop := Completes i s fun t => P t ∧ SameMemory s t
    let ring (t : State) := tget ({} : Ring) (t.die d).rings p
    ((s.part p).active = true →
      (w.toNat < 64 → same (.rephead d p w) fun t => ring t = { ring s with head := w.toNat } ∧ t.fibres = s.fibres) ∧
      (64 ≤ w.toNat → exec (.rephead d p w) s = .next s) ∧
      same (.replost d p) (fun t => ring t = { ring s with lost := 0 } ∧ t.fibres = s.fibres)) ∧
    (field w 62 56 = 0 → field w 11 0 = 0 → field w 55 53 < 6 →
      (off % 16 = 0 → same (.trootWrite d off w) fun t => tget 0 (t.die d).gw.roots (off / 16) = w ∧ t.fibres = s.fibres) ∧
      (off % 16 ≠ 0 → d = 6 → same (.trootWrite d off w) fun t => tget 0 (t.die d).gw.rootsB (off / 16) = w ∧ t.fibres = s.fibres)) ∧
    (6 ≤ field w 55 53 ∨ field w 11 0 ≠ 0 → exec (.trootWrite d off w) s = .next s) ∧
    (0x4000 ≤ off → off < 0x5000 → field w 63 52 = 0 → same (.mwbaseWrite d off w) fun t =>
      ∃ m, tget (0, 0) (t.die d).mwinDie ((off - 0x4000) / 16) = (m, (tget (0, 0) (s.die d).mwinDie ((off - 0x4000) / 16)).2) ∧
        field m 44 12 = field w 44 12 ∧ field m 63 52 = 0) ∧
    (1000 ≤ field w 15 0 → field w 15 0 ≤ 3000 → same (.pwrlimWrite w) fun t => t.pkg.pwrlim = field w 15 0 ∧ t.fibres = s.fibres) ∧
    (field w 15 0 < 1000 ∨ 3000 < field w 15 0 → exec (.pwrlimWrite w) s = .next s) ∧
    (w.toNat.testBit 0 = true → s.pkg.mgrun = false → s.pkg.start.phase ≠ 3 → same (.mgrun w) fun t =>
      let f := t.fib ⟨.mgmt, 0⟩
      t.pkg.mgrun = true ∧ f.status = .ready ∧ f.pc = word s.pkg.mgcode.cursor &&& ~~~3#64 ∧ f.code = s.pkg.mgcode ∧ f.pl = 2 ∧
      f.k.map (·.space) = [8, 4, 5, 6]) ∧
    (s.pkg.mgrun = true ∨ s.pkg.start.phase = 3 → exec (.mgrun w) s = .next s) ∧
    (same (.seizeWrite d c w) fun t => (t.tile (tileNo d c)).seizeNext = some (w.toNat % 16) ∧
      (t.tile (tileNo d c)).seize = (s.tile (tileNo d c)).seize ∧ t.fibres = s.fibres) ∧
    ((s.part p).active = true → w.toNat.testBit 0 = true → w.toNat.testBit 61 = false → x.trOwner = 0 →
      tfind (s.die d).granules (field w 46 40) = some p → same (.trclaimWrite d c p false w) fun t =>
        (t.cluster (d * 16 + c)).trOwner = 1 ∧ (t.cluster (d * 16 + c)).trPart = p ∧ (t.cluster (d * 16 + c)).trPos = 0) ∧
    (w.toNat.testBit 0 = true → x.trOwner = 0 → same (.trclaimWrite d c p true w) fun t => (t.cluster (d * 16 + c)).trOwner = 2) ∧
    (x.trTake = some w → x.trOwner = 1 → same (.traceTakeover d c) fun t =>
      (t.cluster (d * 16 + c)).trOwner = 2 ∧ (t.cluster (d * 16 + c)).trTake = none ∧
      tget false (t.cluster (d * 16 + c)).trLost x.trPart = true) ∧
    (d ≠ 7 → same (.registerWrite d 1 0x1000 p w) fun t => (t.die d).gw.invva = word (field w 55 0)) ∧
    (s.pkg.start.phase ≠ 3 → exec (.registerWrite 7 0 0x3008 p w) s = .next (s.modPkg fun k => { k with dbg := { k.dbg with arg := w } })) ∧
    (s.pkg.start.phase = 3 → off ≠ 0x1008 → exec (.registerWrite 7 0 off p w) s = .next s) ∧
    (off < 0x78 → same (.registerWrite 7 1 off p w) fun t => t.vf p = { s.vf p with tsub := tset (s.vf p).tsub (off / 8) w })

/-- R128, R154 to R158, R162, R163: the reads of a page walk ask for their service units; with them the walk ends, and the
access that waited for it is queued at the physical address of the page, or faults; a slot's service performs the access at
the head; where the tables lie on another die that is not OPEN, what waits for the walk is lost (R13, R280); the wheel's
counts begin anew; an invalidation removes the translations of its range and lowers DONE until nothing uses one, and
meanwhile others are held. A command with SZ from 10 to 15 has no effect (the model's choice, log 116). -/
def Obligations.GatewayEvents : Prop :=
  ∀ (s : State) (gw id i z va pa port n : Nat) (a : Access) (w : Walk) (x : Xlat) (d : BitVec 3) (v : Word) (h : Home) (e : Instr)
    (l : List Word),
    let g := (s.die gw).gw
    let gwOf (t : State) := (t.die gw).gw
    let sp := field v 55 52
    let sz := field v 51 48
    let b := pageBytes sz
    let p := field v 61 56
    let home := field w.root 55 53
    let at52 := word (if a.space = 4 then a.va % 2 ^ 53 else a.va % 2 ^ 56)
    let holds (y : Nat) : Prop := s.xlatHeld gw a.space y x = true
    let removed (lo n : Nat) : List Xlat :=
      g.cache.filter fun y => !(y.part == p && y.space == sp && State.meets lo n y.va (pageBytes y.sz))
    let begun (i : Instr) (lo n : Nat) : Prop := Completes i s fun t =>
      gwOf t = { g with
        done := false, invWait := s.usersOf gw p sp lo n, invDisp := s.dispUsers gw p sp lo n, cache := removed lo n } ∧
      t.agenda = s.agenda ++ [(s.clock + 1, .invalidationDone gw)] ∧ SameMemory s t
    (g.walks = [w] → w.id = id → s.stopped w.part = false → s.tablesOpen gw w.root = false → w.waiters = [i] → s.access i = some a →
      a.op = .load d z → Completes (.pageWalk gw id) s fun t => (gwOf t).walks = [] ∧ t.access i = none ∧ SameMemory s t) ∧
    (g.walks = [w] → w.id = id → w.running = true → s.stopped w.part = false → s.tablesOpen gw w.root = true →
      (w.owed = none → w.root.toNat.testBit 63 = true → n = s.walkReads (w.va * 4096) home 4 (field w.root 52 12 * 4096) → n ≠ 0 →
        Completes (.pageWalk gw id) s fun t => (gwOf t).walks = [{ w with owed := some n }] ∧
          (t.die home).gw.queue = (s.die home).gw.queue ++ [(id, 0)] ∧ SameMemory s t) ∧
      (w.owed = some n → n ≠ 0 → exec (.pageWalk gw id) s = .next s) ∧
      (w.owed = some 0 ∨ (w.owed = none ∧ w.root.toNat.testBit 63 = false) → w.waiters = [i] → s.access i = some a → a.op = .load d z →
        4 ≤ a.space → a.space ≤ 6 → a.stage = .walking → a.atRoot = true → isService a.who.core = false →
        s.home a.who.core a.space a.va = some (.gateway gw va) →
        (s.walkUnder w.root gw w.part w.space (w.va * 4096) = some x → x.part = a.part → x.space = a.space → x.va ≤ va →
          va < x.va + pageBytes x.sz → holds va → holds (va + a.size - 1) → x.pr = true → Completes (.pageWalk gw id) s fun t =>
            (gwOf t).walks = [] ∧ x ∈ (gwOf t).cache ∧ (gwOf t).queue = g.queue ++ [(i, servicePort (State.xlatPa gw a.space x va))] ∧
            t.access i = some { a with pa := some (State.xlatPa gw a.space x va), stage := .queued, router := false } ∧ SameMemory s t) ∧
        (s.walkUnder w.root gw w.part w.space (w.va * 4096) = none → Completes (.pageWalk gw id) s fun t =>
          (gwOf t).walks = [] ∧ t.access i = some { a with fault := some (9, at52), stage := .performed } ∧ SameMemory s t))) ∧
    (gw < 6 → g.saves = [] → g.queue = [(i, port)] → tget 0 g.paid i = 0 → s.access i = some a → a.part < 48 → s.stopped a.part = false → a.op = .load d z →
      a.pieces = [] → 4 ≤ a.space → a.space ≤ 6 → a.pa = some pa → s.home a.who.core a.space a.va = some h → s.windowLate a pa = false →
      s.readError pa a.size = none → serviceUnits a ≤ 48 → Completes (.gatewaySlot gw) s fun t =>
        (gwOf t).queue = [] ∧ SameMemory s t ∧
        t.access i = some { a with
          wait := a.wait + (s.clock - a.due), pa := some pa, reply := s.readBytes pa a.size, replyTag := false, stage := .performed }) ∧
    (Completes (.gatewayWheelReset gw) s fun t => gwOf t = { g with spent := [] } ∧ t.fibres = s.fibres ∧ SameMemory s t) ∧
    (4 ≤ sp → sp ≤ 6 → g.done = true →
      (sz ≤ 9 → begun (.invalidatePage gw v) (g.invva.toNat / b * b) b) ∧ begun (.invalidateAll gw v) 0 (2 ^ 56)) ∧
    (g.done = true → sp < 4 ∨ 6 < sp → exec (.invalidatePage gw v) s = .next s ∧ exec (.invalidateAll gw v) s = .next s) ∧
    (g.done = true → 9 < sz → exec (.invalidatePage gw v) s = .next s) ∧
    (g.done = false →
      (Completes (.invalidatePage gw v) s fun t => gwOf t = { g with invHeld := g.invHeld ++ [v] } ∧ SameMemory s t) ∧
      (Completes (.invalidateAll gw v) s fun t => gwOf t = { g with invHeld := g.invHeld ++ [v] } ∧ SameMemory s t) ∧
      (g.invWait = [] → g.invDisp.filter s.dispBusy = [] →
        (State.heldInv gw g.invHeld = none → Completes (.invalidationDone gw) s fun t =>
          gwOf t = { g with done := true, invHeld := [], invDisp := [] } ∧ t.agenda = s.agenda ∧ t.fibres = s.fibres ∧ SameMemory s t) ∧
        (State.heldInv gw g.invHeld = some (e, l) → Completes (.invalidationDone gw) s fun t =>
          gwOf t = { g with done := true, invHeld := l, invDisp := [] } ∧ t.agenda = s.agenda ++ [(s.clock, e)] ∧ SameMemory s t)) ∧
      (g.invWait ≠ [] ∨ g.invDisp.filter s.dispBusy ≠ [] → Completes (.invalidationDone gw) s fun t =>
        gwOf t = { g with invDisp := g.invDisp.filter s.dispBusy } ∧ t.agenda = s.agenda ∧ t.fibres = s.fibres ∧ SameMemory s t)) ∧
    (g.done = true → exec (.invalidationDone gw) s = .next s)

/-! ## Events: stops, resets and reconfiguration -/

/-- R67, R270 to R279: STOP and RESUME commands with their codes; at the stop every fibre of the partition is STOPPED and
what was due is held; from slot 32 of W on its contexts are written with the units that the gateways give them (R162), each
with its fibres' FST words (R66; their place is the model's, log 98, the other bytes are free, log 9); once they are saved it
is SAVED; a lost one loses its tasks, circuits and tile stores; a restore fixes its wheel; at the resume the staged block
writes are applied, its fibres go on and what was held is due Δ later. That a late STOP without an area sets LATE, and that
one for no partition is ignored, is log 94. -/
def Obligations.SwitchEvents : Prop :=
  ∀ (s : State) (v : Word) (p d id n pa : Nat) (a : Access) (bs : List Byte) (x : Save) (l : List Save) (c : Nat × Nat × Nat),
    let q := field v 61 56
    let w := field v 47 0
    let of' (f : FibreRef) : Prop := (s.fib f).status ≠ .free ∧ s.partOf f.core = p ∧ p < 48
    let code (i : Instr) (n : Nat) : Prop := Completes i s fun t =>
      (t.part q).gsCode = n ∧ (t.part q).gs = (s.part q).gs ∧ t.fibres = s.fibres ∧ t.agenda = s.agenda ∧ SameMemory s t
    (q < 48 → field v 55 48 = 0 →
      ((s.part q).gs ≠ 0 → code (.gangStop v) 2) ∧
      ((s.part q).gs = 0 → w < s.wheel + 4 → code (.gangStop v) 1) ∧
      ((s.part q).gs = 0 → s.wheel + 4 ≤ w → (∃ d ∈ s.diesOf q, (tget 0 (s.die d).ctxbase q).toNat.testBit 63 = false) → code (.gangStop v) 3) ∧
      ((s.part q).gs = 0 → s.wheel + 4 ≤ w → (∀ d ∈ s.diesOf q, (tget 0 (s.die d).ctxbase q).toNat.testBit 63 = true) →
        Completes (.gangStop v) s fun t =>
          (t.part q).gs = 1 ∧ (t.part q).gsCode = 0 ∧ (t.part q).stopW = w ∧ t.agenda = (w * 1024, .stopSequence q) :: s.agenda ∧
          t.fibres = s.fibres ∧ SameMemory s t) ∧
      ((s.part q).gs ≠ 3 → code (.gangResume v) 2) ∧
      ((s.part q).gs = 3 → w < s.wheel + 4 → code (.gangResume v) 1) ∧
      ((s.part q).gs = 3 → s.wheel + 4 ≤ w → Completes (.gangResume v) s fun t =>
        (t.part q).gs = 4 ∧ (t.part q).gsCode = 0 ∧ (t.part q).resumeW = w ∧ t.isDue (.restoreComplete q) = true ∧ t.fibres = s.fibres ∧
        SameMemory s t)) ∧
    (48 ≤ q → exec (.gangStop v) s = .next s ∧ exec (.gangResume v) s = .next s) ∧
    ((s.part p).gs = 1 → Completes (.stopSequence p) s fun t =>
      (t.part p).gs = 2 ∧ (∀ f, of' f → (t.fib f).stopped = true) ∧ SameMemory s t ∧
      (s.clock + 16, .stopSequence p) ∈ t.agenda) ∧
    ((s.part p).gs = 2 → s.clock < (s.part p).stopW * 1024 + 32 → Completes (.stopSequence p) s fun t =>
      (∀ node b r, ∀ fl ∈ (t.rbufOf node b r).flits, fl.part ≠ p) ∧ (s.clock + 16, .stopSequence p) ∈ t.agenda ∧ t.fibres = s.fibres ∧
      SameMemory s t) ∧
    ((s.part p).gs = 2 → (s.part p).stopW * 1024 + 32 ≤ s.clock → s.diesOf p = [d] → Completes (.stopSequence p) s fun t =>
      (t.die d).gw.saves = (s.die d).gw.saves ++ [{ part := p, units := s.saveUnits p d }] ∧ t.isDue (.saveComplete p) = true ∧
      t.fibres = s.fibres ∧ SameMemory s t) ∧
    ((s.part p).gs = 2 → s.isDue (.partitionLost p) = false → s.savesLeft p = false → Completes (.saveComplete p) s fun t =>
      (t.part p).gs = 3 ∧ (t.part p).gsCode = 0 ∧ (t.part p).spilled = (s.part p).spilled ∧ t.fibres = s.fibres ∧ SameMemory s t) ∧
    ((s.part p).gs = 2 → s.isDue (.partitionLost p) = false → s.diesOf p = [d] → (s.die d).gw.saves = x :: l → x.part = p → x.units = [c] →
      let va := s.partVa p d c + x.off
      (x.paid < s.pageUnits p d va → Completes (.saveComplete p) s fun t => (t.part p).gs = 2 ∧ (t.die d).gw.saves = x :: l ∧ SameMemory s t) ∧
      (s.pageUnits p d va ≤ x.paid → s.areaPa p d va = some pa → s.errors = [] → Memory.wf s.mem = true → c.2.2 ≤ x.off + 4096 →
        Completes (.saveComplete p) s fun t =>
          (t.die d).gw.saves = l ∧ (t.part p).spilled = (s.part p).spilled ∧ t.fibres = s.fibres ∧
          ∃ bs, bs.length = 4096 ∧ Wrote s t pa bs ∧ ∀ i o, i < 4096 → s.fstByte d c.1 (x.off + i) = some o → byteAt t (pa + i) = o)) ∧
    (Completes (.partitionLost p) s fun t =>
      (t.part p).gs = 6 ∧ (∀ d, d < 6 → ∀ x ∈ (t.die d).tasks, x.2.part = p → x.2.state = .done) ∧
      (∀ c ∈ t.pkg.circuits, c.part = p → c.state = 3) ∧ (∀ d, d < 6 → ∀ y ∈ (t.die d).gw.saves, y.part ≠ p) ∧
      ∀ n ∈ s.tilesOf p, n < 1536 → ∀ i, i < 2 ^ 20 → byteAt t (paOf 1 n 0 + i) = 0) ∧
    ((s.part p).gs = 4 → Completes (.restoreComplete p) s fun t =>
      let r := max (s.part p).resumeW (s.wheel + 1)
      (t.part p).gs = 5 ∧ (t.part p).resumeW = r ∧ (r * 1024, .resumeSequence p) ∈ t.agenda ∧ (t.part p).spilled = [] ∧
      t.fibres = s.fibres ∧ SameMemory s t) ∧
    ((s.part p).gs = 5 → (s.part p).staged = [id] → s.access id = some a → a.op = .laneWrite n bs → a.stage ≠ .performed → a.pieces = [] →
      a.space ≤ 3 → a.pa = some pa → s.windowLate a pa = false → bs ≠ [] → s.errors = [] → Memory.wf s.mem = true →
      Completes (.resumeSequence p) s fun t => (t.part p).gs = 0 ∧ (t.part p).staged = [] ∧ Wrote s t pa bs) ∧
    ((s.part p).gs = 5 → (s.part p).staged = [] → (∀ y ∈ s.cores, y.2.strmWait = []) → Completes (.resumeSequence p) s fun t =>
      (t.part p).gs = 0 ∧ (t.part p).heldEv = [] ∧
      (∀ e ∈ (s.part p).heldEv, (e.1 + (s.wheel - (s.part p).stopW) * 1024, e.2) ∈ t.agenda) ∧
      (∀ f, of' f → (t.fib f).stopped = false ∧ ((∀ d m, (s.fib f).cont ≠ .wfe d m) → (t.fib f).pc = (s.fib f).pc ∧ (t.fib f).g = (s.fib f).g)) ∧
      SameMemory s t)

/-- R268, R269, R280, R284 to R292, R298, R299, R345: the reset of a compute die, errors and their places, reconfiguration
lists, and the function-level reset of a partition, which ends within 131,072 wheels and, in this model, after 5 at the least
(log 57). An error in a vector register stands there until an instruction reads it (log 80), and is reported where no fibre
holds the lease (log 93). A list that passed waits for the end of a function-level reset (log 101), and the deferred entries
of one list take effect in its order (log 100). -/
def Obligations.ResetEvents : Prop :=
  ∀ (s : State) (d p a n b : Nat) (f : FibreRef) (c : CoreId) (e : RcEntry) (es : List RcEntry) (x : Entry),
    let tr := (s.die d).trust
    let rc := s.pkg.rc
    let y := s.fib f
    let bytes (i k : Nat) : List Byte := s.readBytes (paOf 6 0 ((rc.addr.toNat + i) % 2 ^ 56)) k
    let head := bytes 0 32
    let m := sliceNat head 0 2
    let list := (List.range m).map fun i => bytes (32 + 32 * i) 32
    let u := s.modPkg fun k => { k with rc := { k.rc with tag := sliceNat head 4 4 } }
    let pending := s.parts.flatMap fun p : Nat × Part => p.2.deferred
    let books : State.Books := ⟨u, u, pending.foldl State.rcBook u⟩
    let good := rc.busy = false ∧ s.pkg.start.phase ≠ 3 ∧ rc.addr.toNat % 64 = 0 ∧ 1 ≤ m ∧ m ≤ 256 ∧ sliceNat head 2 2 = 1 ∧ ∀ x ∈ head.drop 8, x = 0
    let only (i : Instr) (P : State → Prop) : Prop := Completes i s fun t => P t ∧ SameMemory s t
    (d < 6 → 1 ≤ tr.state → tr.state ≤ 4 →
      (Completes (.dieReset d) s fun t => (t.die d).trust.state = 0 ∧ (t.die d).trust.reason = tr.reason ∧ (t.die d).trust.wheel = s.wheel) ∧
      (s.flight = [] → s.moves = [] → s.messages = [] → s.walkers = [] → s.pkg.circuits = [] → s.flitsAt (State.nodeOn d) = [] →
        s.unreplied d = [] → only (.dieReset d) fun t =>
          (f.core.die = d → (t.fib f).status = .free) ∧ (c.die = d → t.core c = {}) ∧ (∀ x ∈ linksOf d, (t.pkg.links.any fun l => l.1 == x) = true)) ∧
      (2 ≤ tr.state → Completes (.resetDie d) s fun t => (t.die d).trust.state = 0 ∧ (t.die d).trust.reason = 9)) ∧
    (tr.state = 0 ∨ tr.state = 5 → exec (.dieReset d) s = .next s) ∧
    (tr.state = 5 → only (.resetDie d) fun t => (t.die d).trust = { tr with state := 0, fails := 0, wheel := s.wheel } ∧ t.fibres = s.fibres) ∧
    (exec (.uncorrectableError (.memory a)) s = .next { s with errors := setIn s.errors (a / granSize a * granSize a) }) ∧
    (y.status ≠ .free → exec (.uncorrectableError (.fibreRegs f)) s = .next (s.setFib f { y with pendUe := true })) ∧
    ((s.core c).lease = some n → exec (.uncorrectableError (.vectorRegs c a)) s =
      .next (s.setCore c { s.core c with regUe := setIn (s.core c).regUe a })) ∧
    ((s.core c).lease = none → exec (.uncorrectableError (.vectorRegs c a)) s = .next (s.reportFibre ⟨c, 0⟩ 2 0x10 0 (State.vecInfo 0 0 8))) ∧
    (only (.uncorrectableError (.accumulator d n a)) fun t => a ∈ (tget {} (t.gang d).slots n).bad ∧ t.fibres = s.fibres) ∧
    (s.tableEntry n a b = none → exec (.uncorrectableError (.slotTable n a b)) s = .next s) ∧
    (s.tableEntry n a b = some x → entryV x = true → Completes (.uncorrectableError (.slotTable n a b)) s fun t =>
      ∀ k ∈ t.pkg.circuits, k.part = entryPtag x → k.cid = entryCid x → k.state = 3) ∧
    (only (.uncorrectableError (.gatewayCache d n)) fun t =>
      (t.die d).gw.cache = (s.die d).gw.cache.take n ++ (s.die d).gw.cache.drop (n + 1) ∧ t.fibres = s.fibres) ∧
    (only (.softError d n) fun t => t.fibres = s.fibres ∧ t.cores = s.cores) ∧
    (rc.busy = true ∨ s.pkg.start.phase = 3 → exec .rcgo s = .next s) ∧
    (rc.busy = true → s.flrRuns = true → exec .reconfigApply s =
      .next { s with agenda := ((s.wheel + 1) * 1024, .reconfigApply) :: s.agenda }) ∧
    (rc.busy = false → s.pkg.start.phase ≠ 3 → rc.addr.toNat % 64 ≠ 0 → s.pkg.start.warmWait = false → only .rcgo fun t =>
      t.pkg.rc.busy = false ∧ t.pkg.rc.code = 1 ∧ t.pkg.rc.index = 511 ∧ t.parts = s.parts ∧ t.fibres = s.fibres) ∧
    (good → ∀ k i, State.rcCheck u list 0 books = .error (k, i) → only .rcgo fun t =>
      t.pkg.rc.busy = false ∧ t.pkg.rc.code = k ∧ t.pkg.rc.index = i ∧ t.parts = s.parts ∧ t.fibres = s.fibres) ∧
    (good → State.rcCheck u list 0 books = .ok es → only .rcgo fun t =>
      t.pkg.rc.busy = true ∧ t.pkg.rc.list = es.map (fun e => { e with list := s.fresh }) ∧ t.pkg.rc.tag = sliceNat head 4 4 ∧ t.parts = s.parts ∧ t.fibres = s.fibres ∧
      ∃ k, s.clock < k * 1024 ∧ k ≤ s.wheel + (m + 31) / 32 + 1 ∧ t.agenda = (k * 1024, .reconfigApply) :: s.agenda) ∧
    (rc.busy = true → s.flrRuns = false → rc.list = [e] → e.op = 7 → e.wait = false → only .reconfigApply fun t =>
      (t.part e.p).residue = rcByte e 4 ∧ t.pkg.rc.busy = false ∧ t.pkg.rc.code = 0 ∧ t.pkg.rc.wheel = s.wheel ∧ t.fibres = s.fibres) ∧
    (rc.busy = true → s.flrRuns = false → rc.list = [e] → e.op = 3 → e.wait = false → only .reconfigApply fun t =>
      (t.tile (rcTile e)).ptag = e.p ∧ tfind (t.part e.p).tab (rcHalf e 6) = some (rcTile e) ∧
      (t.part e.p).gen = ((s.part e.p).gen + 1) % 2 ^ 32 ∧ t.pkg.rc.busy = false) ∧
    (rc.busy = true → s.flrRuns = false → rc.list = [e] → e.wait = true → (s.part e.p).deferred = [] → only .reconfigApply fun t =>
      (t.part e.p).deferred = [e] ∧ t.pkg.rc.busy = false ∧ t.pkg.rc.code = 0 ∧ t.fibres = s.fibres) ∧
    (pending = [e] → (s.part p).deferred = [e] → e.op = 7 → e.p = p → (∀ k, k < 6 → s.boundary p k = true) → s.boundary p d = true →
      only (.deferredEntry p d) fun t => (t.part p).residue = rcByte e 4 ∧ (t.part p).deferred = [] ∧ t.fibres = s.fibres) ∧
    (s.boundary p d = false → exec (.deferredEntry p d) s = .next s) ∧
    ((s.part p).flr = 0 → only (.functionLevelReset p) fun t =>
      (t.part p).flr = 1 ∧ t.agenda = ((s.wheel + 1) * 1024, .flrComplete p) :: s.agenda ∧ t.fibres = s.fibres) ∧
    ((s.part p).flr = 1 → rc.busy = true → exec (.flrComplete p) s =
      .next { s with agenda := ((s.wheel + 1) * 1024, .flrComplete p) :: s.agenda }) ∧
    ((s.part p).flr = 1 → rc.busy = false → (s.part p).deferred = [] → Completes (.flrComplete p) s fun t =>
      (t.part p).flr = 2 ∧ t.vf p = {} ∧ (∃ k, s.clock + 5 * 1024 ≤ k ∧ k ≤ s.clock + 131072 * 1024 ∧ (k, .flrComplete p) ∈ t.agenda) ∧
      ∀ k ∈ s.tilesOf p, k < 1536 → ∀ i, i < 2 ^ 20 → byteAt t (paOf 1 k 0 + i) = 0) ∧
    ((s.part p).flr = 2 → Completes (.flrComplete p) s fun t => (t.part p).flr = 0)

/-! ## Events: trust, power, meters, debug and starts -/

/-- R296, R298, R299, R302, R303, R308, R309: what the root core learns of a compute die's attestation: its self test, the
first request, an answer in which the root finds nothing wrong, one in which it does, one that comes too late, a busy die,
and the end of the wait. The answer to step 5 may be followed by another portion of the chain, and step 9 by the encapsulated
flow; a MEASUREMENTS response is extended into MEAS5 whatever the root finds in it; the third failure in a row rejects the
die. An answer to a request of an earlier attempt is discarded. A finding that comes with the event stands for an answer
altered on its way, whose bytes are free (log 10); what a late answer belongs to is free too (log 9). -/
def Obligations.AttestationEvents : Prop :=
  ∀ (s : State) (d r : Nat) (v : AttestVerdict), d < 6 → s.pkg.start.phase ≠ 1 ∨ s.pkg.start.recovery = false →
    let x := (s.die d).trust
    let answer := (s.die d).spdm.last
    let limit := s.clock + (32768 + 64) * 1024
    let kept (i : Instr) (P : Trust → State → Prop) : Prop := Completes i s fun t =>
      P (t.die d).trust t ∧ (t.die d).trust.sess = x.sess ∧ t.fibres = s.fibres ∧ t.cores = s.cores
    let only (i : Instr) (P : Trust → State → Prop) : Prop := kept i fun y t => P y t ∧ SameMemory s t
    let measured (i : Instr) (m : List Byte) (P : Trust → State → Prop) : Prop := kept i fun y t =>
      P y t ∧ t.meas 5 = sha256 (s.meas 5 ++ m) ∧ ∀ a, (a < measPa 5 ∨ measPa 5 + 32 ≤ a) → byteAt t a = byteAt s a
    let fails (r : Nat) (y : Trust) (t : State) : Prop :=
      y.state = (if x.fails + 1 = 3 then 5 else 1) ∧ y.fails = x.fails + 1 ∧ y.reason = r ∧ y.wheel = s.wheel ∧
      (t.die d).spdm.session = false ∧ (x.fails + 1 ≠ 3 → y.retry = true ∧ t.isDue (.attestationRetry d) = true)
    let waits (y : Trust) (t : State) : Prop := y.state = 2 ∧ y.deadline = limit ∧ (limit + 1, .attestationTimeout d) ∈ t.agenda
    let next (y : Trust) : Prop :=
      (x.step = 5 → (y.step = if sliceNat answer 6 2 = 0 then 7 else 5) ∧ y.chain = x.chain ++ slice answer 8 (sliceNat answer 4 2) ∧
        y.got = x.got + sliceNat answer 4 2) ∧
      (x.step = 9 → x.enc < 2 → y.step = 9 ∧ y.enc = x.enc + 1) ∧
      (x.step = 9 → 2 ≤ x.enc → if sliceNat answer 3 1 = 2 then y.step = 10 ∧ y.enc = 0 else y.step = 9 ∧ y.enc = 2) ∧
      (x.step ≠ 5 → x.step ≠ 9 → y.step = x.step + 1 ∧ y.enc = 0)
    (x.state = 0 → s.pkg.start.phase ≠ 3 →
      (only (.selftest d true) fun y t =>
        y.state = 1 ∧ y.retry = true ∧ y.wheel = s.wheel ∧ (s.clock, .attestationRetry d) ∈ t.agenda) ∧
      (only (.selftest d false) fun y _ => y.state = 5 ∧ y.reason = 1 ∧ y.wheel = s.wheel)) ∧
    (x.state ≠ 0 → ∀ ok, exec (.selftest d ok) s = .next s) ∧
    (x.state = 1 → x.retry = true → s.pkg.start.phase ≠ 0 → s.pkg.start.phase ≠ 3 → s.startFailed = false →
      only (.attestationRetry d) fun y t => waits y t ∧ y.step = 1 ∧ y.retry = false ∧ y.sent = [0x10, 0x84, 0, 0]) ∧
    (x.state = 2 → x.late = 0 → s.answered d = true → s.clock ≤ x.deadline →
      (s.rootFinds d = none →
        (x.step ≠ 8 → x.step ≠ 10 → only (.attestationResponse d .pass) fun y t => waits y t ∧ next y) ∧
        (x.step = 8 → Memory.wf s.mem = true → measured (.attestationResponse d .pass) (sha256 answer) fun y t => waits y t ∧ next y) ∧
        (x.step = 10 → only (.attestationResponse d .pass) fun y t => y.state = 3 ∧ (t.die d).spdm.session = true)) ∧
      (s.rootFinds d = some r →
        (x.step ≠ 8 ∨ lget 0 answer 1 ≠ 0x60 → only (.attestationResponse d .pass) (fails r)) ∧
        (x.step = 8 → lget 0 answer 1 = 0x60 → Memory.wf s.mem = true → measured (.attestationResponse d .pass) (sha256 answer) (fails r))) ∧
      (x.busies < 16 → only (.attestationResponse d .busy) fun y t => waits y t ∧ y.step = x.step ∧ y.busies = x.busies + 1) ∧
      (16 ≤ x.busies → only (.attestationResponse d .busy) (fails 6)) ∧
      (x.step ≠ 8 ∨ stepReason x.step r = 7 → only (.attestationResponse d (.fail r)) (fails (stepReason x.step r))) ∧
      (x.step = 8 → stepReason 8 r ≠ 7 → Memory.wf s.mem = true →
        ∃ h, h.length = 32 ∧ measured (.attestationResponse d (.fail r)) h (fails (stepReason 8 r)))) ∧
    (x.state = 2 → x.late = 0 → s.answered d = true → x.deadline < s.clock → only (.attestationResponse d v) (fails 6)) ∧
    (x.state = 2 → x.deadline < s.clock → only (.attestationTimeout d) fun y t => fails 6 y t ∧ y.late = x.late + 1) ∧
    (x.state = 2 → s.clock ≤ x.deadline → exec (.attestationTimeout d) s = .next s) ∧
    (0 < x.late → Config.lateAnswer s.fresh = true → Completes (.attestationResponse d v) s fun t =>
      (t.die d).trust = { x with late := x.late - 1 } ∧ t.fibres = s.fibres ∧ t.agenda = s.agenda ∧ SameMemory s t) ∧
    (x.state ≠ 2 ∨ s.answered d = false → x.late = 0 → exec (.attestationResponse d v) s = .next s) ∧
    (x.state ≠ 2 → exec (.attestationTimeout d) s = .next s)

/-- R302, R306, R307, R310, R519 to R522: an SPDM responder that hears a request in a connection state that accepts it
answers as its row says, and moves its connection state; GET_CAPABILITIES with another version byte or in another state is
answered with ERROR. The root core takes a request from s0, in whole dwords, and puts its answer in s1; of memory it writes
only its layout in space 7. A die asks for the root's chain in the encapsulated flow, refuses one that does not list its key
(R296), and answers FINISH once it has accepted the root and what FINISH brings is right. The capability and algorithm bytes
and the encapsulated messages are the standard's (log 16); nonces and signatures are free (log 9). -/
def Obligations.SpdmRequests : Prop :=
  ∀ (s : State) (r : Nat) (bytes : List (BitVec 8)),
    let c := s.spdm r
    let req := State.heardBytes r bytes
    let code := (lget 0 req 1).toNat
    let version := (lget 0 req 0).toNat
    let n := ceilDiv req.length 4
    let zero := sliceNat req 2 2 = 0
    let len := (spdmChain r).length
    let off := sliceNat req 4 2
    let answers (i : Instr) (st : Nat) (bs : List Byte) : Prop := Completes i s fun t =>
      (t.spdm r).last = bs ∧ (t.spdm r).state = st ∧ (r = 6 → t.pkg.doe.s1 = spdmObject bs ∧ t.pkg.doe.s0 = s.pkg.doe.s0.drop (n + 2)) ∧
      t.fibres = s.fibres ∧ (r < 6 → SameMemory s t) ∧
      ∀ a, (a < paOf 7 0 0x40000 ∨ paOf 7 0 0x80000 ≤ a) → byteAt t a = byteAt s a
    let tr := finishTh c.th c.peer req
    let good := (((chainLeaf c.peer).bind Cert.modulus).any fun m => pssVerify (beBytes 384 m) (spdmHash finishContext tr) (slice req 4 384)) = true ∧
      slice req 388 32 = hmac (leBytes 32 c.qkey.toNat) (sha256 (tr ++ slice req 4 384))
    let body := req.drop 4
    let got := c.peer ++ slice body 8 (sliceNat body 4 2)
    s.spdmHeard r req = true → (r = 6 → s.pkg.doe.s1 = [] ∧ s.mextRuns = false ∧ Memory.wf s.mem = true) →
      (code = 0x84 → c.state ≤ 3 → version = 0x10 → n = 1 → zero → answers (.getVersion r bytes) 1 spdmVersion) ∧
      (code = 0xE1 → c.state = 1 → version = 0x12 → n = 5 → answers (.getCapabilities r bytes) 2 (spdmCapabilities r)) ∧
      (code = 0xE3 → c.state = 2 → version = 0x12 → 32 ≤ off → ceilDiv off 4 = n →
        answers (.negotiateAlgorithms r bytes) 3 (spdmAlgorithms r)) ∧
      (c.state = 3 → version = 0x12 →
        (code = 0x81 → n = 1 → zero → answers (.getDigests r bytes) 3 ([0x12, 1, 0, 1] ++ sha256 (spdmChain r))) ∧
        (code = 0x82 → n = 2 → zero →
          let k := min (min (sliceNat req 6 2) 1024) (len - off)
          answers (.getCertificate r bytes) 3
            (if len ≤ off then [0x12, 0x7F, 1, 0]
             else [0x12, 2, 0, 0] ++ leBytes 2 k ++ leBytes 2 (len - off - k) ++ slice (spdmChain r) off k)) ∧
        (code = 0x83 → n = 9 → zero → s.noEntropy r = false →
          ∃ nonce sign, nonce.length = 32 ∧ answers (.challenge r bytes) 3
            (if s.noSigning r then [0x12, 0x7F, 4, 0] else [0x12, 3, 0, 1] ++ sha256 (spdmChain r) ++ nonce ++ [0, 0] ++ sign)) ∧
        (code = 0xE0 → n = 1 → sliceNat req 2 1 = 0 → s.noEntropy r = false → ∀ l, State.measBlocks r (sliceNat req 3 1) = some l →
          ∃ nonce, nonce.length = 32 ∧ answers (.getMeasurements r bytes) 3
            ([0x12, 0x60, BitVec.ofNat 8 (if sliceNat req 3 1 = 0 then State.measCount r else 0), 0, BitVec.ofNat 8 l.length] ++
              leBytes 3 (39 * l.length) ++ l.flatMap (s.measBlock r) ++ nonce ++ [0, 0])) ∧
        (code = 0xE4 → r < 6 → ∃ rest, answers (.keyExchange r bytes) 3 ([0x12, 0x64] ++ rest)) ∧
        (code = 0xE5 → r < 6 →
          (c.handshake = false ∨ c.accepted = false → answers (.finish r bytes) 3 [0x12, 0x7F, 4, 0]) ∧
          (c.handshake = true → c.accepted = true → ¬ good → answers (.finish r bytes) 3 [0x12, 0x7F, 6, 0]) ∧
          (c.handshake = true → c.accepted = true → good → (∃ rest, answers (.finish r bytes) 3 ([0x12, 0x65, 0, 0] ++ rest)) ∧
            Completes (.finish r bytes) s fun t => (t.spdm r).session = true))) ∧
      (c.handshake = true → r < 6 →
        (code = 0xEA → answers (.keyExchange r bytes) c.state [0x12, 0x6A, 1, 0, 0x12, 0x81, 0, 0]) ∧
        (code = 0xEB → lget 0 body 1 = 2 → sliceNat body 6 2 = 0 →
          (rootListed r got = true → answers (.keyExchange r bytes) c.state [0x12, 0x6B, 1, 2, 1, 0, 0, 0] ∧
            Completes (.keyExchange r bytes) s fun t => (t.spdm r).accepted = true) ∧
          (rootListed r got = false → answers (.keyExchange r bytes) c.state [0x12, 0x7F, 5, 0] ∧
            Completes (.keyExchange r bytes) s fun t => (t.spdm r).handshake = false))) ∧
      (code = 0xE1 → version ≠ 0x12 → answers (.getCapabilities r bytes) c.state [0x12, 0x7F, 0x41, 0]) ∧
      (code = 0xE1 → version = 0x12 → c.state ≠ 1 → answers (.getCapabilities r bytes) c.state [0x12, 0x7F, 4, 0])

/-- R305, R358 to R360, R450, R456, R518: the DOE mailbox answers discovery itself, passes an SPDM object to s0 or holds it
while s0 has no room; the host reads, and aborts. While the management core runs, the allotments of a power period never
exceed what the package's limit leaves; the gates of a die follow its tokens. -/
def Obligations.DoeAndPowerEvents : Prop :=
  ∀ (s : State) (d n : Nat) (o : List (BitVec 32)),
    let q := s.pkg.doe
    let x := s.die d
    let only (i : Instr) (P : State → Prop) : Prop := Completes i s fun t =>
      P t ∧ t.fibres = s.fibres ∧ t.pkg.spdm = s.pkg.spdm ∧ SameMemory s t
    let quiet := (s.core .root).strmWait = []
    let object := (lget 0 o 0).toNat % 2 ^ 24 = 0x0101AB ∧ 3 ≤ o.length ∧ o.length ≤ 1024 ∧ (lget 0 o 1).toNat % 2 ^ 18 = o.length
    let unlatched := ∀ f, f.core = .root → ∀ b m, (s.fib f).cont ≠ .wfe b m
    (q.held = none →
      (only (.doeObject [1, 3, 0]) fun t => t.pkg.doe = { q with own := q.own ++ [1, 3, 0x01000001] }) ∧
      (only (.doeObject [1, 3, 1]) fun t => t.pkg.doe = { q with own := q.own ++ [1, 3, 0x000101AB] }) ∧
      (object → quiet → unlatched → q.s0.length + o.length ≤ 1024 → Completes (.doeObject o) s fun t =>
        t.pkg.doe = { q with s0 := q.s0 ++ o } ∧ SameMemory s t) ∧
      (object → 1024 < q.s0.length + o.length → only (.doeObject o) fun t => t.pkg.doe = { q with held := some o }) ∧
      exec .doeDeliver s = .next s) ∧
    (q.held = some o →
      (∀ p, exec (.doeObject p) s = .next s) ∧
      (quiet → unlatched → q.s0.length + o.length ≤ 1024 → Completes .doeDeliver s fun t =>
        t.pkg.doe = { q with held := none, s0 := q.s0 ++ o } ∧ SameMemory s t) ∧
      (1024 < q.s0.length + o.length → exec .doeDeliver s = .next s)) ∧
    (quiet →
      (only (.doeHostRead n) fun t => t.pkg.doe = { q with own := q.own.drop n, s1 := q.s1.drop (n - q.own.length) }) ∧
      (only .doeAbort fun t => t.pkg.doe = {})) ∧
    (∀ ok, only (.entropyHealthTest ok) fun t => t.pkg.entropyOk = ok ∧ t.pkg.doe = q) ∧
    (s.pkg.mgrun = true → only .powerPeriod fun t =>
      ((List.range 6).map fun d => (t.die d).allot).sum ≤ 6000 + (s.pkg.pwrlim * 10 - t.pkg.ioUse - 6000) ∧
      (d < 6 → (t.die d).demand = x.spentTok ∧ (t.die d).spentTok = 0 ∧ (t.die d).vgate = (t.die d).mgate ∧
        ((t.die d).mgate = true ↔ 105 ≤ (t.die d).temp) ∧ (t.die d).hot = (if 115 ≤ (t.die d).temp then x.hot + 1 else 0) ∧
        (2 ≤ (t.die d).hot → t.pkg.shutdown = true) ∧ ((t.die d).temp < 95 → 1000 ≤ (t.die d).allot))) ∧
    (s.pkg.mgrun = false → exec .powerPeriod s = .next s) ∧
    (only (.issueGate d) fun t =>
      let left := x.allot - x.spentTok
      ((t.die d).mgate = true ↔ (x.mgate = true ∨ left < x.allot / 10 ∨ left = 0)) ∧
      ((t.die d).vgate = true ↔ (x.vgate = true ∨ left = 0)) ∧ (t.die d).allot = x.allot ∧ (t.die d).spentTok = x.spentTok)

/-- R308 to R314, R322 to R334, R433, R434: what the root core does with a metering request whose turn it is, and with one
whose result is back: a block that breaks R324 has status 1; SEAL checks the extent, the hash and the signature of its
manifest and places the code, UNSEAL forgets a kernel, OPEN, SIGN, CLOSE and HANDOVER wait for their snapshot, RELEASE, QUERY
and GRANT answer at once; the snapshot writes a checkpoint or fails with the flash, and the sums of a wheel reach the meters.
-/
def Obligations.MeterEvents : Prop :=
  ∀ (s : State) (r : MtReq) (d : BitVec 3) (w : Word) (die wl wn : Nat),
    let id := r.id
    let b := s.mtrqBlock r
    let code := (b.headD 0).toNat
    let n := sliceNat b 2 2
    let m := s.meter n
    let e := mtrqEvent code id
    let turn := s.mtrqFind id = some r ∧ s.mtrqHead = some r ∧ r.atRoot = true ∧ r.answer = none
    let s1 := s.modFib r.who fun x => if x.cont = .mtrq r.d id then { x with delay := x.delay + s.waitedSince r.part r.since } else x
    let sums := ∀ x ∈ s.dies, x.2.sums = []
    let answered (t : State) (w : Word) : Prop := ∃ q, t.mtrqFind id = some q ∧ q.answer = some w ∧ q.who = r.who
    let status (i : Instr) (st meter : Nat) (P : State → Prop) : Prop := Completes i s fun t =>
      answered t (State.mtrqWord st meter 0) ∧ P t ∧ t.fibres = s1.fibres
    let kept (t : State) : Prop := t.pkg.meters = s.pkg.meters ∧ t.parts = s.parts ∧ SameMemory s t
    let waits (i : Instr) (P : State → Prop) : Prop := Completes i s fun t =>
      (∃ q, t.mtrqFind id = some q ∧ q.wn = some (s.wheel + 1) ∧ q.block = b ∧ q.answer = none) ∧
      ((s.wheel + 4) * 1024, .meterSnapshot id) ∈ t.agenda ∧ t.fibres = s1.fibres ∧ SameMemory s t ∧ P t
    -- the result
    (s.mtrqFind id = some r → r.answer = some w → (s.fib r.who).cont = .mtrq d id →
      Completes e s fun t =>
        (t.fib r.who).g = lset (s.fib r.who).g d.toNat w ∧ (t.fib r.who).pc = (s.fib r.who).pc + 4 ∧ (t.fib r.who).status = .ready ∧
        t.mtrqFind id = none ∧ SameMemory s t) ∧
    -- the turn
    (turn → r.wn = none →
      (blockBad code b = true → status e 1 (if 3 ≤ code ∧ code ≤ 9 then n else 0) kept) ∧
      (blockBad code b = false →
        (code = 1 → Completes (.seal id) s fun t => t.fibres = s1.fibres ∧ (∃ st, answered t (State.mtrqWord st 0 0)) ∧
          let a := wrap 64 ((r.cap.cursor : Int) + sliceNat b 16 8)
          let head := s.viewBytes r.who.core r.part r.cap.space a 1024
          let man := head.take 512
          let space := sliceNat man 12 1
          let place := sliceNat man 16 8
          let len := sliceNat man 8 4
          let room := ceilDiv len 4096 * 4096
          let code := s.viewBytes r.who.core r.part r.cap.space (a + 1024) len
          let ts := s.sealTargets r.part space place
          let sees (a n : Nat) : Prop := (s.rootPieces r.who.core r.part r.cap.space a n false).isSome = true
          let win := State.cwinWord (space == 2) (if space = 3 then bits place 26 12 * 4096 else bits place 19 12 * 4096) len
          let fits (a n : Nat) : Prop := ∃ h, s.checkCapAt r.who.core false r.cap a n 1 false false = .ok h
          (¬ fits a 1024 → answered t (State.mtrqWord 1 0 0) ∧ kept t) ∧
          (fits a 1024 → ¬ sees a 1024 → answered t (State.mtrqWord 1 0 0) ∧ kept t) ∧
          (fits a 1024 → sees a 1024 → State.manifestBad man = false → (∀ x ∈ slice head 896 128, x = 0) → sees (a + 1024) len →
            fits (a + 1024) len →
            (sha256 (slice head 512 384) ≠ slice man 56 32 → answered t (State.mtrqWord 2 0 0) ∧ kept t) ∧
            (sha256 (slice head 512 384) = slice man 56 32 →
              pssVerify (slice head 512 384) (sha256 (man.take 128)) (slice man 128 384) = false → answered t (State.mtrqWord 3 0 0) ∧ kept t) ∧
            (sha256 (slice head 512 384) = slice man 56 32 →
              pssVerify (slice head 512 384) (sha256 (man.take 128)) (slice man 128 384) = true →
              (ts = [] → answered t (State.mtrqWord 5 0 0) ∧ kept t) ∧
              (ts ≠ [] → space ≠ 3 → sha256 code = slice man 24 32 →
                ∀ u, State.placeCode space win code ts s1 = some u →
                  answered t (State.mtrqWord 0 0 0) ∧
                  tget .null (t.part r.part).ktab (sliceNat b 4 2) =
                    Cap.spanning 2 0 space (2 ^ Cap.permR + 2 ^ Cap.permX + 2 ^ Cap.permG) (4095 * 2 ^ 20 + bits place 19 0) room)))) ∧
        (code = 2 →
          (tfind (s.part r.part).ktab (sliceNat b 4 2) = none → status (.unseal id) 6 0 kept) ∧
          (∀ k, tfind (s.part r.part).ktab (sliceNat b 4 2) = some k → k.tag = true → k.sealOf = 2 →
            status (.unseal id) 0 0 fun t => (t.part r.part).ktab = (s.part r.part).ktab ∧ t.pkg.meters = s.pkg.meters ∧
              ∀ x ∈ (t.part r.part).kernels, x.1 ≠ k)) ∧
        (code = 3 → m.isOpen = true → status (.meterOpen id) 6 n kept) ∧
        (code = 3 → m.isOpen = false → m.owner = none ∨ m.owner = some r.part → (∀ x ∈ slice b 128 640, x = 0) →
          waits (.meterOpen id) kept) ∧
        (code = 5 → s.meterOpen n = true → m.owner = some r.part → waits (.meterSign id) kept) ∧
        (s.meterOpen n = true → m.owner = some r.part → s.othersInFlight r = false →
          (code = 6 → waits (.meterClose id) fun t => t.meter n = { m with shut := some (s.wheel + 1, none) }) ∧
          (code = 7 → waits (.meterHandover id) fun t => t.meter n = { m with shut := some (s.wheel + 1, none) })) ∧
        (5 ≤ code → code ≤ 7 → s.meterOpen n = false → status e 6 n kept) ∧
        (code = 8 →
          (m.isOpen = true → status (.meterRelease id) 6 n kept) ∧
          (m.isOpen = false → m.owner ≠ some r.part → status (.meterRelease id) 7 n kept) ∧
          (m.isOpen = false → m.owner = some r.part → status (.meterRelease id) 0 n fun t => t.meter n = { m with owner := none })) ∧
        (code = 9 →
          (m.owner ≠ some r.part → status (.meterQuery id) 7 n kept) ∧
          (m.owner = some r.part → status (.meterQuery id) 0 n fun t => t.pkg.meters = s.pkg.meters ∧ t.parts = s.parts)) ∧
        (code = 4 →
          let v := sliceNat b 16 8
          let space := bits v 63 56
          let a := bits v 55 0
          let len := sliceNat b 24 8
          let perms := 2 ^ Cap.permR + 2 ^ Cap.permO + 2 ^ Cap.permG + (if bitN (sliceNat b 1 1) 0 then 2 ^ Cap.permW else 0)
          let k := Cap.spanning 0 n space perms a len
          let krn := tget .null (s.part r.part).ktab (sliceNat b 4 2)
          1 ≤ space → space ≤ 4 → baseBad space a = false → a % 4096 = 0 → 0 < len → len % 4096 = 0 → a + len ≤ spaceEnd space →
          k.bounds = ((a : Int), ((a + len : Nat) : Int)) →
            (s.meterOpen n = false → status (.meterGrant id) 6 n kept) ∧
            (s.meterOpen n = true → m.owner ≠ some r.part → status (.meterGrant id) 7 n kept) ∧
            (s.meterOpen n = true → m.owner = some r.part → krn.tag = true → (s.kernelMeters r.part krn).contains n = true →
              ∀ ps u, s.physPieces r.who.core r.part space a len true = .ok ps → s1.coverRuns n (State.runsOf ps) = some u →
                status (.meterGrant id) 0 n fun t => tget .null (t.part r.part).atab (sliceNat b 6 2) = k ∧
                  t.pkg.meters = s.pkg.meters ∧ SameMemory s t)))) ∧
    -- the statement
    (turn → r.wn = some wn → r.block ≠ [] → sums → (code = 5 ∨ code = 6 ∨ code = 7) → m.isOpen = false →
      Completes (.meterSnapshot id) s fun t => answered t (State.mtrqWord 6 n 0) ∧ t.meter n = m ∧ t.fibres = s.fibres ∧ SameMemory s t) ∧
    (turn → r.wn = some wn → r.block ≠ [] → sums → code = 3 ∨ ((code = 5 ∨ code = 6 ∨ code = 7) ∧ m.isOpen = true) →
      Completes (.meterSnapshot id) s fun t => t.fibres = s.fibres ∧
        (Config.flashFails s.fresh = true → t.pkg.ckok = false ∧ t.pkg.rpmc = s.pkg.rpmc ∧ answered t (State.mtrqWord 10 n 0) ∧
          (t.meter n).isOpen = m.isOpen ∧ (t.meter n).seq = m.seq ∧ SameMemory s t) ∧
        (Config.flashFails s.fresh = false → t.pkg.ckok = true ∧ t.pkg.rpmc = s.pkg.rpmc + 1 ∧ t.pkg.ckwheel = s.wheel ∧
          answered t (State.mtrqWord 0 n (t.meter n).seq) ∧
          (code = 3 → (t.meter n).isOpen = true ∧ (t.meter n).owner = some r.part ∧ (t.meter n).seq = 0 ∧ (t.meter n).count = 0 ∧
            (t.meter n).licence = BitVec.ofNat 256 (sliceNat b 32 32)) ∧
          (code ≠ 3 → ((t.meter n).isOpen = true ↔ code = 5) ∧ (t.meter n).owner = m.owner ∧ (t.meter n).seq = (m.seq + 1) % 2 ^ 32 ∧
            (t.meter n).count = m.count))) ∧
    -- sums and checkpoints
    (Completes (.meterSumDelivery die wl) s fun t => (t.die die).sums = (s.die die).sums.filter (fun x => decide (wl < x.1)) ∧
      t.fibres = s.fibres ∧ SameMemory s t ∧
      ((∀ x ∈ (s.die die).sums, wl < x.1) → t.pkg.meters = s.pkg.meters) ∧
      (∀ v c p, (s.die die).sums = [(v, n, c, p)] → v ≤ wl →
        (t.meter n).count = (m.count + c) % 2 ^ 64 ∧ (t.meter n).replay = (m.replay + p) % 2 ^ 64)) ∧
    (Completes .checkpoint s fun t => t.pkg.meters = s.pkg.meters ∧ t.fibres = s.fibres ∧ SameMemory s t ∧
      (Config.flashFails s.fresh = true → t.pkg.ckok = false ∧ t.pkg.images = s.pkg.images) ∧
      (Config.flashFails s.fresh = false → t.pkg.ckok = true ∧ t.pkg.rpmc = s.pkg.rpmc + 1 ∧
        t.pkg.images.head? = some (s.pkg.rpmc + 1, s.pkg.meters)))

/-- R338 to R342: the commands of the debug module on a halted core's fibre, its answers where a command does nothing, and
the cross halt. A command is complete in its own event (log 17); a PC that is no multiple of 4 is a FORMAT (log 65); a
register of block 0x02 of a window that is on is DENIED (R342). In recovery no command reaches the debug core (R357). -/
def Obligations.DebugEvents : Prop :=
  ∀ (s : State) (w : Word) (n pa : Nat) (ps : List (Nat × Nat)) (g : FibreRef),
    let f := dbgTarget w
    let x := s.fib f
    let r := dbgReg w
    let i := dbgWord w
    let op := field w 63 56
    let k := s.pkg.dbg
    let cl := tileCluster (coreTile f.core)
    let answers (i : Instr) (st : Nat) (P : State → Prop) : Prop := Completes i s fun t => t.pkg.dbg.status = st ∧ P t
    let only (i : Instr) (st : Nat) (P : State → Prop) : Prop := answers i st fun t =>
      P t ∧ t.fibres = s.fibres ∧ SameMemory s t
    let data (v : Word) (tag : Bool) (t : State) : Prop := t.pkg.dbg.data = v ∧ t.pkg.dbg.tag = tag ∧ t.cores = s.cores
    let cap := lget .null x.k (r % 4)
    (s.pkg.start.phase = 3 → exec (.dbgHalt w) s = .next s ∧ exec (.dbgResume w) s = .next s ∧ exec (.dbgStep w) s = .next s ∧
      exec (.readReg w) s = .next s ∧ exec (.writeReg w) s = .next s ∧ exec (.readMem w) s = .next s ∧ exec (.writeMem w) s = .next s ∧
      exec (.arm w) s = .next s ∧ exec (.bkpt w) s = .next s) ∧
    (s.pkg.start.phase ≠ 3 → f.valid = true → s.dbgDenied f.core = false →
      (op = 1 → isService f.core = false → (s.core f.core).halted = false →
        only (.dbgHalt w) 0 fun t => (t.cluster cl).haltAt = (s.cluster cl).haltAt ++ [s.clock + 3] ∧ t.cores = s.cores) ∧
      (op = 2 → answers (.dbgResume w) 0 fun t => t.core f.core = { s.core f.core with halted := false, step1 := none } ∧ SameMemory s t ∧
        (g.core ≠ f.core → t.fib g = s.fib g) ∧
        (g.core = f.core → (s.fib g).status ≠ .free → t.fib g = { s.fib g with readyFrom := max (s.fib g).readyFrom (s.clock + 1) })) ∧
      (op = 8 → isService f.core = false → only (.arm w) 0 fun t => t.cluster cl =
        { s.cluster cl with armed := field k.arg 47 0, xo := bitN k.arg.toNat 48, xi := bitN k.arg.toNat 49 }) ∧
      (op = 9 → isService f.core = false → r < 4 →
        only (.bkpt w) 0 fun t => tget (0, 0) (t.cluster cl).bkpts r = (field k.arg 55 0, field k.data 47 0)) ∧
      (op = 9 → 4 ≤ r → only (.bkpt w) 1 fun t => t.clusters = s.clusters) ∧
      ((s.core f.core).halted = false → (op = 3 → only (.dbgStep w) 2 fun t => t.cores = s.cores) ∧
        (op = 4 → only (.readReg w) 2 fun t => t.cores = s.cores) ∧ (op = 7 → only (.writeMem w) 2 fun t => t.cores = s.cores)) ∧
      ((s.core f.core).halted = true → x.status = .free → op = 4 → only (.readReg w) 3 fun t => t.cores = s.cores) ∧
      ((s.core f.core).halted = true → x.status ≠ .free →
        (op = 3 → only (.dbgStep w) 0 fun t => t.core f.core = { s.core f.core with step1 := some f.slot }) ∧
        (op = 4 →
          (0x1000 ≤ r → r < 0x1008 → i = 0 → only (.readReg w) 0 (data (lget 0 x.g (r - 0x1000)) false)) ∧
          (r = 0x1008 → i = 0 → only (.readReg w) 0 (data x.pc false)) ∧
          (0x1010 ≤ r → r < 0x1014 → i < 2 →
            only (.readReg w) 0 (data (word ((lget .null x.k (r - 0x1010)).bits.toNat / 2 ^ (64 * i))) (lget .null x.k (r - 0x1010)).tag)) ∧
          (0x1400 ≤ r → only (.readReg w) 1 fun t => t.cores = s.cores)) ∧
        (op = 5 →
          (0x1000 ≤ r → r < 0x1008 → i = 0 → answers (.writeReg w) 0 fun t =>
            t.fib f = { x with g := lset x.g (r - 0x1000) k.data } ∧ SameMemory s t) ∧
          (r = 0x1008 → i = 0 → k.data.toNat % 4 = 0 → answers (.writeReg w) 0 fun t => t.fib f = { x with pc := k.data } ∧ SameMemory s t) ∧
          (r = 0x1008 → i = 0 → k.data.toNat % 4 ≠ 0 → only (.writeReg w) 1 fun t => t.cores = s.cores) ∧
          (0x1010 ≤ r → r < 0x1014 → i < 2 → r - 0x1010 < x.k.length → answers (.writeReg w) 0 fun t =>
            (lget .null (t.fib f).k (r - 0x1010)).tag = false ∧ (t.fib f).g = x.g ∧ (t.fib f).pc = x.pc ∧ SameMemory s t)) ∧
        (op = 6 → s.dbgWindow f cap false = false →
          (∀ e, s.checkCapAt f.core (x.pl == 3) cap k.arg.toNat 8 State.pR false false = .error e →
            only (.readMem w) 5 fun t => t.pkg.dbg.cause = e) ∧
          (s.checkCapAt f.core (x.pl == 3) cap k.arg.toNat 8 State.pR false false = .ok (.mem pa) → k.arg.toNat % 8 = 0 →
            s.dbgPieces f cap false = .ok ps → (s.readPieces ps).2 = none →
            only (.readMem w) 0 (data (word (leNat (s.readPieces ps).1)) false))) ∧
        (op = 7 → s.dbgWindow f cap true = false →
          (∀ e, s.checkCapAt f.core (x.pl == 3) cap k.arg.toNat 8 State.pW true false = .error e →
            only (.writeMem w) 5 fun t => t.pkg.dbg.cause = e) ∧
          (s.checkCapAt f.core (x.pl == 3) cap k.arg.toNat 8 State.pW true false = .ok (.reg n 2 pa) → k.arg.toNat % 8 = 0 →
            State.regTrap { s with cur := f } n 2 pa k.arg.toNat (r % 4) false true = none → s.windowOn n pa = true →
            only (.writeMem w) 4 fun t => t.dies = s.dies ∧ t.tiles = s.tiles ∧ t.agenda = s.agenda) ∧
          (s.checkCapAt f.core (x.pl == 3) cap k.arg.toNat 8 State.pW true false = .ok (.mem pa) → k.arg.toNat % 8 = 0 →
            s.dbgPieces f cap true = .ok [(n, 8)] → Memory.wf s.mem = true → answers (.writeMem w) 0 fun t =>
              (∀ i, i < 8 → byteAt t (n + i) = BitVec.ofNat 8 (k.data.toNat / 256 ^ i)) ∧
              (∀ a, (a < n ∨ n + 8 ≤ a) → byteAt t a = byteAt s a) ∧ t.fibres = s.fibres)))) ∧
    (s.pkg.start.phase ≠ 3 → op = 4 → f.valid = false → only (.readReg w) 1 fun t => t.cores = s.cores) ∧
    (s.pkg.start.phase ≠ 3 → op = 4 → f.valid = true → s.dbgDenied f.core = true → only (.readReg w) 4 fun t => t.cores = s.cores) ∧
    (Completes .crossHalt s fun t => SameMemory s t ∧ ∀ c b, (s.cluster c).xi = true → b < 48 → bitN (s.cluster c).armed b = true →
      (t.core (coreOf (clusterTile c (b / 3)) (b % 3))).halted = true)

/-- R65, R282, R298, R322, R332, R351 to R357: a start counts itself, leaves every core at reset but the root core's boot
fibre and, from its fifth step on, the management core's, and stands at its eighth step or at the one that failed; at the
eighth the stores read zero, after a cold start HBM too, and the first cold start in DEPLOYED has reset the meters. A start
that may not run boots into recovery. A loss of power forgets what is not persistent: the meters are those of the last image.
A lifecycle request needs every partition inactive, a genuine authorisation and an allowed transition; with the one to
DECOMMISSIONED every memory is wiped. The start is one event of the model, up to its eighth step (log 42). An attempt from
recovery one of whose steps fails returns to recovery, counting no failure, and what else of R357 is open is settled in log
68; a step fails by a free choice (log 10), without entropy, or for want of a valid package certificate. -/
def Obligations.StartEvents : Prop :=
  ∀ (s : State) (v : Word) (a d : Nat),
    let st := s.pkg.start
    let quiet (t : State) : Prop := t.fib ⟨.root, 0⟩ = .boot ∧ t.tiles = [] ∧ t.parts = [] ∧ t.flight = [] ∧ t.pkg.start.lc = st.lc ∧
      t.pkg.rpmc = s.pkg.rpmc ∧ (outside a = true → byteAt t a = byteAt s a)
    let boot (t : State) : Prop := quiet t ∧ t.fibres.map (·.1) = [⟨.root, 0⟩] ∧ t.pkg.images = s.pkg.images
    let mgmt (t : State) : Prop :=
      let f := t.fib ⟨.mgmt, 0⟩
      t.pkg.mgrun = true ∧ f.status = .ready ∧ f.pl = 2 ∧ f.code = t.pkg.mgcode ∧ f.pc = word t.pkg.mgcode.cursor &&& ~~~3#64
    let starts (warm : Bool) (t : State) : Prop := t.pkg.start.powered = true ∧
      ((st.recovery = true ∧ s.failingStep warm ≠ 8 ∧ boot t ∧ t.pkg.start.phase = 3 ∧ t.pkg.start.recovery = true ∧
        t.pkg.start.code = s.failingStep warm ∧ t.pkg.start.fails = st.fails) ∨
       ((st.recovery = false ∨ s.failingStep warm = 8) ∧ quiet t ∧ t.pkg.start.step = s.failingStep warm ∧ t.pkg.start.phase = 1 ∧
        t.fibres.map (·.1) = (if 4 < t.pkg.start.step then [⟨.root, 0⟩, ⟨.mgmt, 0⟩] else [⟨.root, 0⟩]) ∧ (4 < t.pkg.start.step → mgmt t) ∧
        (st.deployed = true ∨ st.lc ≠ 2 ∨ warm = true → t.pkg.images = s.pkg.images ∧ t.pkg.meters = s.pkg.meters) ∧
        (st.deployed = false → st.lc = 2 → warm = false → t.pkg.start.step = 8 →
          t.pkg.meters = [] ∧ t.pkg.start.deployed = true ∧ ∀ i ∈ t.pkg.images, i.2 = []) ∧
        t.pkg.start.fails = min (st.fails + 1) 3 ∧ t.pkg.start.warm = warm ∧
        1 ≤ t.pkg.start.step ∧ t.pkg.start.step ≤ 8 ∧ t.pkg.start.code = (if t.pkg.start.step = 8 then 0 else t.pkg.start.step) ∧
        (d < 6 → (t.die d).trust.state = 0 ∧ (t.die d).trust.sess = (if warm then (s.die d).trust.sess else 0)) ∧
        (t.pkg.start.step = 8 → 1 ≤ paKind a → paKind a ≤ 3 → byteAt t a = 0) ∧
        (t.pkg.start.step = 8 → warm = false → paKind a = 4 → byteAt t a = 0)))
    let bs := s.readBytes (paOf 6 0 v.toNat) 512
    let done (t : State) (n : Nat) : Prop := t.pkg.start = { st with lcst := n } ∧ t.agenda = s.agenda
    let target := sliceNat bs 0 1
    let genuine := sliceNat bs 1 15 = 0 ∧ sliceNat bs 48 80 = 0 ∧ sliceNat bs 16 32 = Config.packageSerial.toNat ∧
      pssVerify (beBytes 384 Config.productModulus.toNat) (sha256 (bs.take 128)) (slice bs 128 384) = true
    let allowed := (st.lc = 0 ∧ target = 1) ∨ (st.lc = 1 ∧ target = 2) ∨ (st.lc = 2 ∧ (target = 3 ∨ target = 4)) ∨ (st.lc = 3 ∧ target = 4)
    (st.lc ≠ 4 → st.fails ≠ 3 ∨ st.recovery = true →
      Completes .coldStart s (starts false) ∧ (st.phase = 2 → Completes .warmStart s (starts true))) ∧
    (st.lc = 4 ∨ (st.fails = 3 ∧ st.recovery = false) →
      Completes .coldStart s fun t => boot t ∧ t.pkg.start.phase = 3 ∧ t.pkg.start.fails = st.fails) ∧
    (st.phase ≠ 2 → exec .warmStart s = .next s ∧ exec (.lcreq v) s = .next s) ∧
    (Completes .powerLoss s fun t => boot t ∧ t.pkg.start.powered = false ∧ t.pkg.start.phase = 0 ∧ t.pkg.start.fails = st.fails ∧
      t.pkg.meters = (s.pkg.images.head?.map (·.2)).getD [] ∧ (outside a = false → romAt a = false → byteAt t a = initByte a)) ∧
    (st.phase = 2 →
      ((∃ p ∈ s.parts, p.2.active = true) → Completes (.lcreq v) s fun t => done t 3 ∧ SameMemory s t) ∧
      ((∀ p ∈ s.parts, p.2.active = false) → Completes (.lcreq v) s fun t => t.fibres = s.fibres ∧
        (¬ genuine ∨ ¬ allowed ∨ target ≠ 4 → SameMemory s t) ∧
        (genuine → allowed → target = 4 → (outside a = true → byteAt t a = byteAt s a) ∧ (1 ≤ paKind a → paKind a ≤ 4 → byteAt t a = 0)) ∧
        (¬ genuine → done t 1) ∧ (genuine → ¬ allowed → done t 2) ∧
        (genuine → allowed → t.pkg.start.lc = target ∧ t.pkg.start.lcst = 0 ∧ (s.clock, .coldStart) ∈ t.agenda)))

/-! ## The step, decoding and invariants -/

/-- R64, R68, R260, R362, R365, R345: with no input and no event to come before it, the next core in turn issues the word at
PC of the fibre that it picks: from the fetch buffer, or from its own store, which fills the buffer with the word's line. The
step is what that instruction does in that state, in which the core has issued the slot and counted the instruction; a word
that is no instruction traps. That a step is one issue in this order is the model's form (log 4), and that a service core's
refill does not park is its reading (log 13). -/
def Obligations.StepRunsDecoded : Prop :=
  ∀ (s : State) (c : CoreId) (cs : List CoreId) (slot pa : Nat) (i : Instr) (rest : List Byte) (h : Home) (e : DecodeError),
    let f : FibreRef := ⟨c, slot⟩
    let x := s.fib f
    let u := { s with todo := cs }.issueState c slot
    let word' := State.bufWord x x.pc.toNat
    s.inputs = [] → s.pkg.start.powered = true → (∀ a ∈ s.agenda, s.clock < a.1) → s.opened = s.clock → s.semWork = [] →
    s.todo = c :: cs → s.pick c = some slot → (x.trap = true ∨ x.again = true ∨ (x.pendFault = none ∧ x.pendStop = false)) →
    x.pendUe = false → (s.breakpoint c x.pc.toNat = false ∨ (s.core c).halted = true) → s.fetchCheck f = .ok h →
      (State.inBuffer x x.pc.toNat = true →
        (decode word' = .ok (i, rest) → step s = exec i u.issued) ∧
        (decode word' = .error e → step s = .next (u.issued.badWord e))) ∧
      (State.inBuffer x x.pc.toNat = false → h = .mem pa → State.localCode c h = true → s.readError pa 4 = none → x.pc.toNat % 4 = 0 →
        (decode (s.readBytes pa 4) = .ok (i, rest) → step s = exec i (u.refill f pa).issued) ∧
        (decode (s.readBytes pa 4) = .error e → step s = .next ((u.refill f pa).issued.badWord e)))

/-- R369 to R384 and the encoding tables: words written out from the encodings, and the instructions that they stand for. -/
def Obligations.DecodesKnownWords : Prop :=
  decodeWord 0x04A60000 = .ok (.add 1 2 3) ∧
  decodeWord 0x04A08004 = .ok (.clz 1 2 2) ∧
  decodeWord 0x06EE7001 = .ok (.div 5 6 7 1) ∧
  decodeWord 0x08900678 = .ok (.addi 1 1 0x678) ∧
  decodeWord 0x34280302 = .ok (.amoRed 1 2 0 1 2) ∧
  decodeWord 0x3983FFFD = .ok (.bcc 3 0 1 0x1FFFD) ∧
  decodeWord 0x6C001205 = .ok (.brk 0x12) ∧
  decodeWord 0x50800005 = .ok (.bara 1 5) ∧
  decodeWord 0x5180104C = .ok (.sempTry 3 12) ∧
  decodeWord 0x80221820 = .ok (.vadd 1 2 3 2 0)

/-- The model's own form of memory (log 1) at reset: every byte that memory lists is listed once, in rising order, and
differs from what an unlisted byte reads as. -/
def Obligations.ResetInvariant : Prop := State.reset.MemOk

/-- The canonical form of memory (log 1) is kept by every step, whatever the instruction or event. It is the model's own. -/
def Obligations.StepKeepsMemory : Prop := ∀ s t : State, s.MemOk → step s = .next t → t.MemOk

/-- R362 to R387: the word of a well-formed instruction decodes to that instruction, with every operand at every value that
its encoding admits. -/
def Obligations.EncodeDecode : Prop :=
  ∀ (i : Instr) (w : BitVec 32), i.wellFormed = true → encode i = some w → decodeWord w.toNat = .ok i

/-- R362, R365: a word that decodes is the word of the instruction that it decodes to: no bit of it is ignored. -/
def Obligations.DecodeIsExact : Prop :=
  ∀ (w : BitVec 32) (i : Instr), decodeWord w.toNat = .ok i → encode i = some w
end

