-- ==== Sys2Proof/Laws/Crypto.lean ====
section
/-! SUPPORT. The lengths of digests: SHA-256 and HMAC give 32 bytes whatever they are given. -/

namespace Sys2Proof.Machine

theorem leBytes_length (n v : Nat) : (leBytes n v).length = n := by
  induction n generalizing v with
  | zero => rfl
  | succ n ih => rw [leBytes, List.length_cons, ih]

theorem beBytes_length (n v : Nat) : (beBytes n v).length = n := by
  rw [beBytes, List.length_reverse, leBytes_length]

theorem shaRound_length (v : List W32) (k : W32) : (shaRound v k).length = v.length := by
  unfold shaRound
  split <;> rfl

theorem shaBlock_length (h : List W32) (bs : List Byte) : (shaBlock h bs).length = h.length := by
  have f : ∀ (l v : List W32), (l.foldl shaRound v).length = v.length := by
    intro l
    induction l with
    | nil => intro v; rfl
    | cons k l ih => intro v; rw [List.foldl_cons, ih, shaRound_length]
  simp [shaBlock, f]

theorem shaBlocks_length (n : Nat) (h : List W32) (bs : List Byte) : (shaBlocks n h bs).length = h.length := by
  induction n generalizing h bs with
  | zero => rfl
  | succ n ih => rw [shaBlocks, ih, shaBlock_length]

theorem shaOut_length (h : List W32) : (shaOut h).length = 4 * h.length := by
  induction h with
  | nil => rfl
  | cons x h ih =>
    rw [shaOut, List.flatMap_cons, List.length_append, beBytes_length, List.length_cons]
    show 4 + (shaOut h).length = _
    omega

@[simp] theorem sha256_length (bs : List Byte) : (sha256 bs).length = 32 := by
  rw [sha256, shaOut_length, shaBlocks_length]
  rfl

@[simp] theorem hmac_length (key m : List Byte) : (hmac key m).length = 32 := sha256_length _

end Sys2Proof.Machine
end

