-- ==== Sys2Proof/Laws/Table.lean ====
section
/-! SUPPORT. The laws of sparse tables and of register lists: what a read gives after a write. -/

namespace Sys2Proof.Machine

variable {α β γ : Type} [DecidableEq α]

@[simp] theorem tget_tset_same (d : β) (t : List (α × β)) (x : α) (y : β) : tget d (tset t x y) x = y := by
  induction t with
  | nil => simp [tset, tget]
  | cons p t ih =>
    obtain ⟨k, v⟩ := p
    by_cases h : k = x <;> simp [tset, tget, h, ih]

theorem tget_tset_ne (d : β) (t : List (α × β)) {x z : α} (y : β) (h : z ≠ x) : tget d (tset t x y) z = tget d t z := by
  induction t with
  | nil => simp [tset, tget, Ne.symm h]
  | cons p t ih =>
    obtain ⟨k, v⟩ := p
    by_cases hx : k = x
    · subst hx
      simp [tset, tget, Ne.symm h]
    · by_cases hz : k = z <;> simp [tset, tget, hx, hz, ih, h]

/-- A read after a write: the value written at its key, what was there elsewhere. -/
theorem tget_tset (d : β) (t : List (α × β)) (x z : α) (y : β) :
    tget d (tset t x y) z = if z = x then y else tget d t z := by
  by_cases h : z = x
  · simp [h]
  · simp [h, tget_tset_ne]

@[simp] theorem tset_tset (t : List (α × β)) (x : α) (y z : β) : tset (tset t x y) x z = tset t x z := by
  induction t with
  | nil => simp [tset]
  | cons p t ih =>
    obtain ⟨k, v⟩ := p
    by_cases h : k = x <;> simp [tset, h, ih]

@[simp] theorem tget_tmod_same (d : β) (t : List (α × β)) (x : α) (f : β → β) :
    tget d (tmod d t x f) x = f (tget d t x) := by simp [tmod]

theorem tget_tmod_ne (d : β) (t : List (α × β)) {x z : α} (f : β → β) (h : z ≠ x) :
    tget d (tmod d t x f) z = tget d t z := by simp [tmod, tget_tset_ne, h]

@[simp] theorem tfind_tset_same (t : List (α × β)) (x : α) (y : β) : tfind (tset t x y) x = some y := by
  induction t with
  | nil => simp [tset, tfind]
  | cons p t ih =>
    obtain ⟨k, v⟩ := p
    by_cases h : k = x <;> simp [tset, tfind, h, ih]

theorem tfind_tset_ne (t : List (α × β)) {x z : α} (y : β) (h : z ≠ x) : tfind (tset t x y) z = tfind t z := by
  induction t with
  | nil => simp [tset, tfind, Ne.symm h]
  | cons p t ih =>
    obtain ⟨k, v⟩ := p
    by_cases hx : k = x
    · subst hx
      simp [tset, tfind, Ne.symm h]
    · by_cases hz : k = z <;> simp [tset, tfind, hx, hz, ih, h]

@[simp] theorem tfind_tdel_same (t : List (α × β)) (x : α) : tfind (tdel t x) x = none := by
  induction t with
  | nil => rfl
  | cons p t ih =>
    obtain ⟨k, v⟩ := p
    by_cases h : k = x <;> simp [tdel, tfind, h, ih]

theorem tfind_tdel_ne (t : List (α × β)) {x z : α} (h : z ≠ x) : tfind (tdel t x) z = tfind t z := by
  induction t with
  | nil => rfl
  | cons p t ih =>
    obtain ⟨k, v⟩ := p
    by_cases hx : k = x
    · subst hx
      simp [tdel, tfind, Ne.symm h, ih]
    · by_cases hz : k = z <;> simp [tdel, tfind, hx, hz, ih, h]

@[simp] theorem length_lset (l : List γ) (n : Nat) (y : γ) : (lset l n y).length = l.length := by
  induction l generalizing n with
  | nil => simp [lset]
  | cons x l ih => cases n <;> simp [lset, ih]

theorem lget_lset_same (d : γ) (l : List γ) (n : Nat) (y : γ) (h : n < l.length) : lget d (lset l n y) n = y := by
  induction l generalizing n with
  | nil => simp at h
  | cons x l ih =>
    cases n with
    | zero => rfl
    | succ n => simpa [lset, lget] using ih n (by simpa using h)

theorem lget_lset_ne (d : γ) (l : List γ) {n m : Nat} (y : γ) (h : m ≠ n) : lget d (lset l n y) m = lget d l m := by
  induction l generalizing n m with
  | nil => simp [lset]
  | cons x l ih =>
    cases n with
    | zero =>
      cases m with
      | zero => exact absurd rfl h
      | succ m => simp [lset, lget]
    | succ n =>
      cases m with
      | zero => simp [lset, lget]
      | succ m => simpa [lset, lget] using ih (by simpa using h)

@[simp] theorem lset_lset (l : List γ) (n : Nat) (y z : γ) : lset (lset l n y) n z = lset l n z := by
  induction l generalizing n with
  | nil => simp [lset]
  | cons x l ih => cases n <;> simp [lset, ih]

end Sys2Proof.Machine
end

