-- ==== Sys2Proof/Laws/State.lean ====
section
/-! SUPPORT. One law for each field of the state and each of its updates: an update changes its own field and no other; and
what a read of a register file, a table or the package gives after a write. -/

namespace Sys2Proof.Machine.State

variable (s : State)

/-! ## setFib -/

@[simp] theorem setFib_clock (f : FibreRef) (x : Fibre) : (s.setFib f x).clock = s.clock := rfl
@[simp] theorem setFib_inputs (f : FibreRef) (x : Fibre) : (s.setFib f x).inputs = s.inputs := rfl
@[simp] theorem setFib_agenda (f : FibreRef) (x : Fibre) : (s.setFib f x).agenda = s.agenda := rfl
@[simp] theorem setFib_todo (f : FibreRef) (x : Fibre) : (s.setFib f x).todo = s.todo := rfl
@[simp] theorem setFib_opened (f : FibreRef) (x : Fibre) : (s.setFib f x).opened = s.opened := rfl
@[simp] theorem setFib_cur (f : FibreRef) (x : Fibre) : (s.setFib f x).cur = s.cur := rfl
@[simp] theorem setFib_fresh (f : FibreRef) (x : Fibre) : (s.setFib f x).fresh = s.fresh := rfl
@[simp] theorem setFib_nextId (f : FibreRef) (x : Fibre) : (s.setFib f x).nextId = s.nextId := rfl
@[simp] theorem setFib_cores (f : FibreRef) (x : Fibre) : (s.setFib f x).cores = s.cores := rfl
@[simp] theorem setFib_tiles (f : FibreRef) (x : Fibre) : (s.setFib f x).tiles = s.tiles := rfl
@[simp] theorem setFib_gangs (f : FibreRef) (x : Fibre) : (s.setFib f x).gangs = s.gangs := rfl
@[simp] theorem setFib_clusters (f : FibreRef) (x : Fibre) : (s.setFib f x).clusters = s.clusters := rfl
@[simp] theorem setFib_dies (f : FibreRef) (x : Fibre) : (s.setFib f x).dies = s.dies := rfl
@[simp] theorem setFib_parts (f : FibreRef) (x : Fibre) : (s.setFib f x).parts = s.parts := rfl
@[simp] theorem setFib_mem (f : FibreRef) (x : Fibre) : (s.setFib f x).mem = s.mem := rfl
@[simp] theorem setFib_tags (f : FibreRef) (x : Fibre) : (s.setFib f x).tags = s.tags := rfl
@[simp] theorem setFib_poison (f : FibreRef) (x : Fibre) : (s.setFib f x).poison = s.poison := rfl
@[simp] theorem setFib_errors (f : FibreRef) (x : Fibre) : (s.setFib f x).errors = s.errors := rfl
@[simp] theorem setFib_flight (f : FibreRef) (x : Fibre) : (s.setFib f x).flight = s.flight := rfl
@[simp] theorem setFib_messages (f : FibreRef) (x : Fibre) : (s.setFib f x).messages = s.messages := rfl
@[simp] theorem setFib_moves (f : FibreRef) (x : Fibre) : (s.setFib f x).moves = s.moves := rfl
@[simp] theorem setFib_subs (f : FibreRef) (x : Fibre) : (s.setFib f x).subs = s.subs := rfl
@[simp] theorem setFib_queries (f : FibreRef) (x : Fibre) : (s.setFib f x).queries = s.queries := rfl
@[simp] theorem setFib_walkers (f : FibreRef) (x : Fibre) : (s.setFib f x).walkers = s.walkers := rfl
@[simp] theorem setFib_semWork (f : FibreRef) (x : Fibre) : (s.setFib f x).semWork = s.semWork := rfl
@[simp] theorem setFib_semOld (f : FibreRef) (x : Fibre) : (s.setFib f x).semOld = s.semOld := rfl
@[simp] theorem setFib_pkg (f : FibreRef) (x : Fibre) : (s.setFib f x).pkg = s.pkg := rfl

/-! ## setCore -/

@[simp] theorem setCore_clock (c : CoreId) (x : Core) : (s.setCore c x).clock = s.clock := rfl
@[simp] theorem setCore_inputs (c : CoreId) (x : Core) : (s.setCore c x).inputs = s.inputs := rfl
@[simp] theorem setCore_agenda (c : CoreId) (x : Core) : (s.setCore c x).agenda = s.agenda := rfl
@[simp] theorem setCore_todo (c : CoreId) (x : Core) : (s.setCore c x).todo = s.todo := rfl
@[simp] theorem setCore_opened (c : CoreId) (x : Core) : (s.setCore c x).opened = s.opened := rfl
@[simp] theorem setCore_cur (c : CoreId) (x : Core) : (s.setCore c x).cur = s.cur := rfl
@[simp] theorem setCore_fresh (c : CoreId) (x : Core) : (s.setCore c x).fresh = s.fresh := rfl
@[simp] theorem setCore_nextId (c : CoreId) (x : Core) : (s.setCore c x).nextId = s.nextId := rfl
@[simp] theorem setCore_fibres (c : CoreId) (x : Core) : (s.setCore c x).fibres = s.fibres := rfl
@[simp] theorem setCore_tiles (c : CoreId) (x : Core) : (s.setCore c x).tiles = s.tiles := rfl
@[simp] theorem setCore_gangs (c : CoreId) (x : Core) : (s.setCore c x).gangs = s.gangs := rfl
@[simp] theorem setCore_clusters (c : CoreId) (x : Core) : (s.setCore c x).clusters = s.clusters := rfl
@[simp] theorem setCore_dies (c : CoreId) (x : Core) : (s.setCore c x).dies = s.dies := rfl
@[simp] theorem setCore_parts (c : CoreId) (x : Core) : (s.setCore c x).parts = s.parts := rfl
@[simp] theorem setCore_mem (c : CoreId) (x : Core) : (s.setCore c x).mem = s.mem := rfl
@[simp] theorem setCore_tags (c : CoreId) (x : Core) : (s.setCore c x).tags = s.tags := rfl
@[simp] theorem setCore_poison (c : CoreId) (x : Core) : (s.setCore c x).poison = s.poison := rfl
@[simp] theorem setCore_errors (c : CoreId) (x : Core) : (s.setCore c x).errors = s.errors := rfl
@[simp] theorem setCore_flight (c : CoreId) (x : Core) : (s.setCore c x).flight = s.flight := rfl
@[simp] theorem setCore_messages (c : CoreId) (x : Core) : (s.setCore c x).messages = s.messages := rfl
@[simp] theorem setCore_moves (c : CoreId) (x : Core) : (s.setCore c x).moves = s.moves := rfl
@[simp] theorem setCore_subs (c : CoreId) (x : Core) : (s.setCore c x).subs = s.subs := rfl
@[simp] theorem setCore_queries (c : CoreId) (x : Core) : (s.setCore c x).queries = s.queries := rfl
@[simp] theorem setCore_walkers (c : CoreId) (x : Core) : (s.setCore c x).walkers = s.walkers := rfl
@[simp] theorem setCore_semWork (c : CoreId) (x : Core) : (s.setCore c x).semWork = s.semWork := rfl
@[simp] theorem setCore_semOld (c : CoreId) (x : Core) : (s.setCore c x).semOld = s.semOld := rfl
@[simp] theorem setCore_pkg (c : CoreId) (x : Core) : (s.setCore c x).pkg = s.pkg := rfl

/-! ## setTile -/

@[simp] theorem setTile_clock (n : Nat) (x : Tile) : (s.setTile n x).clock = s.clock := rfl
@[simp] theorem setTile_inputs (n : Nat) (x : Tile) : (s.setTile n x).inputs = s.inputs := rfl
@[simp] theorem setTile_agenda (n : Nat) (x : Tile) : (s.setTile n x).agenda = s.agenda := rfl
@[simp] theorem setTile_todo (n : Nat) (x : Tile) : (s.setTile n x).todo = s.todo := rfl
@[simp] theorem setTile_opened (n : Nat) (x : Tile) : (s.setTile n x).opened = s.opened := rfl
@[simp] theorem setTile_cur (n : Nat) (x : Tile) : (s.setTile n x).cur = s.cur := rfl
@[simp] theorem setTile_fresh (n : Nat) (x : Tile) : (s.setTile n x).fresh = s.fresh := rfl
@[simp] theorem setTile_nextId (n : Nat) (x : Tile) : (s.setTile n x).nextId = s.nextId := rfl
@[simp] theorem setTile_fibres (n : Nat) (x : Tile) : (s.setTile n x).fibres = s.fibres := rfl
@[simp] theorem setTile_cores (n : Nat) (x : Tile) : (s.setTile n x).cores = s.cores := rfl
@[simp] theorem setTile_gangs (n : Nat) (x : Tile) : (s.setTile n x).gangs = s.gangs := rfl
@[simp] theorem setTile_clusters (n : Nat) (x : Tile) : (s.setTile n x).clusters = s.clusters := rfl
@[simp] theorem setTile_dies (n : Nat) (x : Tile) : (s.setTile n x).dies = s.dies := rfl
@[simp] theorem setTile_parts (n : Nat) (x : Tile) : (s.setTile n x).parts = s.parts := rfl
@[simp] theorem setTile_mem (n : Nat) (x : Tile) : (s.setTile n x).mem = s.mem := rfl
@[simp] theorem setTile_tags (n : Nat) (x : Tile) : (s.setTile n x).tags = s.tags := rfl
@[simp] theorem setTile_poison (n : Nat) (x : Tile) : (s.setTile n x).poison = s.poison := rfl
@[simp] theorem setTile_errors (n : Nat) (x : Tile) : (s.setTile n x).errors = s.errors := rfl
@[simp] theorem setTile_flight (n : Nat) (x : Tile) : (s.setTile n x).flight = s.flight := rfl
@[simp] theorem setTile_messages (n : Nat) (x : Tile) : (s.setTile n x).messages = s.messages := rfl
@[simp] theorem setTile_moves (n : Nat) (x : Tile) : (s.setTile n x).moves = s.moves := rfl
@[simp] theorem setTile_subs (n : Nat) (x : Tile) : (s.setTile n x).subs = s.subs := rfl
@[simp] theorem setTile_queries (n : Nat) (x : Tile) : (s.setTile n x).queries = s.queries := rfl
@[simp] theorem setTile_walkers (n : Nat) (x : Tile) : (s.setTile n x).walkers = s.walkers := rfl
@[simp] theorem setTile_semWork (n : Nat) (x : Tile) : (s.setTile n x).semWork = s.semWork := rfl
@[simp] theorem setTile_semOld (n : Nat) (x : Tile) : (s.setTile n x).semOld = s.semOld := rfl
@[simp] theorem setTile_pkg (n : Nat) (x : Tile) : (s.setTile n x).pkg = s.pkg := rfl

/-! ## setGang -/

@[simp] theorem setGang_clock (n : Nat) (x : Gang) : (s.setGang n x).clock = s.clock := rfl
@[simp] theorem setGang_inputs (n : Nat) (x : Gang) : (s.setGang n x).inputs = s.inputs := rfl
@[simp] theorem setGang_agenda (n : Nat) (x : Gang) : (s.setGang n x).agenda = s.agenda := rfl
@[simp] theorem setGang_todo (n : Nat) (x : Gang) : (s.setGang n x).todo = s.todo := rfl
@[simp] theorem setGang_opened (n : Nat) (x : Gang) : (s.setGang n x).opened = s.opened := rfl
@[simp] theorem setGang_cur (n : Nat) (x : Gang) : (s.setGang n x).cur = s.cur := rfl
@[simp] theorem setGang_fresh (n : Nat) (x : Gang) : (s.setGang n x).fresh = s.fresh := rfl
@[simp] theorem setGang_nextId (n : Nat) (x : Gang) : (s.setGang n x).nextId = s.nextId := rfl
@[simp] theorem setGang_fibres (n : Nat) (x : Gang) : (s.setGang n x).fibres = s.fibres := rfl
@[simp] theorem setGang_cores (n : Nat) (x : Gang) : (s.setGang n x).cores = s.cores := rfl
@[simp] theorem setGang_tiles (n : Nat) (x : Gang) : (s.setGang n x).tiles = s.tiles := rfl
@[simp] theorem setGang_clusters (n : Nat) (x : Gang) : (s.setGang n x).clusters = s.clusters := rfl
@[simp] theorem setGang_dies (n : Nat) (x : Gang) : (s.setGang n x).dies = s.dies := rfl
@[simp] theorem setGang_parts (n : Nat) (x : Gang) : (s.setGang n x).parts = s.parts := rfl
@[simp] theorem setGang_mem (n : Nat) (x : Gang) : (s.setGang n x).mem = s.mem := rfl
@[simp] theorem setGang_tags (n : Nat) (x : Gang) : (s.setGang n x).tags = s.tags := rfl
@[simp] theorem setGang_poison (n : Nat) (x : Gang) : (s.setGang n x).poison = s.poison := rfl
@[simp] theorem setGang_errors (n : Nat) (x : Gang) : (s.setGang n x).errors = s.errors := rfl
@[simp] theorem setGang_flight (n : Nat) (x : Gang) : (s.setGang n x).flight = s.flight := rfl
@[simp] theorem setGang_messages (n : Nat) (x : Gang) : (s.setGang n x).messages = s.messages := rfl
@[simp] theorem setGang_moves (n : Nat) (x : Gang) : (s.setGang n x).moves = s.moves := rfl
@[simp] theorem setGang_subs (n : Nat) (x : Gang) : (s.setGang n x).subs = s.subs := rfl
@[simp] theorem setGang_queries (n : Nat) (x : Gang) : (s.setGang n x).queries = s.queries := rfl
@[simp] theorem setGang_walkers (n : Nat) (x : Gang) : (s.setGang n x).walkers = s.walkers := rfl
@[simp] theorem setGang_semWork (n : Nat) (x : Gang) : (s.setGang n x).semWork = s.semWork := rfl
@[simp] theorem setGang_semOld (n : Nat) (x : Gang) : (s.setGang n x).semOld = s.semOld := rfl
@[simp] theorem setGang_pkg (n : Nat) (x : Gang) : (s.setGang n x).pkg = s.pkg := rfl

/-! ## modCluster -/

@[simp] theorem modCluster_clock (n : Nat) (h : Cluster → Cluster) : (s.modCluster n h).clock = s.clock := rfl
@[simp] theorem modCluster_inputs (n : Nat) (h : Cluster → Cluster) : (s.modCluster n h).inputs = s.inputs := rfl
@[simp] theorem modCluster_agenda (n : Nat) (h : Cluster → Cluster) : (s.modCluster n h).agenda = s.agenda := rfl
@[simp] theorem modCluster_todo (n : Nat) (h : Cluster → Cluster) : (s.modCluster n h).todo = s.todo := rfl
@[simp] theorem modCluster_opened (n : Nat) (h : Cluster → Cluster) : (s.modCluster n h).opened = s.opened := rfl
@[simp] theorem modCluster_cur (n : Nat) (h : Cluster → Cluster) : (s.modCluster n h).cur = s.cur := rfl
@[simp] theorem modCluster_fresh (n : Nat) (h : Cluster → Cluster) : (s.modCluster n h).fresh = s.fresh := rfl
@[simp] theorem modCluster_nextId (n : Nat) (h : Cluster → Cluster) : (s.modCluster n h).nextId = s.nextId := rfl
@[simp] theorem modCluster_fibres (n : Nat) (h : Cluster → Cluster) : (s.modCluster n h).fibres = s.fibres := rfl
@[simp] theorem modCluster_cores (n : Nat) (h : Cluster → Cluster) : (s.modCluster n h).cores = s.cores := rfl
@[simp] theorem modCluster_tiles (n : Nat) (h : Cluster → Cluster) : (s.modCluster n h).tiles = s.tiles := rfl
@[simp] theorem modCluster_gangs (n : Nat) (h : Cluster → Cluster) : (s.modCluster n h).gangs = s.gangs := rfl
@[simp] theorem modCluster_dies (n : Nat) (h : Cluster → Cluster) : (s.modCluster n h).dies = s.dies := rfl
@[simp] theorem modCluster_parts (n : Nat) (h : Cluster → Cluster) : (s.modCluster n h).parts = s.parts := rfl
@[simp] theorem modCluster_mem (n : Nat) (h : Cluster → Cluster) : (s.modCluster n h).mem = s.mem := rfl
@[simp] theorem modCluster_tags (n : Nat) (h : Cluster → Cluster) : (s.modCluster n h).tags = s.tags := rfl
@[simp] theorem modCluster_poison (n : Nat) (h : Cluster → Cluster) : (s.modCluster n h).poison = s.poison := rfl
@[simp] theorem modCluster_errors (n : Nat) (h : Cluster → Cluster) : (s.modCluster n h).errors = s.errors := rfl
@[simp] theorem modCluster_flight (n : Nat) (h : Cluster → Cluster) : (s.modCluster n h).flight = s.flight := rfl
@[simp] theorem modCluster_messages (n : Nat) (h : Cluster → Cluster) : (s.modCluster n h).messages = s.messages := rfl
@[simp] theorem modCluster_moves (n : Nat) (h : Cluster → Cluster) : (s.modCluster n h).moves = s.moves := rfl
@[simp] theorem modCluster_subs (n : Nat) (h : Cluster → Cluster) : (s.modCluster n h).subs = s.subs := rfl
@[simp] theorem modCluster_queries (n : Nat) (h : Cluster → Cluster) : (s.modCluster n h).queries = s.queries := rfl
@[simp] theorem modCluster_walkers (n : Nat) (h : Cluster → Cluster) : (s.modCluster n h).walkers = s.walkers := rfl
@[simp] theorem modCluster_semWork (n : Nat) (h : Cluster → Cluster) : (s.modCluster n h).semWork = s.semWork := rfl
@[simp] theorem modCluster_semOld (n : Nat) (h : Cluster → Cluster) : (s.modCluster n h).semOld = s.semOld := rfl
@[simp] theorem modCluster_pkg (n : Nat) (h : Cluster → Cluster) : (s.modCluster n h).pkg = s.pkg := rfl

/-! ## setDie -/

@[simp] theorem setDie_clock (n : Nat) (x : Die) : (s.setDie n x).clock = s.clock := rfl
@[simp] theorem setDie_inputs (n : Nat) (x : Die) : (s.setDie n x).inputs = s.inputs := rfl
@[simp] theorem setDie_agenda (n : Nat) (x : Die) : (s.setDie n x).agenda = s.agenda := rfl
@[simp] theorem setDie_todo (n : Nat) (x : Die) : (s.setDie n x).todo = s.todo := rfl
@[simp] theorem setDie_opened (n : Nat) (x : Die) : (s.setDie n x).opened = s.opened := rfl
@[simp] theorem setDie_cur (n : Nat) (x : Die) : (s.setDie n x).cur = s.cur := rfl
@[simp] theorem setDie_fresh (n : Nat) (x : Die) : (s.setDie n x).fresh = s.fresh := rfl
@[simp] theorem setDie_nextId (n : Nat) (x : Die) : (s.setDie n x).nextId = s.nextId := rfl
@[simp] theorem setDie_fibres (n : Nat) (x : Die) : (s.setDie n x).fibres = s.fibres := rfl
@[simp] theorem setDie_cores (n : Nat) (x : Die) : (s.setDie n x).cores = s.cores := rfl
@[simp] theorem setDie_tiles (n : Nat) (x : Die) : (s.setDie n x).tiles = s.tiles := rfl
@[simp] theorem setDie_gangs (n : Nat) (x : Die) : (s.setDie n x).gangs = s.gangs := rfl
@[simp] theorem setDie_clusters (n : Nat) (x : Die) : (s.setDie n x).clusters = s.clusters := rfl
@[simp] theorem setDie_parts (n : Nat) (x : Die) : (s.setDie n x).parts = s.parts := rfl
@[simp] theorem setDie_mem (n : Nat) (x : Die) : (s.setDie n x).mem = s.mem := rfl
@[simp] theorem setDie_tags (n : Nat) (x : Die) : (s.setDie n x).tags = s.tags := rfl
@[simp] theorem setDie_poison (n : Nat) (x : Die) : (s.setDie n x).poison = s.poison := rfl
@[simp] theorem setDie_errors (n : Nat) (x : Die) : (s.setDie n x).errors = s.errors := rfl
@[simp] theorem setDie_flight (n : Nat) (x : Die) : (s.setDie n x).flight = s.flight := rfl
@[simp] theorem setDie_messages (n : Nat) (x : Die) : (s.setDie n x).messages = s.messages := rfl
@[simp] theorem setDie_moves (n : Nat) (x : Die) : (s.setDie n x).moves = s.moves := rfl
@[simp] theorem setDie_subs (n : Nat) (x : Die) : (s.setDie n x).subs = s.subs := rfl
@[simp] theorem setDie_queries (n : Nat) (x : Die) : (s.setDie n x).queries = s.queries := rfl
@[simp] theorem setDie_walkers (n : Nat) (x : Die) : (s.setDie n x).walkers = s.walkers := rfl
@[simp] theorem setDie_semWork (n : Nat) (x : Die) : (s.setDie n x).semWork = s.semWork := rfl
@[simp] theorem setDie_semOld (n : Nat) (x : Die) : (s.setDie n x).semOld = s.semOld := rfl
@[simp] theorem setDie_pkg (n : Nat) (x : Die) : (s.setDie n x).pkg = s.pkg := rfl

/-! ## setPart -/

@[simp] theorem setPart_clock (n : Nat) (x : Part) : (s.setPart n x).clock = s.clock := rfl
@[simp] theorem setPart_inputs (n : Nat) (x : Part) : (s.setPart n x).inputs = s.inputs := rfl
@[simp] theorem setPart_agenda (n : Nat) (x : Part) : (s.setPart n x).agenda = s.agenda := rfl
@[simp] theorem setPart_todo (n : Nat) (x : Part) : (s.setPart n x).todo = s.todo := rfl
@[simp] theorem setPart_opened (n : Nat) (x : Part) : (s.setPart n x).opened = s.opened := rfl
@[simp] theorem setPart_cur (n : Nat) (x : Part) : (s.setPart n x).cur = s.cur := rfl
@[simp] theorem setPart_fresh (n : Nat) (x : Part) : (s.setPart n x).fresh = s.fresh := rfl
@[simp] theorem setPart_nextId (n : Nat) (x : Part) : (s.setPart n x).nextId = s.nextId := rfl
@[simp] theorem setPart_fibres (n : Nat) (x : Part) : (s.setPart n x).fibres = s.fibres := rfl
@[simp] theorem setPart_cores (n : Nat) (x : Part) : (s.setPart n x).cores = s.cores := rfl
@[simp] theorem setPart_tiles (n : Nat) (x : Part) : (s.setPart n x).tiles = s.tiles := rfl
@[simp] theorem setPart_gangs (n : Nat) (x : Part) : (s.setPart n x).gangs = s.gangs := rfl
@[simp] theorem setPart_clusters (n : Nat) (x : Part) : (s.setPart n x).clusters = s.clusters := rfl
@[simp] theorem setPart_dies (n : Nat) (x : Part) : (s.setPart n x).dies = s.dies := rfl
@[simp] theorem setPart_mem (n : Nat) (x : Part) : (s.setPart n x).mem = s.mem := rfl
@[simp] theorem setPart_tags (n : Nat) (x : Part) : (s.setPart n x).tags = s.tags := rfl
@[simp] theorem setPart_poison (n : Nat) (x : Part) : (s.setPart n x).poison = s.poison := rfl
@[simp] theorem setPart_errors (n : Nat) (x : Part) : (s.setPart n x).errors = s.errors := rfl
@[simp] theorem setPart_flight (n : Nat) (x : Part) : (s.setPart n x).flight = s.flight := rfl
@[simp] theorem setPart_messages (n : Nat) (x : Part) : (s.setPart n x).messages = s.messages := rfl
@[simp] theorem setPart_moves (n : Nat) (x : Part) : (s.setPart n x).moves = s.moves := rfl
@[simp] theorem setPart_subs (n : Nat) (x : Part) : (s.setPart n x).subs = s.subs := rfl
@[simp] theorem setPart_queries (n : Nat) (x : Part) : (s.setPart n x).queries = s.queries := rfl
@[simp] theorem setPart_walkers (n : Nat) (x : Part) : (s.setPart n x).walkers = s.walkers := rfl
@[simp] theorem setPart_semWork (n : Nat) (x : Part) : (s.setPart n x).semWork = s.semWork := rfl
@[simp] theorem setPart_semOld (n : Nat) (x : Part) : (s.setPart n x).semOld = s.semOld := rfl
@[simp] theorem setPart_pkg (n : Nat) (x : Part) : (s.setPart n x).pkg = s.pkg := rfl

/-! ## modPkg -/

@[simp] theorem modPkg_clock (h : Package → Package) : (s.modPkg h).clock = s.clock := rfl
@[simp] theorem modPkg_inputs (h : Package → Package) : (s.modPkg h).inputs = s.inputs := rfl
@[simp] theorem modPkg_agenda (h : Package → Package) : (s.modPkg h).agenda = s.agenda := rfl
@[simp] theorem modPkg_todo (h : Package → Package) : (s.modPkg h).todo = s.todo := rfl
@[simp] theorem modPkg_opened (h : Package → Package) : (s.modPkg h).opened = s.opened := rfl
@[simp] theorem modPkg_cur (h : Package → Package) : (s.modPkg h).cur = s.cur := rfl
@[simp] theorem modPkg_fresh (h : Package → Package) : (s.modPkg h).fresh = s.fresh := rfl
@[simp] theorem modPkg_nextId (h : Package → Package) : (s.modPkg h).nextId = s.nextId := rfl
@[simp] theorem modPkg_fibres (h : Package → Package) : (s.modPkg h).fibres = s.fibres := rfl
@[simp] theorem modPkg_cores (h : Package → Package) : (s.modPkg h).cores = s.cores := rfl
@[simp] theorem modPkg_tiles (h : Package → Package) : (s.modPkg h).tiles = s.tiles := rfl
@[simp] theorem modPkg_gangs (h : Package → Package) : (s.modPkg h).gangs = s.gangs := rfl
@[simp] theorem modPkg_clusters (h : Package → Package) : (s.modPkg h).clusters = s.clusters := rfl
@[simp] theorem modPkg_dies (h : Package → Package) : (s.modPkg h).dies = s.dies := rfl
@[simp] theorem modPkg_parts (h : Package → Package) : (s.modPkg h).parts = s.parts := rfl
@[simp] theorem modPkg_mem (h : Package → Package) : (s.modPkg h).mem = s.mem := rfl
@[simp] theorem modPkg_tags (h : Package → Package) : (s.modPkg h).tags = s.tags := rfl
@[simp] theorem modPkg_poison (h : Package → Package) : (s.modPkg h).poison = s.poison := rfl
@[simp] theorem modPkg_errors (h : Package → Package) : (s.modPkg h).errors = s.errors := rfl
@[simp] theorem modPkg_flight (h : Package → Package) : (s.modPkg h).flight = s.flight := rfl
@[simp] theorem modPkg_messages (h : Package → Package) : (s.modPkg h).messages = s.messages := rfl
@[simp] theorem modPkg_moves (h : Package → Package) : (s.modPkg h).moves = s.moves := rfl
@[simp] theorem modPkg_subs (h : Package → Package) : (s.modPkg h).subs = s.subs := rfl
@[simp] theorem modPkg_queries (h : Package → Package) : (s.modPkg h).queries = s.queries := rfl
@[simp] theorem modPkg_walkers (h : Package → Package) : (s.modPkg h).walkers = s.walkers := rfl
@[simp] theorem modPkg_semWork (h : Package → Package) : (s.modPkg h).semWork = s.semWork := rfl
@[simp] theorem modPkg_semOld (h : Package → Package) : (s.modPkg h).semOld = s.semOld := rfl

/-! ## setAccess -/

@[simp] theorem setAccess_clock (n : Nat) (x : Access) : (s.setAccess n x).clock = s.clock := rfl
@[simp] theorem setAccess_inputs (n : Nat) (x : Access) : (s.setAccess n x).inputs = s.inputs := rfl
@[simp] theorem setAccess_agenda (n : Nat) (x : Access) : (s.setAccess n x).agenda = s.agenda := rfl
@[simp] theorem setAccess_todo (n : Nat) (x : Access) : (s.setAccess n x).todo = s.todo := rfl
@[simp] theorem setAccess_opened (n : Nat) (x : Access) : (s.setAccess n x).opened = s.opened := rfl
@[simp] theorem setAccess_cur (n : Nat) (x : Access) : (s.setAccess n x).cur = s.cur := rfl
@[simp] theorem setAccess_fresh (n : Nat) (x : Access) : (s.setAccess n x).fresh = s.fresh := rfl
@[simp] theorem setAccess_nextId (n : Nat) (x : Access) : (s.setAccess n x).nextId = s.nextId := rfl
@[simp] theorem setAccess_fibres (n : Nat) (x : Access) : (s.setAccess n x).fibres = s.fibres := rfl
@[simp] theorem setAccess_cores (n : Nat) (x : Access) : (s.setAccess n x).cores = s.cores := rfl
@[simp] theorem setAccess_tiles (n : Nat) (x : Access) : (s.setAccess n x).tiles = s.tiles := rfl
@[simp] theorem setAccess_gangs (n : Nat) (x : Access) : (s.setAccess n x).gangs = s.gangs := rfl
@[simp] theorem setAccess_clusters (n : Nat) (x : Access) : (s.setAccess n x).clusters = s.clusters := rfl
@[simp] theorem setAccess_dies (n : Nat) (x : Access) : (s.setAccess n x).dies = s.dies := rfl
@[simp] theorem setAccess_parts (n : Nat) (x : Access) : (s.setAccess n x).parts = s.parts := rfl
@[simp] theorem setAccess_mem (n : Nat) (x : Access) : (s.setAccess n x).mem = s.mem := rfl
@[simp] theorem setAccess_tags (n : Nat) (x : Access) : (s.setAccess n x).tags = s.tags := rfl
@[simp] theorem setAccess_poison (n : Nat) (x : Access) : (s.setAccess n x).poison = s.poison := rfl
@[simp] theorem setAccess_errors (n : Nat) (x : Access) : (s.setAccess n x).errors = s.errors := rfl
@[simp] theorem setAccess_messages (n : Nat) (x : Access) : (s.setAccess n x).messages = s.messages := rfl
@[simp] theorem setAccess_moves (n : Nat) (x : Access) : (s.setAccess n x).moves = s.moves := rfl
@[simp] theorem setAccess_subs (n : Nat) (x : Access) : (s.setAccess n x).subs = s.subs := rfl
@[simp] theorem setAccess_queries (n : Nat) (x : Access) : (s.setAccess n x).queries = s.queries := rfl
@[simp] theorem setAccess_walkers (n : Nat) (x : Access) : (s.setAccess n x).walkers = s.walkers := rfl
@[simp] theorem setAccess_semWork (n : Nat) (x : Access) : (s.setAccess n x).semWork = s.semWork := rfl
@[simp] theorem setAccess_semOld (n : Nat) (x : Access) : (s.setAccess n x).semOld = s.semOld := rfl
@[simp] theorem setAccess_pkg (n : Nat) (x : Access) : (s.setAccess n x).pkg = s.pkg := rfl

/-! ## dropAccess -/

@[simp] theorem dropAccess_clock (n : Nat) : (s.dropAccess n).clock = s.clock := rfl
@[simp] theorem dropAccess_inputs (n : Nat) : (s.dropAccess n).inputs = s.inputs := rfl
@[simp] theorem dropAccess_agenda (n : Nat) : (s.dropAccess n).agenda = s.agenda := rfl
@[simp] theorem dropAccess_todo (n : Nat) : (s.dropAccess n).todo = s.todo := rfl
@[simp] theorem dropAccess_opened (n : Nat) : (s.dropAccess n).opened = s.opened := rfl
@[simp] theorem dropAccess_cur (n : Nat) : (s.dropAccess n).cur = s.cur := rfl
@[simp] theorem dropAccess_fresh (n : Nat) : (s.dropAccess n).fresh = s.fresh := rfl
@[simp] theorem dropAccess_nextId (n : Nat) : (s.dropAccess n).nextId = s.nextId := rfl
@[simp] theorem dropAccess_fibres (n : Nat) : (s.dropAccess n).fibres = s.fibres := rfl
@[simp] theorem dropAccess_cores (n : Nat) : (s.dropAccess n).cores = s.cores := rfl
@[simp] theorem dropAccess_tiles (n : Nat) : (s.dropAccess n).tiles = s.tiles := rfl
@[simp] theorem dropAccess_gangs (n : Nat) : (s.dropAccess n).gangs = s.gangs := rfl
@[simp] theorem dropAccess_clusters (n : Nat) : (s.dropAccess n).clusters = s.clusters := rfl
@[simp] theorem dropAccess_dies (n : Nat) : (s.dropAccess n).dies = s.dies := rfl
@[simp] theorem dropAccess_parts (n : Nat) : (s.dropAccess n).parts = s.parts := rfl
@[simp] theorem dropAccess_mem (n : Nat) : (s.dropAccess n).mem = s.mem := rfl
@[simp] theorem dropAccess_tags (n : Nat) : (s.dropAccess n).tags = s.tags := rfl
@[simp] theorem dropAccess_poison (n : Nat) : (s.dropAccess n).poison = s.poison := rfl
@[simp] theorem dropAccess_errors (n : Nat) : (s.dropAccess n).errors = s.errors := rfl
@[simp] theorem dropAccess_messages (n : Nat) : (s.dropAccess n).messages = s.messages := rfl
@[simp] theorem dropAccess_moves (n : Nat) : (s.dropAccess n).moves = s.moves := rfl
@[simp] theorem dropAccess_subs (n : Nat) : (s.dropAccess n).subs = s.subs := rfl
@[simp] theorem dropAccess_queries (n : Nat) : (s.dropAccess n).queries = s.queries := rfl
@[simp] theorem dropAccess_walkers (n : Nat) : (s.dropAccess n).walkers = s.walkers := rfl
@[simp] theorem dropAccess_semWork (n : Nat) : (s.dropAccess n).semWork = s.semWork := rfl
@[simp] theorem dropAccess_semOld (n : Nat) : (s.dropAccess n).semOld = s.semOld := rfl
@[simp] theorem dropAccess_pkg (n : Nat) : (s.dropAccess n).pkg = s.pkg := rfl

/-! ## sched -/

@[simp] theorem sched_clock (n : Nat) (e : Instr) : (s.sched n e).clock = s.clock := rfl
@[simp] theorem sched_inputs (n : Nat) (e : Instr) : (s.sched n e).inputs = s.inputs := rfl
@[simp] theorem sched_todo (n : Nat) (e : Instr) : (s.sched n e).todo = s.todo := rfl
@[simp] theorem sched_opened (n : Nat) (e : Instr) : (s.sched n e).opened = s.opened := rfl
@[simp] theorem sched_cur (n : Nat) (e : Instr) : (s.sched n e).cur = s.cur := rfl
@[simp] theorem sched_fresh (n : Nat) (e : Instr) : (s.sched n e).fresh = s.fresh := rfl
@[simp] theorem sched_nextId (n : Nat) (e : Instr) : (s.sched n e).nextId = s.nextId := rfl
@[simp] theorem sched_fibres (n : Nat) (e : Instr) : (s.sched n e).fibres = s.fibres := rfl
@[simp] theorem sched_cores (n : Nat) (e : Instr) : (s.sched n e).cores = s.cores := rfl
@[simp] theorem sched_tiles (n : Nat) (e : Instr) : (s.sched n e).tiles = s.tiles := rfl
@[simp] theorem sched_gangs (n : Nat) (e : Instr) : (s.sched n e).gangs = s.gangs := rfl
@[simp] theorem sched_clusters (n : Nat) (e : Instr) : (s.sched n e).clusters = s.clusters := rfl
@[simp] theorem sched_dies (n : Nat) (e : Instr) : (s.sched n e).dies = s.dies := rfl
@[simp] theorem sched_parts (n : Nat) (e : Instr) : (s.sched n e).parts = s.parts := rfl
@[simp] theorem sched_mem (n : Nat) (e : Instr) : (s.sched n e).mem = s.mem := rfl
@[simp] theorem sched_tags (n : Nat) (e : Instr) : (s.sched n e).tags = s.tags := rfl
@[simp] theorem sched_poison (n : Nat) (e : Instr) : (s.sched n e).poison = s.poison := rfl
@[simp] theorem sched_errors (n : Nat) (e : Instr) : (s.sched n e).errors = s.errors := rfl
@[simp] theorem sched_flight (n : Nat) (e : Instr) : (s.sched n e).flight = s.flight := rfl
@[simp] theorem sched_messages (n : Nat) (e : Instr) : (s.sched n e).messages = s.messages := rfl
@[simp] theorem sched_moves (n : Nat) (e : Instr) : (s.sched n e).moves = s.moves := rfl
@[simp] theorem sched_subs (n : Nat) (e : Instr) : (s.sched n e).subs = s.subs := rfl
@[simp] theorem sched_queries (n : Nat) (e : Instr) : (s.sched n e).queries = s.queries := rfl
@[simp] theorem sched_walkers (n : Nat) (e : Instr) : (s.sched n e).walkers = s.walkers := rfl
@[simp] theorem sched_semWork (n : Nat) (e : Instr) : (s.sched n e).semWork = s.semWork := rfl
@[simp] theorem sched_semOld (n : Nat) (e : Instr) : (s.sched n e).semOld = s.semOld := rfl
@[simp] theorem sched_pkg (n : Nat) (e : Instr) : (s.sched n e).pkg = s.pkg := rfl

/-! ## now -/

@[simp] theorem now_clock (e : Instr) : (s.now e).clock = s.clock := rfl
@[simp] theorem now_inputs (e : Instr) : (s.now e).inputs = s.inputs := rfl
@[simp] theorem now_todo (e : Instr) : (s.now e).todo = s.todo := rfl
@[simp] theorem now_opened (e : Instr) : (s.now e).opened = s.opened := rfl
@[simp] theorem now_cur (e : Instr) : (s.now e).cur = s.cur := rfl
@[simp] theorem now_fresh (e : Instr) : (s.now e).fresh = s.fresh := rfl
@[simp] theorem now_nextId (e : Instr) : (s.now e).nextId = s.nextId := rfl
@[simp] theorem now_fibres (e : Instr) : (s.now e).fibres = s.fibres := rfl
@[simp] theorem now_cores (e : Instr) : (s.now e).cores = s.cores := rfl
@[simp] theorem now_tiles (e : Instr) : (s.now e).tiles = s.tiles := rfl
@[simp] theorem now_gangs (e : Instr) : (s.now e).gangs = s.gangs := rfl
@[simp] theorem now_clusters (e : Instr) : (s.now e).clusters = s.clusters := rfl
@[simp] theorem now_dies (e : Instr) : (s.now e).dies = s.dies := rfl
@[simp] theorem now_parts (e : Instr) : (s.now e).parts = s.parts := rfl
@[simp] theorem now_mem (e : Instr) : (s.now e).mem = s.mem := rfl
@[simp] theorem now_tags (e : Instr) : (s.now e).tags = s.tags := rfl
@[simp] theorem now_poison (e : Instr) : (s.now e).poison = s.poison := rfl
@[simp] theorem now_errors (e : Instr) : (s.now e).errors = s.errors := rfl
@[simp] theorem now_flight (e : Instr) : (s.now e).flight = s.flight := rfl
@[simp] theorem now_messages (e : Instr) : (s.now e).messages = s.messages := rfl
@[simp] theorem now_moves (e : Instr) : (s.now e).moves = s.moves := rfl
@[simp] theorem now_subs (e : Instr) : (s.now e).subs = s.subs := rfl
@[simp] theorem now_queries (e : Instr) : (s.now e).queries = s.queries := rfl
@[simp] theorem now_walkers (e : Instr) : (s.now e).walkers = s.walkers := rfl
@[simp] theorem now_semWork (e : Instr) : (s.now e).semWork = s.semWork := rfl
@[simp] theorem now_semOld (e : Instr) : (s.now e).semOld = s.semOld := rfl
@[simp] theorem now_pkg (e : Instr) : (s.now e).pkg = s.pkg := rfl

/-! ## latch -/

@[simp] theorem latch_clock (n : Nat) (h : FibreRef → Bool) : (s.latch n h).clock = s.clock := rfl
@[simp] theorem latch_inputs (n : Nat) (h : FibreRef → Bool) : (s.latch n h).inputs = s.inputs := rfl
@[simp] theorem latch_agenda (n : Nat) (h : FibreRef → Bool) : (s.latch n h).agenda = s.agenda := rfl
@[simp] theorem latch_todo (n : Nat) (h : FibreRef → Bool) : (s.latch n h).todo = s.todo := rfl
@[simp] theorem latch_opened (n : Nat) (h : FibreRef → Bool) : (s.latch n h).opened = s.opened := rfl
@[simp] theorem latch_cur (n : Nat) (h : FibreRef → Bool) : (s.latch n h).cur = s.cur := rfl
@[simp] theorem latch_fresh (n : Nat) (h : FibreRef → Bool) : (s.latch n h).fresh = s.fresh := rfl
@[simp] theorem latch_nextId (n : Nat) (h : FibreRef → Bool) : (s.latch n h).nextId = s.nextId := rfl
@[simp] theorem latch_cores (n : Nat) (h : FibreRef → Bool) : (s.latch n h).cores = s.cores := rfl
@[simp] theorem latch_tiles (n : Nat) (h : FibreRef → Bool) : (s.latch n h).tiles = s.tiles := rfl
@[simp] theorem latch_gangs (n : Nat) (h : FibreRef → Bool) : (s.latch n h).gangs = s.gangs := rfl
@[simp] theorem latch_clusters (n : Nat) (h : FibreRef → Bool) : (s.latch n h).clusters = s.clusters := rfl
@[simp] theorem latch_dies (n : Nat) (h : FibreRef → Bool) : (s.latch n h).dies = s.dies := rfl
@[simp] theorem latch_parts (n : Nat) (h : FibreRef → Bool) : (s.latch n h).parts = s.parts := rfl
@[simp] theorem latch_mem (n : Nat) (h : FibreRef → Bool) : (s.latch n h).mem = s.mem := rfl
@[simp] theorem latch_tags (n : Nat) (h : FibreRef → Bool) : (s.latch n h).tags = s.tags := rfl
@[simp] theorem latch_poison (n : Nat) (h : FibreRef → Bool) : (s.latch n h).poison = s.poison := rfl
@[simp] theorem latch_errors (n : Nat) (h : FibreRef → Bool) : (s.latch n h).errors = s.errors := rfl
@[simp] theorem latch_flight (n : Nat) (h : FibreRef → Bool) : (s.latch n h).flight = s.flight := rfl
@[simp] theorem latch_messages (n : Nat) (h : FibreRef → Bool) : (s.latch n h).messages = s.messages := rfl
@[simp] theorem latch_moves (n : Nat) (h : FibreRef → Bool) : (s.latch n h).moves = s.moves := rfl
@[simp] theorem latch_subs (n : Nat) (h : FibreRef → Bool) : (s.latch n h).subs = s.subs := rfl
@[simp] theorem latch_queries (n : Nat) (h : FibreRef → Bool) : (s.latch n h).queries = s.queries := rfl
@[simp] theorem latch_walkers (n : Nat) (h : FibreRef → Bool) : (s.latch n h).walkers = s.walkers := rfl
@[simp] theorem latch_semWork (n : Nat) (h : FibreRef → Bool) : (s.latch n h).semWork = s.semWork := rfl
@[simp] theorem latch_semOld (n : Nat) (h : FibreRef → Bool) : (s.latch n h).semOld = s.semOld := rfl
@[simp] theorem latch_pkg (n : Nat) (h : FibreRef → Bool) : (s.latch n h).pkg = s.pkg := rfl

/-! ## modFib -/

@[simp] theorem modFib_clock (f : FibreRef) (h : Fibre → Fibre) : (s.modFib f h).clock = s.clock := rfl
@[simp] theorem modFib_inputs (f : FibreRef) (h : Fibre → Fibre) : (s.modFib f h).inputs = s.inputs := rfl
@[simp] theorem modFib_agenda (f : FibreRef) (h : Fibre → Fibre) : (s.modFib f h).agenda = s.agenda := rfl
@[simp] theorem modFib_todo (f : FibreRef) (h : Fibre → Fibre) : (s.modFib f h).todo = s.todo := rfl
@[simp] theorem modFib_opened (f : FibreRef) (h : Fibre → Fibre) : (s.modFib f h).opened = s.opened := rfl
@[simp] theorem modFib_cur (f : FibreRef) (h : Fibre → Fibre) : (s.modFib f h).cur = s.cur := rfl
@[simp] theorem modFib_fresh (f : FibreRef) (h : Fibre → Fibre) : (s.modFib f h).fresh = s.fresh := rfl
@[simp] theorem modFib_nextId (f : FibreRef) (h : Fibre → Fibre) : (s.modFib f h).nextId = s.nextId := rfl
@[simp] theorem modFib_cores (f : FibreRef) (h : Fibre → Fibre) : (s.modFib f h).cores = s.cores := rfl
@[simp] theorem modFib_tiles (f : FibreRef) (h : Fibre → Fibre) : (s.modFib f h).tiles = s.tiles := rfl
@[simp] theorem modFib_gangs (f : FibreRef) (h : Fibre → Fibre) : (s.modFib f h).gangs = s.gangs := rfl
@[simp] theorem modFib_clusters (f : FibreRef) (h : Fibre → Fibre) : (s.modFib f h).clusters = s.clusters := rfl
@[simp] theorem modFib_dies (f : FibreRef) (h : Fibre → Fibre) : (s.modFib f h).dies = s.dies := rfl
@[simp] theorem modFib_parts (f : FibreRef) (h : Fibre → Fibre) : (s.modFib f h).parts = s.parts := rfl
@[simp] theorem modFib_mem (f : FibreRef) (h : Fibre → Fibre) : (s.modFib f h).mem = s.mem := rfl
@[simp] theorem modFib_tags (f : FibreRef) (h : Fibre → Fibre) : (s.modFib f h).tags = s.tags := rfl
@[simp] theorem modFib_poison (f : FibreRef) (h : Fibre → Fibre) : (s.modFib f h).poison = s.poison := rfl
@[simp] theorem modFib_errors (f : FibreRef) (h : Fibre → Fibre) : (s.modFib f h).errors = s.errors := rfl
@[simp] theorem modFib_flight (f : FibreRef) (h : Fibre → Fibre) : (s.modFib f h).flight = s.flight := rfl
@[simp] theorem modFib_messages (f : FibreRef) (h : Fibre → Fibre) : (s.modFib f h).messages = s.messages := rfl
@[simp] theorem modFib_moves (f : FibreRef) (h : Fibre → Fibre) : (s.modFib f h).moves = s.moves := rfl
@[simp] theorem modFib_subs (f : FibreRef) (h : Fibre → Fibre) : (s.modFib f h).subs = s.subs := rfl
@[simp] theorem modFib_queries (f : FibreRef) (h : Fibre → Fibre) : (s.modFib f h).queries = s.queries := rfl
@[simp] theorem modFib_walkers (f : FibreRef) (h : Fibre → Fibre) : (s.modFib f h).walkers = s.walkers := rfl
@[simp] theorem modFib_semWork (f : FibreRef) (h : Fibre → Fibre) : (s.modFib f h).semWork = s.semWork := rfl
@[simp] theorem modFib_semOld (f : FibreRef) (h : Fibre → Fibre) : (s.modFib f h).semOld = s.semOld := rfl
@[simp] theorem modFib_pkg (f : FibreRef) (h : Fibre → Fibre) : (s.modFib f h).pkg = s.pkg := rfl

/-! ## modCore -/

@[simp] theorem modCore_clock (c : CoreId) (h : Core → Core) : (s.modCore c h).clock = s.clock := rfl
@[simp] theorem modCore_inputs (c : CoreId) (h : Core → Core) : (s.modCore c h).inputs = s.inputs := rfl
@[simp] theorem modCore_agenda (c : CoreId) (h : Core → Core) : (s.modCore c h).agenda = s.agenda := rfl
@[simp] theorem modCore_todo (c : CoreId) (h : Core → Core) : (s.modCore c h).todo = s.todo := rfl
@[simp] theorem modCore_opened (c : CoreId) (h : Core → Core) : (s.modCore c h).opened = s.opened := rfl
@[simp] theorem modCore_cur (c : CoreId) (h : Core → Core) : (s.modCore c h).cur = s.cur := rfl
@[simp] theorem modCore_fresh (c : CoreId) (h : Core → Core) : (s.modCore c h).fresh = s.fresh := rfl
@[simp] theorem modCore_nextId (c : CoreId) (h : Core → Core) : (s.modCore c h).nextId = s.nextId := rfl
@[simp] theorem modCore_fibres (c : CoreId) (h : Core → Core) : (s.modCore c h).fibres = s.fibres := rfl
@[simp] theorem modCore_tiles (c : CoreId) (h : Core → Core) : (s.modCore c h).tiles = s.tiles := rfl
@[simp] theorem modCore_gangs (c : CoreId) (h : Core → Core) : (s.modCore c h).gangs = s.gangs := rfl
@[simp] theorem modCore_clusters (c : CoreId) (h : Core → Core) : (s.modCore c h).clusters = s.clusters := rfl
@[simp] theorem modCore_dies (c : CoreId) (h : Core → Core) : (s.modCore c h).dies = s.dies := rfl
@[simp] theorem modCore_parts (c : CoreId) (h : Core → Core) : (s.modCore c h).parts = s.parts := rfl
@[simp] theorem modCore_mem (c : CoreId) (h : Core → Core) : (s.modCore c h).mem = s.mem := rfl
@[simp] theorem modCore_tags (c : CoreId) (h : Core → Core) : (s.modCore c h).tags = s.tags := rfl
@[simp] theorem modCore_poison (c : CoreId) (h : Core → Core) : (s.modCore c h).poison = s.poison := rfl
@[simp] theorem modCore_errors (c : CoreId) (h : Core → Core) : (s.modCore c h).errors = s.errors := rfl
@[simp] theorem modCore_flight (c : CoreId) (h : Core → Core) : (s.modCore c h).flight = s.flight := rfl
@[simp] theorem modCore_messages (c : CoreId) (h : Core → Core) : (s.modCore c h).messages = s.messages := rfl
@[simp] theorem modCore_moves (c : CoreId) (h : Core → Core) : (s.modCore c h).moves = s.moves := rfl
@[simp] theorem modCore_subs (c : CoreId) (h : Core → Core) : (s.modCore c h).subs = s.subs := rfl
@[simp] theorem modCore_queries (c : CoreId) (h : Core → Core) : (s.modCore c h).queries = s.queries := rfl
@[simp] theorem modCore_walkers (c : CoreId) (h : Core → Core) : (s.modCore c h).walkers = s.walkers := rfl
@[simp] theorem modCore_semWork (c : CoreId) (h : Core → Core) : (s.modCore c h).semWork = s.semWork := rfl
@[simp] theorem modCore_semOld (c : CoreId) (h : Core → Core) : (s.modCore c h).semOld = s.semOld := rfl
@[simp] theorem modCore_pkg (c : CoreId) (h : Core → Core) : (s.modCore c h).pkg = s.pkg := rfl

/-! ## modTile -/

@[simp] theorem modTile_clock (n : Nat) (h : Tile → Tile) : (s.modTile n h).clock = s.clock := rfl
@[simp] theorem modTile_inputs (n : Nat) (h : Tile → Tile) : (s.modTile n h).inputs = s.inputs := rfl
@[simp] theorem modTile_agenda (n : Nat) (h : Tile → Tile) : (s.modTile n h).agenda = s.agenda := rfl
@[simp] theorem modTile_todo (n : Nat) (h : Tile → Tile) : (s.modTile n h).todo = s.todo := rfl
@[simp] theorem modTile_opened (n : Nat) (h : Tile → Tile) : (s.modTile n h).opened = s.opened := rfl
@[simp] theorem modTile_cur (n : Nat) (h : Tile → Tile) : (s.modTile n h).cur = s.cur := rfl
@[simp] theorem modTile_fresh (n : Nat) (h : Tile → Tile) : (s.modTile n h).fresh = s.fresh := rfl
@[simp] theorem modTile_nextId (n : Nat) (h : Tile → Tile) : (s.modTile n h).nextId = s.nextId := rfl
@[simp] theorem modTile_fibres (n : Nat) (h : Tile → Tile) : (s.modTile n h).fibres = s.fibres := rfl
@[simp] theorem modTile_cores (n : Nat) (h : Tile → Tile) : (s.modTile n h).cores = s.cores := rfl
@[simp] theorem modTile_gangs (n : Nat) (h : Tile → Tile) : (s.modTile n h).gangs = s.gangs := rfl
@[simp] theorem modTile_clusters (n : Nat) (h : Tile → Tile) : (s.modTile n h).clusters = s.clusters := rfl
@[simp] theorem modTile_dies (n : Nat) (h : Tile → Tile) : (s.modTile n h).dies = s.dies := rfl
@[simp] theorem modTile_parts (n : Nat) (h : Tile → Tile) : (s.modTile n h).parts = s.parts := rfl
@[simp] theorem modTile_mem (n : Nat) (h : Tile → Tile) : (s.modTile n h).mem = s.mem := rfl
@[simp] theorem modTile_tags (n : Nat) (h : Tile → Tile) : (s.modTile n h).tags = s.tags := rfl
@[simp] theorem modTile_poison (n : Nat) (h : Tile → Tile) : (s.modTile n h).poison = s.poison := rfl
@[simp] theorem modTile_errors (n : Nat) (h : Tile → Tile) : (s.modTile n h).errors = s.errors := rfl
@[simp] theorem modTile_flight (n : Nat) (h : Tile → Tile) : (s.modTile n h).flight = s.flight := rfl
@[simp] theorem modTile_messages (n : Nat) (h : Tile → Tile) : (s.modTile n h).messages = s.messages := rfl
@[simp] theorem modTile_moves (n : Nat) (h : Tile → Tile) : (s.modTile n h).moves = s.moves := rfl
@[simp] theorem modTile_subs (n : Nat) (h : Tile → Tile) : (s.modTile n h).subs = s.subs := rfl
@[simp] theorem modTile_queries (n : Nat) (h : Tile → Tile) : (s.modTile n h).queries = s.queries := rfl
@[simp] theorem modTile_walkers (n : Nat) (h : Tile → Tile) : (s.modTile n h).walkers = s.walkers := rfl
@[simp] theorem modTile_semWork (n : Nat) (h : Tile → Tile) : (s.modTile n h).semWork = s.semWork := rfl
@[simp] theorem modTile_semOld (n : Nat) (h : Tile → Tile) : (s.modTile n h).semOld = s.semOld := rfl
@[simp] theorem modTile_pkg (n : Nat) (h : Tile → Tile) : (s.modTile n h).pkg = s.pkg := rfl

/-! ## modGang -/

@[simp] theorem modGang_clock (n : Nat) (h : Gang → Gang) : (s.modGang n h).clock = s.clock := rfl
@[simp] theorem modGang_inputs (n : Nat) (h : Gang → Gang) : (s.modGang n h).inputs = s.inputs := rfl
@[simp] theorem modGang_agenda (n : Nat) (h : Gang → Gang) : (s.modGang n h).agenda = s.agenda := rfl
@[simp] theorem modGang_todo (n : Nat) (h : Gang → Gang) : (s.modGang n h).todo = s.todo := rfl
@[simp] theorem modGang_opened (n : Nat) (h : Gang → Gang) : (s.modGang n h).opened = s.opened := rfl
@[simp] theorem modGang_cur (n : Nat) (h : Gang → Gang) : (s.modGang n h).cur = s.cur := rfl
@[simp] theorem modGang_fresh (n : Nat) (h : Gang → Gang) : (s.modGang n h).fresh = s.fresh := rfl
@[simp] theorem modGang_nextId (n : Nat) (h : Gang → Gang) : (s.modGang n h).nextId = s.nextId := rfl
@[simp] theorem modGang_fibres (n : Nat) (h : Gang → Gang) : (s.modGang n h).fibres = s.fibres := rfl
@[simp] theorem modGang_cores (n : Nat) (h : Gang → Gang) : (s.modGang n h).cores = s.cores := rfl
@[simp] theorem modGang_tiles (n : Nat) (h : Gang → Gang) : (s.modGang n h).tiles = s.tiles := rfl
@[simp] theorem modGang_clusters (n : Nat) (h : Gang → Gang) : (s.modGang n h).clusters = s.clusters := rfl
@[simp] theorem modGang_dies (n : Nat) (h : Gang → Gang) : (s.modGang n h).dies = s.dies := rfl
@[simp] theorem modGang_parts (n : Nat) (h : Gang → Gang) : (s.modGang n h).parts = s.parts := rfl
@[simp] theorem modGang_mem (n : Nat) (h : Gang → Gang) : (s.modGang n h).mem = s.mem := rfl
@[simp] theorem modGang_tags (n : Nat) (h : Gang → Gang) : (s.modGang n h).tags = s.tags := rfl
@[simp] theorem modGang_poison (n : Nat) (h : Gang → Gang) : (s.modGang n h).poison = s.poison := rfl
@[simp] theorem modGang_errors (n : Nat) (h : Gang → Gang) : (s.modGang n h).errors = s.errors := rfl
@[simp] theorem modGang_flight (n : Nat) (h : Gang → Gang) : (s.modGang n h).flight = s.flight := rfl
@[simp] theorem modGang_messages (n : Nat) (h : Gang → Gang) : (s.modGang n h).messages = s.messages := rfl
@[simp] theorem modGang_moves (n : Nat) (h : Gang → Gang) : (s.modGang n h).moves = s.moves := rfl
@[simp] theorem modGang_subs (n : Nat) (h : Gang → Gang) : (s.modGang n h).subs = s.subs := rfl
@[simp] theorem modGang_queries (n : Nat) (h : Gang → Gang) : (s.modGang n h).queries = s.queries := rfl
@[simp] theorem modGang_walkers (n : Nat) (h : Gang → Gang) : (s.modGang n h).walkers = s.walkers := rfl
@[simp] theorem modGang_semWork (n : Nat) (h : Gang → Gang) : (s.modGang n h).semWork = s.semWork := rfl
@[simp] theorem modGang_semOld (n : Nat) (h : Gang → Gang) : (s.modGang n h).semOld = s.semOld := rfl
@[simp] theorem modGang_pkg (n : Nat) (h : Gang → Gang) : (s.modGang n h).pkg = s.pkg := rfl

/-! ## modDie -/

@[simp] theorem modDie_clock (n : Nat) (h : Die → Die) : (s.modDie n h).clock = s.clock := rfl
@[simp] theorem modDie_inputs (n : Nat) (h : Die → Die) : (s.modDie n h).inputs = s.inputs := rfl
@[simp] theorem modDie_agenda (n : Nat) (h : Die → Die) : (s.modDie n h).agenda = s.agenda := rfl
@[simp] theorem modDie_todo (n : Nat) (h : Die → Die) : (s.modDie n h).todo = s.todo := rfl
@[simp] theorem modDie_opened (n : Nat) (h : Die → Die) : (s.modDie n h).opened = s.opened := rfl
@[simp] theorem modDie_cur (n : Nat) (h : Die → Die) : (s.modDie n h).cur = s.cur := rfl
@[simp] theorem modDie_fresh (n : Nat) (h : Die → Die) : (s.modDie n h).fresh = s.fresh := rfl
@[simp] theorem modDie_nextId (n : Nat) (h : Die → Die) : (s.modDie n h).nextId = s.nextId := rfl
@[simp] theorem modDie_fibres (n : Nat) (h : Die → Die) : (s.modDie n h).fibres = s.fibres := rfl
@[simp] theorem modDie_cores (n : Nat) (h : Die → Die) : (s.modDie n h).cores = s.cores := rfl
@[simp] theorem modDie_tiles (n : Nat) (h : Die → Die) : (s.modDie n h).tiles = s.tiles := rfl
@[simp] theorem modDie_gangs (n : Nat) (h : Die → Die) : (s.modDie n h).gangs = s.gangs := rfl
@[simp] theorem modDie_clusters (n : Nat) (h : Die → Die) : (s.modDie n h).clusters = s.clusters := rfl
@[simp] theorem modDie_parts (n : Nat) (h : Die → Die) : (s.modDie n h).parts = s.parts := rfl
@[simp] theorem modDie_mem (n : Nat) (h : Die → Die) : (s.modDie n h).mem = s.mem := rfl
@[simp] theorem modDie_tags (n : Nat) (h : Die → Die) : (s.modDie n h).tags = s.tags := rfl
@[simp] theorem modDie_poison (n : Nat) (h : Die → Die) : (s.modDie n h).poison = s.poison := rfl
@[simp] theorem modDie_errors (n : Nat) (h : Die → Die) : (s.modDie n h).errors = s.errors := rfl
@[simp] theorem modDie_flight (n : Nat) (h : Die → Die) : (s.modDie n h).flight = s.flight := rfl
@[simp] theorem modDie_messages (n : Nat) (h : Die → Die) : (s.modDie n h).messages = s.messages := rfl
@[simp] theorem modDie_moves (n : Nat) (h : Die → Die) : (s.modDie n h).moves = s.moves := rfl
@[simp] theorem modDie_subs (n : Nat) (h : Die → Die) : (s.modDie n h).subs = s.subs := rfl
@[simp] theorem modDie_queries (n : Nat) (h : Die → Die) : (s.modDie n h).queries = s.queries := rfl
@[simp] theorem modDie_walkers (n : Nat) (h : Die → Die) : (s.modDie n h).walkers = s.walkers := rfl
@[simp] theorem modDie_semWork (n : Nat) (h : Die → Die) : (s.modDie n h).semWork = s.semWork := rfl
@[simp] theorem modDie_semOld (n : Nat) (h : Die → Die) : (s.modDie n h).semOld = s.semOld := rfl
@[simp] theorem modDie_pkg (n : Nat) (h : Die → Die) : (s.modDie n h).pkg = s.pkg := rfl

/-! ## modPart -/

@[simp] theorem modPart_clock (n : Nat) (h : Part → Part) : (s.modPart n h).clock = s.clock := rfl
@[simp] theorem modPart_inputs (n : Nat) (h : Part → Part) : (s.modPart n h).inputs = s.inputs := rfl
@[simp] theorem modPart_agenda (n : Nat) (h : Part → Part) : (s.modPart n h).agenda = s.agenda := rfl
@[simp] theorem modPart_todo (n : Nat) (h : Part → Part) : (s.modPart n h).todo = s.todo := rfl
@[simp] theorem modPart_opened (n : Nat) (h : Part → Part) : (s.modPart n h).opened = s.opened := rfl
@[simp] theorem modPart_cur (n : Nat) (h : Part → Part) : (s.modPart n h).cur = s.cur := rfl
@[simp] theorem modPart_fresh (n : Nat) (h : Part → Part) : (s.modPart n h).fresh = s.fresh := rfl
@[simp] theorem modPart_nextId (n : Nat) (h : Part → Part) : (s.modPart n h).nextId = s.nextId := rfl
@[simp] theorem modPart_fibres (n : Nat) (h : Part → Part) : (s.modPart n h).fibres = s.fibres := rfl
@[simp] theorem modPart_cores (n : Nat) (h : Part → Part) : (s.modPart n h).cores = s.cores := rfl
@[simp] theorem modPart_tiles (n : Nat) (h : Part → Part) : (s.modPart n h).tiles = s.tiles := rfl
@[simp] theorem modPart_gangs (n : Nat) (h : Part → Part) : (s.modPart n h).gangs = s.gangs := rfl
@[simp] theorem modPart_clusters (n : Nat) (h : Part → Part) : (s.modPart n h).clusters = s.clusters := rfl
@[simp] theorem modPart_dies (n : Nat) (h : Part → Part) : (s.modPart n h).dies = s.dies := rfl
@[simp] theorem modPart_mem (n : Nat) (h : Part → Part) : (s.modPart n h).mem = s.mem := rfl
@[simp] theorem modPart_tags (n : Nat) (h : Part → Part) : (s.modPart n h).tags = s.tags := rfl
@[simp] theorem modPart_poison (n : Nat) (h : Part → Part) : (s.modPart n h).poison = s.poison := rfl
@[simp] theorem modPart_errors (n : Nat) (h : Part → Part) : (s.modPart n h).errors = s.errors := rfl
@[simp] theorem modPart_flight (n : Nat) (h : Part → Part) : (s.modPart n h).flight = s.flight := rfl
@[simp] theorem modPart_messages (n : Nat) (h : Part → Part) : (s.modPart n h).messages = s.messages := rfl
@[simp] theorem modPart_moves (n : Nat) (h : Part → Part) : (s.modPart n h).moves = s.moves := rfl
@[simp] theorem modPart_subs (n : Nat) (h : Part → Part) : (s.modPart n h).subs = s.subs := rfl
@[simp] theorem modPart_queries (n : Nat) (h : Part → Part) : (s.modPart n h).queries = s.queries := rfl
@[simp] theorem modPart_walkers (n : Nat) (h : Part → Part) : (s.modPart n h).walkers = s.walkers := rfl
@[simp] theorem modPart_semWork (n : Nat) (h : Part → Part) : (s.modPart n h).semWork = s.semWork := rfl
@[simp] theorem modPart_semOld (n : Nat) (h : Part → Part) : (s.modPart n h).semOld = s.semOld := rfl
@[simp] theorem modPart_pkg (n : Nat) (h : Part → Part) : (s.modPart n h).pkg = s.pkg := rfl

/-! ## modVf -/

@[simp] theorem modVf_clock (n : Nat) (h : Vf → Vf) : (s.modVf n h).clock = s.clock := rfl
@[simp] theorem modVf_inputs (n : Nat) (h : Vf → Vf) : (s.modVf n h).inputs = s.inputs := rfl
@[simp] theorem modVf_agenda (n : Nat) (h : Vf → Vf) : (s.modVf n h).agenda = s.agenda := rfl
@[simp] theorem modVf_todo (n : Nat) (h : Vf → Vf) : (s.modVf n h).todo = s.todo := rfl
@[simp] theorem modVf_opened (n : Nat) (h : Vf → Vf) : (s.modVf n h).opened = s.opened := rfl
@[simp] theorem modVf_cur (n : Nat) (h : Vf → Vf) : (s.modVf n h).cur = s.cur := rfl
@[simp] theorem modVf_fresh (n : Nat) (h : Vf → Vf) : (s.modVf n h).fresh = s.fresh := rfl
@[simp] theorem modVf_nextId (n : Nat) (h : Vf → Vf) : (s.modVf n h).nextId = s.nextId := rfl
@[simp] theorem modVf_fibres (n : Nat) (h : Vf → Vf) : (s.modVf n h).fibres = s.fibres := rfl
@[simp] theorem modVf_cores (n : Nat) (h : Vf → Vf) : (s.modVf n h).cores = s.cores := rfl
@[simp] theorem modVf_tiles (n : Nat) (h : Vf → Vf) : (s.modVf n h).tiles = s.tiles := rfl
@[simp] theorem modVf_gangs (n : Nat) (h : Vf → Vf) : (s.modVf n h).gangs = s.gangs := rfl
@[simp] theorem modVf_clusters (n : Nat) (h : Vf → Vf) : (s.modVf n h).clusters = s.clusters := rfl
@[simp] theorem modVf_dies (n : Nat) (h : Vf → Vf) : (s.modVf n h).dies = s.dies := rfl
@[simp] theorem modVf_mem (n : Nat) (h : Vf → Vf) : (s.modVf n h).mem = s.mem := rfl
@[simp] theorem modVf_tags (n : Nat) (h : Vf → Vf) : (s.modVf n h).tags = s.tags := rfl
@[simp] theorem modVf_poison (n : Nat) (h : Vf → Vf) : (s.modVf n h).poison = s.poison := rfl
@[simp] theorem modVf_errors (n : Nat) (h : Vf → Vf) : (s.modVf n h).errors = s.errors := rfl
@[simp] theorem modVf_flight (n : Nat) (h : Vf → Vf) : (s.modVf n h).flight = s.flight := rfl
@[simp] theorem modVf_messages (n : Nat) (h : Vf → Vf) : (s.modVf n h).messages = s.messages := rfl
@[simp] theorem modVf_moves (n : Nat) (h : Vf → Vf) : (s.modVf n h).moves = s.moves := rfl
@[simp] theorem modVf_subs (n : Nat) (h : Vf → Vf) : (s.modVf n h).subs = s.subs := rfl
@[simp] theorem modVf_queries (n : Nat) (h : Vf → Vf) : (s.modVf n h).queries = s.queries := rfl
@[simp] theorem modVf_walkers (n : Nat) (h : Vf → Vf) : (s.modVf n h).walkers = s.walkers := rfl
@[simp] theorem modVf_semWork (n : Nat) (h : Vf → Vf) : (s.modVf n h).semWork = s.semWork := rfl
@[simp] theorem modVf_semOld (n : Nat) (h : Vf → Vf) : (s.modVf n h).semOld = s.semOld := rfl
@[simp] theorem modVf_pkg (n : Nat) (h : Vf → Vf) : (s.modVf n h).pkg = s.pkg := rfl

/-! ## modGw -/

@[simp] theorem modGw_clock (n : Nat) (h : Gateway → Gateway) : (s.modGw n h).clock = s.clock := rfl
@[simp] theorem modGw_inputs (n : Nat) (h : Gateway → Gateway) : (s.modGw n h).inputs = s.inputs := rfl
@[simp] theorem modGw_agenda (n : Nat) (h : Gateway → Gateway) : (s.modGw n h).agenda = s.agenda := rfl
@[simp] theorem modGw_todo (n : Nat) (h : Gateway → Gateway) : (s.modGw n h).todo = s.todo := rfl
@[simp] theorem modGw_opened (n : Nat) (h : Gateway → Gateway) : (s.modGw n h).opened = s.opened := rfl
@[simp] theorem modGw_cur (n : Nat) (h : Gateway → Gateway) : (s.modGw n h).cur = s.cur := rfl
@[simp] theorem modGw_fresh (n : Nat) (h : Gateway → Gateway) : (s.modGw n h).fresh = s.fresh := rfl
@[simp] theorem modGw_nextId (n : Nat) (h : Gateway → Gateway) : (s.modGw n h).nextId = s.nextId := rfl
@[simp] theorem modGw_fibres (n : Nat) (h : Gateway → Gateway) : (s.modGw n h).fibres = s.fibres := rfl
@[simp] theorem modGw_cores (n : Nat) (h : Gateway → Gateway) : (s.modGw n h).cores = s.cores := rfl
@[simp] theorem modGw_tiles (n : Nat) (h : Gateway → Gateway) : (s.modGw n h).tiles = s.tiles := rfl
@[simp] theorem modGw_gangs (n : Nat) (h : Gateway → Gateway) : (s.modGw n h).gangs = s.gangs := rfl
@[simp] theorem modGw_clusters (n : Nat) (h : Gateway → Gateway) : (s.modGw n h).clusters = s.clusters := rfl
@[simp] theorem modGw_parts (n : Nat) (h : Gateway → Gateway) : (s.modGw n h).parts = s.parts := rfl
@[simp] theorem modGw_mem (n : Nat) (h : Gateway → Gateway) : (s.modGw n h).mem = s.mem := rfl
@[simp] theorem modGw_tags (n : Nat) (h : Gateway → Gateway) : (s.modGw n h).tags = s.tags := rfl
@[simp] theorem modGw_poison (n : Nat) (h : Gateway → Gateway) : (s.modGw n h).poison = s.poison := rfl
@[simp] theorem modGw_errors (n : Nat) (h : Gateway → Gateway) : (s.modGw n h).errors = s.errors := rfl
@[simp] theorem modGw_flight (n : Nat) (h : Gateway → Gateway) : (s.modGw n h).flight = s.flight := rfl
@[simp] theorem modGw_messages (n : Nat) (h : Gateway → Gateway) : (s.modGw n h).messages = s.messages := rfl
@[simp] theorem modGw_moves (n : Nat) (h : Gateway → Gateway) : (s.modGw n h).moves = s.moves := rfl
@[simp] theorem modGw_subs (n : Nat) (h : Gateway → Gateway) : (s.modGw n h).subs = s.subs := rfl
@[simp] theorem modGw_queries (n : Nat) (h : Gateway → Gateway) : (s.modGw n h).queries = s.queries := rfl
@[simp] theorem modGw_walkers (n : Nat) (h : Gateway → Gateway) : (s.modGw n h).walkers = s.walkers := rfl
@[simp] theorem modGw_semWork (n : Nat) (h : Gateway → Gateway) : (s.modGw n h).semWork = s.semWork := rfl
@[simp] theorem modGw_semOld (n : Nat) (h : Gateway → Gateway) : (s.modGw n h).semOld = s.semOld := rfl
@[simp] theorem modGw_pkg (n : Nat) (h : Gateway → Gateway) : (s.modGw n h).pkg = s.pkg := rfl

/-! ## modMeter -/

@[simp] theorem modMeter_clock (n : Nat) (h : Meter → Meter) : (s.modMeter n h).clock = s.clock := rfl
@[simp] theorem modMeter_inputs (n : Nat) (h : Meter → Meter) : (s.modMeter n h).inputs = s.inputs := rfl
@[simp] theorem modMeter_agenda (n : Nat) (h : Meter → Meter) : (s.modMeter n h).agenda = s.agenda := rfl
@[simp] theorem modMeter_todo (n : Nat) (h : Meter → Meter) : (s.modMeter n h).todo = s.todo := rfl
@[simp] theorem modMeter_opened (n : Nat) (h : Meter → Meter) : (s.modMeter n h).opened = s.opened := rfl
@[simp] theorem modMeter_cur (n : Nat) (h : Meter → Meter) : (s.modMeter n h).cur = s.cur := rfl
@[simp] theorem modMeter_fresh (n : Nat) (h : Meter → Meter) : (s.modMeter n h).fresh = s.fresh := rfl
@[simp] theorem modMeter_nextId (n : Nat) (h : Meter → Meter) : (s.modMeter n h).nextId = s.nextId := rfl
@[simp] theorem modMeter_fibres (n : Nat) (h : Meter → Meter) : (s.modMeter n h).fibres = s.fibres := rfl
@[simp] theorem modMeter_cores (n : Nat) (h : Meter → Meter) : (s.modMeter n h).cores = s.cores := rfl
@[simp] theorem modMeter_tiles (n : Nat) (h : Meter → Meter) : (s.modMeter n h).tiles = s.tiles := rfl
@[simp] theorem modMeter_gangs (n : Nat) (h : Meter → Meter) : (s.modMeter n h).gangs = s.gangs := rfl
@[simp] theorem modMeter_clusters (n : Nat) (h : Meter → Meter) : (s.modMeter n h).clusters = s.clusters := rfl
@[simp] theorem modMeter_dies (n : Nat) (h : Meter → Meter) : (s.modMeter n h).dies = s.dies := rfl
@[simp] theorem modMeter_parts (n : Nat) (h : Meter → Meter) : (s.modMeter n h).parts = s.parts := rfl
@[simp] theorem modMeter_mem (n : Nat) (h : Meter → Meter) : (s.modMeter n h).mem = s.mem := rfl
@[simp] theorem modMeter_tags (n : Nat) (h : Meter → Meter) : (s.modMeter n h).tags = s.tags := rfl
@[simp] theorem modMeter_poison (n : Nat) (h : Meter → Meter) : (s.modMeter n h).poison = s.poison := rfl
@[simp] theorem modMeter_errors (n : Nat) (h : Meter → Meter) : (s.modMeter n h).errors = s.errors := rfl
@[simp] theorem modMeter_flight (n : Nat) (h : Meter → Meter) : (s.modMeter n h).flight = s.flight := rfl
@[simp] theorem modMeter_messages (n : Nat) (h : Meter → Meter) : (s.modMeter n h).messages = s.messages := rfl
@[simp] theorem modMeter_moves (n : Nat) (h : Meter → Meter) : (s.modMeter n h).moves = s.moves := rfl
@[simp] theorem modMeter_subs (n : Nat) (h : Meter → Meter) : (s.modMeter n h).subs = s.subs := rfl
@[simp] theorem modMeter_queries (n : Nat) (h : Meter → Meter) : (s.modMeter n h).queries = s.queries := rfl
@[simp] theorem modMeter_walkers (n : Nat) (h : Meter → Meter) : (s.modMeter n h).walkers = s.walkers := rfl
@[simp] theorem modMeter_semWork (n : Nat) (h : Meter → Meter) : (s.modMeter n h).semWork = s.semWork := rfl
@[simp] theorem modMeter_semOld (n : Nat) (h : Meter → Meter) : (s.modMeter n h).semOld = s.semOld := rfl

/-! ## modMe -/

@[simp] theorem modMe_clock (h : Fibre → Fibre) : (s.modMe h).clock = s.clock := rfl
@[simp] theorem modMe_inputs (h : Fibre → Fibre) : (s.modMe h).inputs = s.inputs := rfl
@[simp] theorem modMe_agenda (h : Fibre → Fibre) : (s.modMe h).agenda = s.agenda := rfl
@[simp] theorem modMe_todo (h : Fibre → Fibre) : (s.modMe h).todo = s.todo := rfl
@[simp] theorem modMe_opened (h : Fibre → Fibre) : (s.modMe h).opened = s.opened := rfl
@[simp] theorem modMe_cur (h : Fibre → Fibre) : (s.modMe h).cur = s.cur := rfl
@[simp] theorem modMe_fresh (h : Fibre → Fibre) : (s.modMe h).fresh = s.fresh := rfl
@[simp] theorem modMe_nextId (h : Fibre → Fibre) : (s.modMe h).nextId = s.nextId := rfl
@[simp] theorem modMe_cores (h : Fibre → Fibre) : (s.modMe h).cores = s.cores := rfl
@[simp] theorem modMe_tiles (h : Fibre → Fibre) : (s.modMe h).tiles = s.tiles := rfl
@[simp] theorem modMe_gangs (h : Fibre → Fibre) : (s.modMe h).gangs = s.gangs := rfl
@[simp] theorem modMe_clusters (h : Fibre → Fibre) : (s.modMe h).clusters = s.clusters := rfl
@[simp] theorem modMe_dies (h : Fibre → Fibre) : (s.modMe h).dies = s.dies := rfl
@[simp] theorem modMe_parts (h : Fibre → Fibre) : (s.modMe h).parts = s.parts := rfl
@[simp] theorem modMe_mem (h : Fibre → Fibre) : (s.modMe h).mem = s.mem := rfl
@[simp] theorem modMe_tags (h : Fibre → Fibre) : (s.modMe h).tags = s.tags := rfl
@[simp] theorem modMe_poison (h : Fibre → Fibre) : (s.modMe h).poison = s.poison := rfl
@[simp] theorem modMe_errors (h : Fibre → Fibre) : (s.modMe h).errors = s.errors := rfl
@[simp] theorem modMe_flight (h : Fibre → Fibre) : (s.modMe h).flight = s.flight := rfl
@[simp] theorem modMe_messages (h : Fibre → Fibre) : (s.modMe h).messages = s.messages := rfl
@[simp] theorem modMe_moves (h : Fibre → Fibre) : (s.modMe h).moves = s.moves := rfl
@[simp] theorem modMe_subs (h : Fibre → Fibre) : (s.modMe h).subs = s.subs := rfl
@[simp] theorem modMe_queries (h : Fibre → Fibre) : (s.modMe h).queries = s.queries := rfl
@[simp] theorem modMe_walkers (h : Fibre → Fibre) : (s.modMe h).walkers = s.walkers := rfl
@[simp] theorem modMe_semWork (h : Fibre → Fibre) : (s.modMe h).semWork = s.semWork := rfl
@[simp] theorem modMe_semOld (h : Fibre → Fibre) : (s.modMe h).semOld = s.semOld := rfl
@[simp] theorem modMe_pkg (h : Fibre → Fibre) : (s.modMe h).pkg = s.pkg := rfl

/-! ## setG -/

@[simp] theorem setG_clock (r : BitVec 3) (v : Word) : (s.setG r v).clock = s.clock := rfl
@[simp] theorem setG_inputs (r : BitVec 3) (v : Word) : (s.setG r v).inputs = s.inputs := rfl
@[simp] theorem setG_agenda (r : BitVec 3) (v : Word) : (s.setG r v).agenda = s.agenda := rfl
@[simp] theorem setG_todo (r : BitVec 3) (v : Word) : (s.setG r v).todo = s.todo := rfl
@[simp] theorem setG_opened (r : BitVec 3) (v : Word) : (s.setG r v).opened = s.opened := rfl
@[simp] theorem setG_cur (r : BitVec 3) (v : Word) : (s.setG r v).cur = s.cur := rfl
@[simp] theorem setG_fresh (r : BitVec 3) (v : Word) : (s.setG r v).fresh = s.fresh := rfl
@[simp] theorem setG_nextId (r : BitVec 3) (v : Word) : (s.setG r v).nextId = s.nextId := rfl
@[simp] theorem setG_cores (r : BitVec 3) (v : Word) : (s.setG r v).cores = s.cores := rfl
@[simp] theorem setG_tiles (r : BitVec 3) (v : Word) : (s.setG r v).tiles = s.tiles := rfl
@[simp] theorem setG_gangs (r : BitVec 3) (v : Word) : (s.setG r v).gangs = s.gangs := rfl
@[simp] theorem setG_clusters (r : BitVec 3) (v : Word) : (s.setG r v).clusters = s.clusters := rfl
@[simp] theorem setG_dies (r : BitVec 3) (v : Word) : (s.setG r v).dies = s.dies := rfl
@[simp] theorem setG_parts (r : BitVec 3) (v : Word) : (s.setG r v).parts = s.parts := rfl
@[simp] theorem setG_mem (r : BitVec 3) (v : Word) : (s.setG r v).mem = s.mem := rfl
@[simp] theorem setG_tags (r : BitVec 3) (v : Word) : (s.setG r v).tags = s.tags := rfl
@[simp] theorem setG_poison (r : BitVec 3) (v : Word) : (s.setG r v).poison = s.poison := rfl
@[simp] theorem setG_errors (r : BitVec 3) (v : Word) : (s.setG r v).errors = s.errors := rfl
@[simp] theorem setG_flight (r : BitVec 3) (v : Word) : (s.setG r v).flight = s.flight := rfl
@[simp] theorem setG_messages (r : BitVec 3) (v : Word) : (s.setG r v).messages = s.messages := rfl
@[simp] theorem setG_moves (r : BitVec 3) (v : Word) : (s.setG r v).moves = s.moves := rfl
@[simp] theorem setG_subs (r : BitVec 3) (v : Word) : (s.setG r v).subs = s.subs := rfl
@[simp] theorem setG_queries (r : BitVec 3) (v : Word) : (s.setG r v).queries = s.queries := rfl
@[simp] theorem setG_walkers (r : BitVec 3) (v : Word) : (s.setG r v).walkers = s.walkers := rfl
@[simp] theorem setG_semWork (r : BitVec 3) (v : Word) : (s.setG r v).semWork = s.semWork := rfl
@[simp] theorem setG_semOld (r : BitVec 3) (v : Word) : (s.setG r v).semOld = s.semOld := rfl
@[simp] theorem setG_pkg (r : BitVec 3) (v : Word) : (s.setG r v).pkg = s.pkg := rfl

/-! ## setK -/

@[simp] theorem setK_clock (r : BitVec 2) (c : Cap) : (s.setK r c).clock = s.clock := rfl
@[simp] theorem setK_inputs (r : BitVec 2) (c : Cap) : (s.setK r c).inputs = s.inputs := rfl
@[simp] theorem setK_agenda (r : BitVec 2) (c : Cap) : (s.setK r c).agenda = s.agenda := rfl
@[simp] theorem setK_todo (r : BitVec 2) (c : Cap) : (s.setK r c).todo = s.todo := rfl
@[simp] theorem setK_opened (r : BitVec 2) (c : Cap) : (s.setK r c).opened = s.opened := rfl
@[simp] theorem setK_cur (r : BitVec 2) (c : Cap) : (s.setK r c).cur = s.cur := rfl
@[simp] theorem setK_fresh (r : BitVec 2) (c : Cap) : (s.setK r c).fresh = s.fresh := rfl
@[simp] theorem setK_nextId (r : BitVec 2) (c : Cap) : (s.setK r c).nextId = s.nextId := rfl
@[simp] theorem setK_cores (r : BitVec 2) (c : Cap) : (s.setK r c).cores = s.cores := rfl
@[simp] theorem setK_tiles (r : BitVec 2) (c : Cap) : (s.setK r c).tiles = s.tiles := rfl
@[simp] theorem setK_gangs (r : BitVec 2) (c : Cap) : (s.setK r c).gangs = s.gangs := rfl
@[simp] theorem setK_clusters (r : BitVec 2) (c : Cap) : (s.setK r c).clusters = s.clusters := rfl
@[simp] theorem setK_dies (r : BitVec 2) (c : Cap) : (s.setK r c).dies = s.dies := rfl
@[simp] theorem setK_parts (r : BitVec 2) (c : Cap) : (s.setK r c).parts = s.parts := rfl
@[simp] theorem setK_mem (r : BitVec 2) (c : Cap) : (s.setK r c).mem = s.mem := rfl
@[simp] theorem setK_tags (r : BitVec 2) (c : Cap) : (s.setK r c).tags = s.tags := rfl
@[simp] theorem setK_poison (r : BitVec 2) (c : Cap) : (s.setK r c).poison = s.poison := rfl
@[simp] theorem setK_errors (r : BitVec 2) (c : Cap) : (s.setK r c).errors = s.errors := rfl
@[simp] theorem setK_flight (r : BitVec 2) (c : Cap) : (s.setK r c).flight = s.flight := rfl
@[simp] theorem setK_messages (r : BitVec 2) (c : Cap) : (s.setK r c).messages = s.messages := rfl
@[simp] theorem setK_moves (r : BitVec 2) (c : Cap) : (s.setK r c).moves = s.moves := rfl
@[simp] theorem setK_subs (r : BitVec 2) (c : Cap) : (s.setK r c).subs = s.subs := rfl
@[simp] theorem setK_queries (r : BitVec 2) (c : Cap) : (s.setK r c).queries = s.queries := rfl
@[simp] theorem setK_walkers (r : BitVec 2) (c : Cap) : (s.setK r c).walkers = s.walkers := rfl
@[simp] theorem setK_semWork (r : BitVec 2) (c : Cap) : (s.setK r c).semWork = s.semWork := rfl
@[simp] theorem setK_semOld (r : BitVec 2) (c : Cap) : (s.setK r c).semOld = s.semOld := rfl
@[simp] theorem setK_pkg (r : BitVec 2) (c : Cap) : (s.setK r c).pkg = s.pkg := rfl

/-! ## setGOf -/

@[simp] theorem setGOf_clock (f : FibreRef) (r : BitVec 3) (v : Word) : (s.setGOf f r v).clock = s.clock := rfl
@[simp] theorem setGOf_inputs (f : FibreRef) (r : BitVec 3) (v : Word) : (s.setGOf f r v).inputs = s.inputs := rfl
@[simp] theorem setGOf_agenda (f : FibreRef) (r : BitVec 3) (v : Word) : (s.setGOf f r v).agenda = s.agenda := rfl
@[simp] theorem setGOf_todo (f : FibreRef) (r : BitVec 3) (v : Word) : (s.setGOf f r v).todo = s.todo := rfl
@[simp] theorem setGOf_opened (f : FibreRef) (r : BitVec 3) (v : Word) : (s.setGOf f r v).opened = s.opened := rfl
@[simp] theorem setGOf_cur (f : FibreRef) (r : BitVec 3) (v : Word) : (s.setGOf f r v).cur = s.cur := rfl
@[simp] theorem setGOf_fresh (f : FibreRef) (r : BitVec 3) (v : Word) : (s.setGOf f r v).fresh = s.fresh := rfl
@[simp] theorem setGOf_nextId (f : FibreRef) (r : BitVec 3) (v : Word) : (s.setGOf f r v).nextId = s.nextId := rfl
@[simp] theorem setGOf_cores (f : FibreRef) (r : BitVec 3) (v : Word) : (s.setGOf f r v).cores = s.cores := rfl
@[simp] theorem setGOf_tiles (f : FibreRef) (r : BitVec 3) (v : Word) : (s.setGOf f r v).tiles = s.tiles := rfl
@[simp] theorem setGOf_gangs (f : FibreRef) (r : BitVec 3) (v : Word) : (s.setGOf f r v).gangs = s.gangs := rfl
@[simp] theorem setGOf_clusters (f : FibreRef) (r : BitVec 3) (v : Word) : (s.setGOf f r v).clusters = s.clusters := rfl
@[simp] theorem setGOf_dies (f : FibreRef) (r : BitVec 3) (v : Word) : (s.setGOf f r v).dies = s.dies := rfl
@[simp] theorem setGOf_parts (f : FibreRef) (r : BitVec 3) (v : Word) : (s.setGOf f r v).parts = s.parts := rfl
@[simp] theorem setGOf_mem (f : FibreRef) (r : BitVec 3) (v : Word) : (s.setGOf f r v).mem = s.mem := rfl
@[simp] theorem setGOf_tags (f : FibreRef) (r : BitVec 3) (v : Word) : (s.setGOf f r v).tags = s.tags := rfl
@[simp] theorem setGOf_poison (f : FibreRef) (r : BitVec 3) (v : Word) : (s.setGOf f r v).poison = s.poison := rfl
@[simp] theorem setGOf_errors (f : FibreRef) (r : BitVec 3) (v : Word) : (s.setGOf f r v).errors = s.errors := rfl
@[simp] theorem setGOf_flight (f : FibreRef) (r : BitVec 3) (v : Word) : (s.setGOf f r v).flight = s.flight := rfl
@[simp] theorem setGOf_messages (f : FibreRef) (r : BitVec 3) (v : Word) : (s.setGOf f r v).messages = s.messages := rfl
@[simp] theorem setGOf_moves (f : FibreRef) (r : BitVec 3) (v : Word) : (s.setGOf f r v).moves = s.moves := rfl
@[simp] theorem setGOf_subs (f : FibreRef) (r : BitVec 3) (v : Word) : (s.setGOf f r v).subs = s.subs := rfl
@[simp] theorem setGOf_queries (f : FibreRef) (r : BitVec 3) (v : Word) : (s.setGOf f r v).queries = s.queries := rfl
@[simp] theorem setGOf_walkers (f : FibreRef) (r : BitVec 3) (v : Word) : (s.setGOf f r v).walkers = s.walkers := rfl
@[simp] theorem setGOf_semWork (f : FibreRef) (r : BitVec 3) (v : Word) : (s.setGOf f r v).semWork = s.semWork := rfl
@[simp] theorem setGOf_semOld (f : FibreRef) (r : BitVec 3) (v : Word) : (s.setGOf f r v).semOld = s.semOld := rfl
@[simp] theorem setGOf_pkg (f : FibreRef) (r : BitVec 3) (v : Word) : (s.setGOf f r v).pkg = s.pkg := rfl

/-! ## parkF -/

@[simp] theorem parkF_clock (f : FibreRef) (n : Nat) (c : Cont) : (s.parkF f n c).clock = s.clock := rfl
@[simp] theorem parkF_inputs (f : FibreRef) (n : Nat) (c : Cont) : (s.parkF f n c).inputs = s.inputs := rfl
@[simp] theorem parkF_agenda (f : FibreRef) (n : Nat) (c : Cont) : (s.parkF f n c).agenda = s.agenda := rfl
@[simp] theorem parkF_todo (f : FibreRef) (n : Nat) (c : Cont) : (s.parkF f n c).todo = s.todo := rfl
@[simp] theorem parkF_opened (f : FibreRef) (n : Nat) (c : Cont) : (s.parkF f n c).opened = s.opened := rfl
@[simp] theorem parkF_cur (f : FibreRef) (n : Nat) (c : Cont) : (s.parkF f n c).cur = s.cur := rfl
@[simp] theorem parkF_fresh (f : FibreRef) (n : Nat) (c : Cont) : (s.parkF f n c).fresh = s.fresh := rfl
@[simp] theorem parkF_nextId (f : FibreRef) (n : Nat) (c : Cont) : (s.parkF f n c).nextId = s.nextId := rfl
@[simp] theorem parkF_cores (f : FibreRef) (n : Nat) (c : Cont) : (s.parkF f n c).cores = s.cores := rfl
@[simp] theorem parkF_tiles (f : FibreRef) (n : Nat) (c : Cont) : (s.parkF f n c).tiles = s.tiles := rfl
@[simp] theorem parkF_gangs (f : FibreRef) (n : Nat) (c : Cont) : (s.parkF f n c).gangs = s.gangs := rfl
@[simp] theorem parkF_clusters (f : FibreRef) (n : Nat) (c : Cont) : (s.parkF f n c).clusters = s.clusters := rfl
@[simp] theorem parkF_dies (f : FibreRef) (n : Nat) (c : Cont) : (s.parkF f n c).dies = s.dies := rfl
@[simp] theorem parkF_parts (f : FibreRef) (n : Nat) (c : Cont) : (s.parkF f n c).parts = s.parts := rfl
@[simp] theorem parkF_mem (f : FibreRef) (n : Nat) (c : Cont) : (s.parkF f n c).mem = s.mem := rfl
@[simp] theorem parkF_tags (f : FibreRef) (n : Nat) (c : Cont) : (s.parkF f n c).tags = s.tags := rfl
@[simp] theorem parkF_poison (f : FibreRef) (n : Nat) (c : Cont) : (s.parkF f n c).poison = s.poison := rfl
@[simp] theorem parkF_errors (f : FibreRef) (n : Nat) (c : Cont) : (s.parkF f n c).errors = s.errors := rfl
@[simp] theorem parkF_flight (f : FibreRef) (n : Nat) (c : Cont) : (s.parkF f n c).flight = s.flight := rfl
@[simp] theorem parkF_messages (f : FibreRef) (n : Nat) (c : Cont) : (s.parkF f n c).messages = s.messages := rfl
@[simp] theorem parkF_moves (f : FibreRef) (n : Nat) (c : Cont) : (s.parkF f n c).moves = s.moves := rfl
@[simp] theorem parkF_subs (f : FibreRef) (n : Nat) (c : Cont) : (s.parkF f n c).subs = s.subs := rfl
@[simp] theorem parkF_queries (f : FibreRef) (n : Nat) (c : Cont) : (s.parkF f n c).queries = s.queries := rfl
@[simp] theorem parkF_walkers (f : FibreRef) (n : Nat) (c : Cont) : (s.parkF f n c).walkers = s.walkers := rfl
@[simp] theorem parkF_semWork (f : FibreRef) (n : Nat) (c : Cont) : (s.parkF f n c).semWork = s.semWork := rfl
@[simp] theorem parkF_semOld (f : FibreRef) (n : Nat) (c : Cont) : (s.parkF f n c).semOld = s.semOld := rfl
@[simp] theorem parkF_pkg (f : FibreRef) (n : Nat) (c : Cont) : (s.parkF f n c).pkg = s.pkg := rfl

/-! ## parkMe -/

@[simp] theorem parkMe_clock (n : Nat) (c : Cont) : (s.parkMe n c).clock = s.clock := rfl
@[simp] theorem parkMe_inputs (n : Nat) (c : Cont) : (s.parkMe n c).inputs = s.inputs := rfl
@[simp] theorem parkMe_agenda (n : Nat) (c : Cont) : (s.parkMe n c).agenda = s.agenda := rfl
@[simp] theorem parkMe_todo (n : Nat) (c : Cont) : (s.parkMe n c).todo = s.todo := rfl
@[simp] theorem parkMe_opened (n : Nat) (c : Cont) : (s.parkMe n c).opened = s.opened := rfl
@[simp] theorem parkMe_cur (n : Nat) (c : Cont) : (s.parkMe n c).cur = s.cur := rfl
@[simp] theorem parkMe_fresh (n : Nat) (c : Cont) : (s.parkMe n c).fresh = s.fresh := rfl
@[simp] theorem parkMe_nextId (n : Nat) (c : Cont) : (s.parkMe n c).nextId = s.nextId := rfl
@[simp] theorem parkMe_cores (n : Nat) (c : Cont) : (s.parkMe n c).cores = s.cores := rfl
@[simp] theorem parkMe_tiles (n : Nat) (c : Cont) : (s.parkMe n c).tiles = s.tiles := rfl
@[simp] theorem parkMe_gangs (n : Nat) (c : Cont) : (s.parkMe n c).gangs = s.gangs := rfl
@[simp] theorem parkMe_clusters (n : Nat) (c : Cont) : (s.parkMe n c).clusters = s.clusters := rfl
@[simp] theorem parkMe_dies (n : Nat) (c : Cont) : (s.parkMe n c).dies = s.dies := rfl
@[simp] theorem parkMe_parts (n : Nat) (c : Cont) : (s.parkMe n c).parts = s.parts := rfl
@[simp] theorem parkMe_mem (n : Nat) (c : Cont) : (s.parkMe n c).mem = s.mem := rfl
@[simp] theorem parkMe_tags (n : Nat) (c : Cont) : (s.parkMe n c).tags = s.tags := rfl
@[simp] theorem parkMe_poison (n : Nat) (c : Cont) : (s.parkMe n c).poison = s.poison := rfl
@[simp] theorem parkMe_errors (n : Nat) (c : Cont) : (s.parkMe n c).errors = s.errors := rfl
@[simp] theorem parkMe_flight (n : Nat) (c : Cont) : (s.parkMe n c).flight = s.flight := rfl
@[simp] theorem parkMe_messages (n : Nat) (c : Cont) : (s.parkMe n c).messages = s.messages := rfl
@[simp] theorem parkMe_moves (n : Nat) (c : Cont) : (s.parkMe n c).moves = s.moves := rfl
@[simp] theorem parkMe_subs (n : Nat) (c : Cont) : (s.parkMe n c).subs = s.subs := rfl
@[simp] theorem parkMe_queries (n : Nat) (c : Cont) : (s.parkMe n c).queries = s.queries := rfl
@[simp] theorem parkMe_walkers (n : Nat) (c : Cont) : (s.parkMe n c).walkers = s.walkers := rfl
@[simp] theorem parkMe_semWork (n : Nat) (c : Cont) : (s.parkMe n c).semWork = s.semWork := rfl
@[simp] theorem parkMe_semOld (n : Nat) (c : Cont) : (s.parkMe n c).semOld = s.semOld := rfl
@[simp] theorem parkMe_pkg (n : Nat) (c : Cont) : (s.parkMe n c).pkg = s.pkg := rfl

/-! ## ready -/

@[simp] theorem ready_clock (f : FibreRef) : (s.ready f).clock = s.clock := rfl
@[simp] theorem ready_inputs (f : FibreRef) : (s.ready f).inputs = s.inputs := rfl
@[simp] theorem ready_agenda (f : FibreRef) : (s.ready f).agenda = s.agenda := rfl
@[simp] theorem ready_todo (f : FibreRef) : (s.ready f).todo = s.todo := rfl
@[simp] theorem ready_opened (f : FibreRef) : (s.ready f).opened = s.opened := rfl
@[simp] theorem ready_cur (f : FibreRef) : (s.ready f).cur = s.cur := rfl
@[simp] theorem ready_fresh (f : FibreRef) : (s.ready f).fresh = s.fresh := rfl
@[simp] theorem ready_nextId (f : FibreRef) : (s.ready f).nextId = s.nextId := rfl
@[simp] theorem ready_cores (f : FibreRef) : (s.ready f).cores = s.cores := rfl
@[simp] theorem ready_tiles (f : FibreRef) : (s.ready f).tiles = s.tiles := rfl
@[simp] theorem ready_gangs (f : FibreRef) : (s.ready f).gangs = s.gangs := rfl
@[simp] theorem ready_clusters (f : FibreRef) : (s.ready f).clusters = s.clusters := rfl
@[simp] theorem ready_dies (f : FibreRef) : (s.ready f).dies = s.dies := rfl
@[simp] theorem ready_parts (f : FibreRef) : (s.ready f).parts = s.parts := rfl
@[simp] theorem ready_mem (f : FibreRef) : (s.ready f).mem = s.mem := rfl
@[simp] theorem ready_tags (f : FibreRef) : (s.ready f).tags = s.tags := rfl
@[simp] theorem ready_poison (f : FibreRef) : (s.ready f).poison = s.poison := rfl
@[simp] theorem ready_errors (f : FibreRef) : (s.ready f).errors = s.errors := rfl
@[simp] theorem ready_flight (f : FibreRef) : (s.ready f).flight = s.flight := rfl
@[simp] theorem ready_messages (f : FibreRef) : (s.ready f).messages = s.messages := rfl
@[simp] theorem ready_moves (f : FibreRef) : (s.ready f).moves = s.moves := rfl
@[simp] theorem ready_subs (f : FibreRef) : (s.ready f).subs = s.subs := rfl
@[simp] theorem ready_queries (f : FibreRef) : (s.ready f).queries = s.queries := rfl
@[simp] theorem ready_walkers (f : FibreRef) : (s.ready f).walkers = s.walkers := rfl
@[simp] theorem ready_semWork (f : FibreRef) : (s.ready f).semWork = s.semWork := rfl
@[simp] theorem ready_semOld (f : FibreRef) : (s.ready f).semOld = s.semOld := rfl
@[simp] theorem ready_pkg (f : FibreRef) : (s.ready f).pkg = s.pkg := rfl

/-! ## complete -/

@[simp] theorem complete_clock (f : FibreRef) : (s.complete f).clock = s.clock := rfl
@[simp] theorem complete_inputs (f : FibreRef) : (s.complete f).inputs = s.inputs := rfl
@[simp] theorem complete_agenda (f : FibreRef) : (s.complete f).agenda = s.agenda := rfl
@[simp] theorem complete_todo (f : FibreRef) : (s.complete f).todo = s.todo := rfl
@[simp] theorem complete_opened (f : FibreRef) : (s.complete f).opened = s.opened := rfl
@[simp] theorem complete_cur (f : FibreRef) : (s.complete f).cur = s.cur := rfl
@[simp] theorem complete_fresh (f : FibreRef) : (s.complete f).fresh = s.fresh := rfl
@[simp] theorem complete_nextId (f : FibreRef) : (s.complete f).nextId = s.nextId := rfl
@[simp] theorem complete_cores (f : FibreRef) : (s.complete f).cores = s.cores := rfl
@[simp] theorem complete_tiles (f : FibreRef) : (s.complete f).tiles = s.tiles := rfl
@[simp] theorem complete_gangs (f : FibreRef) : (s.complete f).gangs = s.gangs := rfl
@[simp] theorem complete_clusters (f : FibreRef) : (s.complete f).clusters = s.clusters := rfl
@[simp] theorem complete_dies (f : FibreRef) : (s.complete f).dies = s.dies := rfl
@[simp] theorem complete_parts (f : FibreRef) : (s.complete f).parts = s.parts := rfl
@[simp] theorem complete_mem (f : FibreRef) : (s.complete f).mem = s.mem := rfl
@[simp] theorem complete_tags (f : FibreRef) : (s.complete f).tags = s.tags := rfl
@[simp] theorem complete_poison (f : FibreRef) : (s.complete f).poison = s.poison := rfl
@[simp] theorem complete_errors (f : FibreRef) : (s.complete f).errors = s.errors := rfl
@[simp] theorem complete_flight (f : FibreRef) : (s.complete f).flight = s.flight := rfl
@[simp] theorem complete_messages (f : FibreRef) : (s.complete f).messages = s.messages := rfl
@[simp] theorem complete_moves (f : FibreRef) : (s.complete f).moves = s.moves := rfl
@[simp] theorem complete_subs (f : FibreRef) : (s.complete f).subs = s.subs := rfl
@[simp] theorem complete_queries (f : FibreRef) : (s.complete f).queries = s.queries := rfl
@[simp] theorem complete_walkers (f : FibreRef) : (s.complete f).walkers = s.walkers := rfl
@[simp] theorem complete_semWork (f : FibreRef) : (s.complete f).semWork = s.semWork := rfl
@[simp] theorem complete_semOld (f : FibreRef) : (s.complete f).semOld = s.semOld := rfl
@[simp] theorem complete_pkg (f : FibreRef) : (s.complete f).pkg = s.pkg := rfl

/-! ## writeBytes -/

@[simp] theorem writeBytes_clock (n : Nat) (bs : List Byte) : (s.writeBytes n bs).clock = s.clock := rfl
@[simp] theorem writeBytes_inputs (n : Nat) (bs : List Byte) : (s.writeBytes n bs).inputs = s.inputs := rfl
@[simp] theorem writeBytes_agenda (n : Nat) (bs : List Byte) : (s.writeBytes n bs).agenda = s.agenda := rfl
@[simp] theorem writeBytes_todo (n : Nat) (bs : List Byte) : (s.writeBytes n bs).todo = s.todo := rfl
@[simp] theorem writeBytes_opened (n : Nat) (bs : List Byte) : (s.writeBytes n bs).opened = s.opened := rfl
@[simp] theorem writeBytes_cur (n : Nat) (bs : List Byte) : (s.writeBytes n bs).cur = s.cur := rfl
@[simp] theorem writeBytes_fresh (n : Nat) (bs : List Byte) : (s.writeBytes n bs).fresh = s.fresh := rfl
@[simp] theorem writeBytes_nextId (n : Nat) (bs : List Byte) : (s.writeBytes n bs).nextId = s.nextId := rfl
@[simp] theorem writeBytes_fibres (n : Nat) (bs : List Byte) : (s.writeBytes n bs).fibres = s.fibres := rfl
@[simp] theorem writeBytes_cores (n : Nat) (bs : List Byte) : (s.writeBytes n bs).cores = s.cores := rfl
@[simp] theorem writeBytes_tiles (n : Nat) (bs : List Byte) : (s.writeBytes n bs).tiles = s.tiles := rfl
@[simp] theorem writeBytes_gangs (n : Nat) (bs : List Byte) : (s.writeBytes n bs).gangs = s.gangs := rfl
@[simp] theorem writeBytes_clusters (n : Nat) (bs : List Byte) : (s.writeBytes n bs).clusters = s.clusters := rfl
@[simp] theorem writeBytes_dies (n : Nat) (bs : List Byte) : (s.writeBytes n bs).dies = s.dies := rfl
@[simp] theorem writeBytes_parts (n : Nat) (bs : List Byte) : (s.writeBytes n bs).parts = s.parts := rfl
@[simp] theorem writeBytes_flight (n : Nat) (bs : List Byte) : (s.writeBytes n bs).flight = s.flight := rfl
@[simp] theorem writeBytes_messages (n : Nat) (bs : List Byte) : (s.writeBytes n bs).messages = s.messages := rfl
@[simp] theorem writeBytes_moves (n : Nat) (bs : List Byte) : (s.writeBytes n bs).moves = s.moves := rfl
@[simp] theorem writeBytes_subs (n : Nat) (bs : List Byte) : (s.writeBytes n bs).subs = s.subs := rfl
@[simp] theorem writeBytes_queries (n : Nat) (bs : List Byte) : (s.writeBytes n bs).queries = s.queries := rfl
@[simp] theorem writeBytes_walkers (n : Nat) (bs : List Byte) : (s.writeBytes n bs).walkers = s.walkers := rfl
@[simp] theorem writeBytes_semWork (n : Nat) (bs : List Byte) : (s.writeBytes n bs).semWork = s.semWork := rfl
@[simp] theorem writeBytes_semOld (n : Nat) (bs : List Byte) : (s.writeBytes n bs).semOld = s.semOld := rfl
@[simp] theorem writeBytes_pkg (n : Nat) (bs : List Byte) : (s.writeBytes n bs).pkg = s.pkg := rfl

/-! ## poisonAt -/

@[simp] theorem poisonAt_clock (n m : Nat) : (s.poisonAt n m).clock = s.clock := rfl
@[simp] theorem poisonAt_inputs (n m : Nat) : (s.poisonAt n m).inputs = s.inputs := rfl
@[simp] theorem poisonAt_agenda (n m : Nat) : (s.poisonAt n m).agenda = s.agenda := rfl
@[simp] theorem poisonAt_todo (n m : Nat) : (s.poisonAt n m).todo = s.todo := rfl
@[simp] theorem poisonAt_opened (n m : Nat) : (s.poisonAt n m).opened = s.opened := rfl
@[simp] theorem poisonAt_cur (n m : Nat) : (s.poisonAt n m).cur = s.cur := rfl
@[simp] theorem poisonAt_fresh (n m : Nat) : (s.poisonAt n m).fresh = s.fresh := rfl
@[simp] theorem poisonAt_nextId (n m : Nat) : (s.poisonAt n m).nextId = s.nextId := rfl
@[simp] theorem poisonAt_fibres (n m : Nat) : (s.poisonAt n m).fibres = s.fibres := rfl
@[simp] theorem poisonAt_cores (n m : Nat) : (s.poisonAt n m).cores = s.cores := rfl
@[simp] theorem poisonAt_tiles (n m : Nat) : (s.poisonAt n m).tiles = s.tiles := rfl
@[simp] theorem poisonAt_gangs (n m : Nat) : (s.poisonAt n m).gangs = s.gangs := rfl
@[simp] theorem poisonAt_clusters (n m : Nat) : (s.poisonAt n m).clusters = s.clusters := rfl
@[simp] theorem poisonAt_dies (n m : Nat) : (s.poisonAt n m).dies = s.dies := rfl
@[simp] theorem poisonAt_parts (n m : Nat) : (s.poisonAt n m).parts = s.parts := rfl
@[simp] theorem poisonAt_mem (n m : Nat) : (s.poisonAt n m).mem = s.mem := rfl
@[simp] theorem poisonAt_tags (n m : Nat) : (s.poisonAt n m).tags = s.tags := rfl
@[simp] theorem poisonAt_flight (n m : Nat) : (s.poisonAt n m).flight = s.flight := rfl
@[simp] theorem poisonAt_messages (n m : Nat) : (s.poisonAt n m).messages = s.messages := rfl
@[simp] theorem poisonAt_moves (n m : Nat) : (s.poisonAt n m).moves = s.moves := rfl
@[simp] theorem poisonAt_subs (n m : Nat) : (s.poisonAt n m).subs = s.subs := rfl
@[simp] theorem poisonAt_queries (n m : Nat) : (s.poisonAt n m).queries = s.queries := rfl
@[simp] theorem poisonAt_walkers (n m : Nat) : (s.poisonAt n m).walkers = s.walkers := rfl
@[simp] theorem poisonAt_semWork (n m : Nat) : (s.poisonAt n m).semWork = s.semWork := rfl
@[simp] theorem poisonAt_semOld (n m : Nat) : (s.poisonAt n m).semOld = s.semOld := rfl
@[simp] theorem poisonAt_pkg (n m : Nat) : (s.poisonAt n m).pkg = s.pkg := rfl

/-! ## wipe -/

@[simp] theorem wipe_clock (n m : Nat) : (s.wipe n m).clock = s.clock := rfl
@[simp] theorem wipe_inputs (n m : Nat) : (s.wipe n m).inputs = s.inputs := rfl
@[simp] theorem wipe_agenda (n m : Nat) : (s.wipe n m).agenda = s.agenda := rfl
@[simp] theorem wipe_todo (n m : Nat) : (s.wipe n m).todo = s.todo := rfl
@[simp] theorem wipe_opened (n m : Nat) : (s.wipe n m).opened = s.opened := rfl
@[simp] theorem wipe_cur (n m : Nat) : (s.wipe n m).cur = s.cur := rfl
@[simp] theorem wipe_fresh (n m : Nat) : (s.wipe n m).fresh = s.fresh := rfl
@[simp] theorem wipe_nextId (n m : Nat) : (s.wipe n m).nextId = s.nextId := rfl
@[simp] theorem wipe_fibres (n m : Nat) : (s.wipe n m).fibres = s.fibres := rfl
@[simp] theorem wipe_cores (n m : Nat) : (s.wipe n m).cores = s.cores := rfl
@[simp] theorem wipe_tiles (n m : Nat) : (s.wipe n m).tiles = s.tiles := rfl
@[simp] theorem wipe_gangs (n m : Nat) : (s.wipe n m).gangs = s.gangs := rfl
@[simp] theorem wipe_clusters (n m : Nat) : (s.wipe n m).clusters = s.clusters := rfl
@[simp] theorem wipe_dies (n m : Nat) : (s.wipe n m).dies = s.dies := rfl
@[simp] theorem wipe_parts (n m : Nat) : (s.wipe n m).parts = s.parts := rfl
@[simp] theorem wipe_flight (n m : Nat) : (s.wipe n m).flight = s.flight := rfl
@[simp] theorem wipe_messages (n m : Nat) : (s.wipe n m).messages = s.messages := rfl
@[simp] theorem wipe_moves (n m : Nat) : (s.wipe n m).moves = s.moves := rfl
@[simp] theorem wipe_subs (n m : Nat) : (s.wipe n m).subs = s.subs := rfl
@[simp] theorem wipe_queries (n m : Nat) : (s.wipe n m).queries = s.queries := rfl
@[simp] theorem wipe_walkers (n m : Nat) : (s.wipe n m).walkers = s.walkers := rfl
@[simp] theorem wipe_semWork (n m : Nat) : (s.wipe n m).semWork = s.semWork := rfl
@[simp] theorem wipe_semOld (n m : Nat) : (s.wipe n m).semOld = s.semOld := rfl
@[simp] theorem wipe_pkg (n m : Nat) : (s.wipe n m).pkg = s.pkg := rfl

/-! ## Reads after writes -/

theorem fib_setFib (f m : FibreRef) (x : Fibre) : (s.setFib f x).fib m = if m = f then x else s.fib m := by
  simp [fib, setFib, tget_tset]
@[simp] theorem fib_setFib_same (f : FibreRef) (x : Fibre) : (s.setFib f x).fib f = x := by simp [fib_setFib]
@[simp] theorem fib_modFib_same (f : FibreRef) (h : Fibre → Fibre) : (s.modFib f h).fib f = h (s.fib f) := by simp [modFib]
theorem fib_modFib_ne (f m : FibreRef) (h : Fibre → Fibre) (hm : m ≠ f) : (s.modFib f h).fib m = s.fib m := by
  simp [modFib, fib_setFib, hm]
@[simp] theorem setFib_setFib (f : FibreRef) (x y : Fibre) : (s.setFib f x).setFib f y = s.setFib f y := by simp [setFib]

theorem core_setCore (c m : CoreId) (x : Core) : (s.setCore c x).core m = if m = c then x else s.core m := by
  simp [core, setCore, tget_tset]
@[simp] theorem core_setCore_same (c : CoreId) (x : Core) : (s.setCore c x).core c = x := by simp [core_setCore]
@[simp] theorem core_modCore_same (c : CoreId) (h : Core → Core) : (s.modCore c h).core c = h (s.core c) := by simp [modCore]
theorem core_modCore_ne (c m : CoreId) (h : Core → Core) (hm : m ≠ c) : (s.modCore c h).core m = s.core m := by
  simp [modCore, core_setCore, hm]
@[simp] theorem setCore_setCore (c : CoreId) (x y : Core) : (s.setCore c x).setCore c y = s.setCore c y := by simp [setCore]

theorem tile_setTile (n m : Nat) (x : Tile) : (s.setTile n x).tile m = if m = n then x else s.tile m := by
  simp [tile, setTile, tget_tset]
@[simp] theorem tile_setTile_same (n : Nat) (x : Tile) : (s.setTile n x).tile n = x := by simp [tile_setTile]
@[simp] theorem tile_modTile_same (n : Nat) (h : Tile → Tile) : (s.modTile n h).tile n = h (s.tile n) := by simp [modTile]
theorem tile_modTile_ne (n m : Nat) (h : Tile → Tile) (hm : m ≠ n) : (s.modTile n h).tile m = s.tile m := by
  simp [modTile, tile_setTile, hm]
@[simp] theorem setTile_setTile (n : Nat) (x y : Tile) : (s.setTile n x).setTile n y = s.setTile n y := by simp [setTile]

theorem gang_setGang (n m : Nat) (x : Gang) : (s.setGang n x).gang m = if m = n then x else s.gang m := by
  simp [gang, setGang, tget_tset]
@[simp] theorem gang_setGang_same (n : Nat) (x : Gang) : (s.setGang n x).gang n = x := by simp [gang_setGang]
@[simp] theorem gang_modGang_same (n : Nat) (h : Gang → Gang) : (s.modGang n h).gang n = h (s.gang n) := by simp [modGang]
theorem gang_modGang_ne (n m : Nat) (h : Gang → Gang) (hm : m ≠ n) : (s.modGang n h).gang m = s.gang m := by
  simp [modGang, gang_setGang, hm]
@[simp] theorem setGang_setGang (n : Nat) (x y : Gang) : (s.setGang n x).setGang n y = s.setGang n y := by simp [setGang]

theorem die_setDie (n m : Nat) (x : Die) : (s.setDie n x).die m = if m = n then x else s.die m := by
  simp [die, setDie, tget_tset]
@[simp] theorem die_setDie_same (n : Nat) (x : Die) : (s.setDie n x).die n = x := by simp [die_setDie]
@[simp] theorem die_modDie_same (n : Nat) (h : Die → Die) : (s.modDie n h).die n = h (s.die n) := by simp [modDie]
theorem die_modDie_ne (n m : Nat) (h : Die → Die) (hm : m ≠ n) : (s.modDie n h).die m = s.die m := by
  simp [modDie, die_setDie, hm]
@[simp] theorem setDie_setDie (n : Nat) (x y : Die) : (s.setDie n x).setDie n y = s.setDie n y := by simp [setDie]

theorem part_setPart (n m : Nat) (x : Part) : (s.setPart n x).part m = if m = n then x else s.part m := by
  simp [part, setPart, tget_tset]
@[simp] theorem part_setPart_same (n : Nat) (x : Part) : (s.setPart n x).part n = x := by simp [part_setPart]
@[simp] theorem part_modPart_same (n : Nat) (h : Part → Part) : (s.modPart n h).part n = h (s.part n) := by simp [modPart]
theorem part_modPart_ne (n m : Nat) (h : Part → Part) (hm : m ≠ n) : (s.modPart n h).part m = s.part m := by
  simp [modPart, part_setPart, hm]
@[simp] theorem setPart_setPart (n : Nat) (x y : Part) : (s.setPart n x).setPart n y = s.setPart n y := by simp [setPart]

theorem cluster_modCluster (n m : Nat) (h : Cluster → Cluster) :
    (s.modCluster n h).cluster m = if m = n then h (s.cluster n) else s.cluster m := by
  simp [cluster, modCluster, tget_tset]
@[simp] theorem modPkg_pkg (h : Package → Package) : (s.modPkg h).pkg = h s.pkg := rfl
@[simp] theorem modPkg_modPkg (h k : Package → Package) : (s.modPkg h).modPkg k = s.modPkg fun p => k (h p) := rfl
@[simp] theorem sched_agenda (n : Nat) (e : Instr) : (s.sched n e).agenda = s.agenda ++ [(n, e)] := rfl
@[simp] theorem now_agenda (e : Instr) : (s.now e).agenda = s.agenda ++ [(s.clock, e)] := rfl
theorem meter_modMeter (n m : Nat) (h : Meter → Meter) :
    (s.modMeter n h).meter m = if m = n then h (s.meter n) else s.meter m := by
  simp [meter, modMeter, modPkg, tget_tset]

@[simp] theorem fib_after_setCore (c : CoreId) (x : Core) (q : FibreRef) : (s.setCore c x).fib q = s.fib q := rfl
@[simp] theorem fib_after_setTile (n : Nat) (x : Tile) (q : FibreRef) : (s.setTile n x).fib q = s.fib q := rfl
@[simp] theorem fib_after_setGang (n : Nat) (x : Gang) (q : FibreRef) : (s.setGang n x).fib q = s.fib q := rfl
@[simp] theorem fib_after_modCluster (n : Nat) (h : Cluster → Cluster) (q : FibreRef) : (s.modCluster n h).fib q = s.fib q := rfl
@[simp] theorem fib_after_setDie (n : Nat) (x : Die) (q : FibreRef) : (s.setDie n x).fib q = s.fib q := rfl
@[simp] theorem fib_after_setPart (n : Nat) (x : Part) (q : FibreRef) : (s.setPart n x).fib q = s.fib q := rfl
@[simp] theorem fib_after_modPkg (h : Package → Package) (q : FibreRef) : (s.modPkg h).fib q = s.fib q := rfl
@[simp] theorem fib_after_setAccess (n : Nat) (x : Access) (q : FibreRef) : (s.setAccess n x).fib q = s.fib q := rfl
@[simp] theorem fib_after_dropAccess (n : Nat) (q : FibreRef) : (s.dropAccess n).fib q = s.fib q := rfl
@[simp] theorem fib_after_sched (n : Nat) (e : Instr) (q : FibreRef) : (s.sched n e).fib q = s.fib q := rfl
@[simp] theorem fib_after_modCore (c : CoreId) (h : Core → Core) (q : FibreRef) : (s.modCore c h).fib q = s.fib q := rfl
@[simp] theorem fib_after_modTile (n : Nat) (h : Tile → Tile) (q : FibreRef) : (s.modTile n h).fib q = s.fib q := rfl
@[simp] theorem fib_after_modGang (n : Nat) (h : Gang → Gang) (q : FibreRef) : (s.modGang n h).fib q = s.fib q := rfl
@[simp] theorem fib_after_modDie (n : Nat) (h : Die → Die) (q : FibreRef) : (s.modDie n h).fib q = s.fib q := rfl
@[simp] theorem fib_after_modPart (n : Nat) (h : Part → Part) (q : FibreRef) : (s.modPart n h).fib q = s.fib q := rfl
@[simp] theorem fib_after_modMeter (n : Nat) (h : Meter → Meter) (q : FibreRef) : (s.modMeter n h).fib q = s.fib q := rfl
@[simp] theorem fib_after_writeBytes (n : Nat) (bs : List Byte) (q : FibreRef) : (s.writeBytes n bs).fib q = s.fib q := rfl
@[simp] theorem fib_after_wipe (n m : Nat) (q : FibreRef) : (s.wipe n m).fib q = s.fib q := rfl
@[simp] theorem core_after_setFib (f : FibreRef) (x : Fibre) (q : CoreId) : (s.setFib f x).core q = s.core q := rfl
@[simp] theorem core_after_setTile (n : Nat) (x : Tile) (q : CoreId) : (s.setTile n x).core q = s.core q := rfl
@[simp] theorem core_after_setGang (n : Nat) (x : Gang) (q : CoreId) : (s.setGang n x).core q = s.core q := rfl
@[simp] theorem core_after_modCluster (n : Nat) (h : Cluster → Cluster) (q : CoreId) : (s.modCluster n h).core q = s.core q := rfl
@[simp] theorem core_after_setDie (n : Nat) (x : Die) (q : CoreId) : (s.setDie n x).core q = s.core q := rfl
@[simp] theorem core_after_setPart (n : Nat) (x : Part) (q : CoreId) : (s.setPart n x).core q = s.core q := rfl
@[simp] theorem core_after_modPkg (h : Package → Package) (q : CoreId) : (s.modPkg h).core q = s.core q := rfl
@[simp] theorem core_after_setAccess (n : Nat) (x : Access) (q : CoreId) : (s.setAccess n x).core q = s.core q := rfl
@[simp] theorem core_after_dropAccess (n : Nat) (q : CoreId) : (s.dropAccess n).core q = s.core q := rfl
@[simp] theorem core_after_sched (n : Nat) (e : Instr) (q : CoreId) : (s.sched n e).core q = s.core q := rfl
@[simp] theorem core_after_latch (n : Nat) (h : FibreRef → Bool) (q : CoreId) : (s.latch n h).core q = s.core q := rfl
@[simp] theorem core_after_modFib (f : FibreRef) (h : Fibre → Fibre) (q : CoreId) : (s.modFib f h).core q = s.core q := rfl
@[simp] theorem core_after_modTile (n : Nat) (h : Tile → Tile) (q : CoreId) : (s.modTile n h).core q = s.core q := rfl
@[simp] theorem core_after_modGang (n : Nat) (h : Gang → Gang) (q : CoreId) : (s.modGang n h).core q = s.core q := rfl
@[simp] theorem core_after_modDie (n : Nat) (h : Die → Die) (q : CoreId) : (s.modDie n h).core q = s.core q := rfl
@[simp] theorem core_after_modPart (n : Nat) (h : Part → Part) (q : CoreId) : (s.modPart n h).core q = s.core q := rfl
@[simp] theorem core_after_modMeter (n : Nat) (h : Meter → Meter) (q : CoreId) : (s.modMeter n h).core q = s.core q := rfl
@[simp] theorem core_after_parkF (f : FibreRef) (n : Nat) (c : Cont) (q : CoreId) : (s.parkF f n c).core q = s.core q := rfl
@[simp] theorem core_after_ready (f : FibreRef) (q : CoreId) : (s.ready f).core q = s.core q := rfl
@[simp] theorem core_after_complete (f : FibreRef) (q : CoreId) : (s.complete f).core q = s.core q := rfl
@[simp] theorem core_after_writeBytes (n : Nat) (bs : List Byte) (q : CoreId) : (s.writeBytes n bs).core q = s.core q := rfl
@[simp] theorem core_after_wipe (n m : Nat) (q : CoreId) : (s.wipe n m).core q = s.core q := rfl
@[simp] theorem tile_after_setFib (f : FibreRef) (x : Fibre) (q : Nat) : (s.setFib f x).tile q = s.tile q := rfl
@[simp] theorem tile_after_setCore (c : CoreId) (x : Core) (q : Nat) : (s.setCore c x).tile q = s.tile q := rfl
@[simp] theorem tile_after_setGang (n : Nat) (x : Gang) (q : Nat) : (s.setGang n x).tile q = s.tile q := rfl
@[simp] theorem tile_after_modCluster (n : Nat) (h : Cluster → Cluster) (q : Nat) : (s.modCluster n h).tile q = s.tile q := rfl
@[simp] theorem tile_after_setDie (n : Nat) (x : Die) (q : Nat) : (s.setDie n x).tile q = s.tile q := rfl
@[simp] theorem tile_after_setPart (n : Nat) (x : Part) (q : Nat) : (s.setPart n x).tile q = s.tile q := rfl
@[simp] theorem tile_after_modPkg (h : Package → Package) (q : Nat) : (s.modPkg h).tile q = s.tile q := rfl
@[simp] theorem tile_after_setAccess (n : Nat) (x : Access) (q : Nat) : (s.setAccess n x).tile q = s.tile q := rfl
@[simp] theorem tile_after_dropAccess (n : Nat) (q : Nat) : (s.dropAccess n).tile q = s.tile q := rfl
@[simp] theorem tile_after_sched (n : Nat) (e : Instr) (q : Nat) : (s.sched n e).tile q = s.tile q := rfl
@[simp] theorem tile_after_latch (n : Nat) (h : FibreRef → Bool) (q : Nat) : (s.latch n h).tile q = s.tile q := rfl
@[simp] theorem tile_after_modFib (f : FibreRef) (h : Fibre → Fibre) (q : Nat) : (s.modFib f h).tile q = s.tile q := rfl
@[simp] theorem tile_after_modCore (c : CoreId) (h : Core → Core) (q : Nat) : (s.modCore c h).tile q = s.tile q := rfl
@[simp] theorem tile_after_modGang (n : Nat) (h : Gang → Gang) (q : Nat) : (s.modGang n h).tile q = s.tile q := rfl
@[simp] theorem tile_after_modDie (n : Nat) (h : Die → Die) (q : Nat) : (s.modDie n h).tile q = s.tile q := rfl
@[simp] theorem tile_after_modPart (n : Nat) (h : Part → Part) (q : Nat) : (s.modPart n h).tile q = s.tile q := rfl
@[simp] theorem tile_after_modMeter (n : Nat) (h : Meter → Meter) (q : Nat) : (s.modMeter n h).tile q = s.tile q := rfl
@[simp] theorem tile_after_parkF (f : FibreRef) (n : Nat) (c : Cont) (q : Nat) : (s.parkF f n c).tile q = s.tile q := rfl
@[simp] theorem tile_after_ready (f : FibreRef) (q : Nat) : (s.ready f).tile q = s.tile q := rfl
@[simp] theorem tile_after_complete (f : FibreRef) (q : Nat) : (s.complete f).tile q = s.tile q := rfl
@[simp] theorem tile_after_writeBytes (n : Nat) (bs : List Byte) (q : Nat) : (s.writeBytes n bs).tile q = s.tile q := rfl
@[simp] theorem tile_after_wipe (n m : Nat) (q : Nat) : (s.wipe n m).tile q = s.tile q := rfl
@[simp] theorem gang_after_setFib (f : FibreRef) (x : Fibre) (q : Nat) : (s.setFib f x).gang q = s.gang q := rfl
@[simp] theorem gang_after_setCore (c : CoreId) (x : Core) (q : Nat) : (s.setCore c x).gang q = s.gang q := rfl
@[simp] theorem gang_after_setTile (n : Nat) (x : Tile) (q : Nat) : (s.setTile n x).gang q = s.gang q := rfl
@[simp] theorem gang_after_modCluster (n : Nat) (h : Cluster → Cluster) (q : Nat) : (s.modCluster n h).gang q = s.gang q := rfl
@[simp] theorem gang_after_setDie (n : Nat) (x : Die) (q : Nat) : (s.setDie n x).gang q = s.gang q := rfl
@[simp] theorem gang_after_setPart (n : Nat) (x : Part) (q : Nat) : (s.setPart n x).gang q = s.gang q := rfl
@[simp] theorem gang_after_modPkg (h : Package → Package) (q : Nat) : (s.modPkg h).gang q = s.gang q := rfl
@[simp] theorem gang_after_setAccess (n : Nat) (x : Access) (q : Nat) : (s.setAccess n x).gang q = s.gang q := rfl
@[simp] theorem gang_after_dropAccess (n : Nat) (q : Nat) : (s.dropAccess n).gang q = s.gang q := rfl
@[simp] theorem gang_after_sched (n : Nat) (e : Instr) (q : Nat) : (s.sched n e).gang q = s.gang q := rfl
@[simp] theorem gang_after_latch (n : Nat) (h : FibreRef → Bool) (q : Nat) : (s.latch n h).gang q = s.gang q := rfl
@[simp] theorem gang_after_modFib (f : FibreRef) (h : Fibre → Fibre) (q : Nat) : (s.modFib f h).gang q = s.gang q := rfl
@[simp] theorem gang_after_modCore (c : CoreId) (h : Core → Core) (q : Nat) : (s.modCore c h).gang q = s.gang q := rfl
@[simp] theorem gang_after_modTile (n : Nat) (h : Tile → Tile) (q : Nat) : (s.modTile n h).gang q = s.gang q := rfl
@[simp] theorem gang_after_modDie (n : Nat) (h : Die → Die) (q : Nat) : (s.modDie n h).gang q = s.gang q := rfl
@[simp] theorem gang_after_modPart (n : Nat) (h : Part → Part) (q : Nat) : (s.modPart n h).gang q = s.gang q := rfl
@[simp] theorem gang_after_modMeter (n : Nat) (h : Meter → Meter) (q : Nat) : (s.modMeter n h).gang q = s.gang q := rfl
@[simp] theorem gang_after_parkF (f : FibreRef) (n : Nat) (c : Cont) (q : Nat) : (s.parkF f n c).gang q = s.gang q := rfl
@[simp] theorem gang_after_ready (f : FibreRef) (q : Nat) : (s.ready f).gang q = s.gang q := rfl
@[simp] theorem gang_after_complete (f : FibreRef) (q : Nat) : (s.complete f).gang q = s.gang q := rfl
@[simp] theorem gang_after_writeBytes (n : Nat) (bs : List Byte) (q : Nat) : (s.writeBytes n bs).gang q = s.gang q := rfl
@[simp] theorem gang_after_wipe (n m : Nat) (q : Nat) : (s.wipe n m).gang q = s.gang q := rfl
@[simp] theorem cluster_after_setFib (f : FibreRef) (x : Fibre) (q : Nat) : (s.setFib f x).cluster q = s.cluster q := rfl
@[simp] theorem cluster_after_setCore (c : CoreId) (x : Core) (q : Nat) : (s.setCore c x).cluster q = s.cluster q := rfl
@[simp] theorem cluster_after_setTile (n : Nat) (x : Tile) (q : Nat) : (s.setTile n x).cluster q = s.cluster q := rfl
@[simp] theorem cluster_after_setGang (n : Nat) (x : Gang) (q : Nat) : (s.setGang n x).cluster q = s.cluster q := rfl
@[simp] theorem cluster_after_setDie (n : Nat) (x : Die) (q : Nat) : (s.setDie n x).cluster q = s.cluster q := rfl
@[simp] theorem cluster_after_setPart (n : Nat) (x : Part) (q : Nat) : (s.setPart n x).cluster q = s.cluster q := rfl
@[simp] theorem cluster_after_modPkg (h : Package → Package) (q : Nat) : (s.modPkg h).cluster q = s.cluster q := rfl
@[simp] theorem cluster_after_setAccess (n : Nat) (x : Access) (q : Nat) : (s.setAccess n x).cluster q = s.cluster q := rfl
@[simp] theorem cluster_after_dropAccess (n : Nat) (q : Nat) : (s.dropAccess n).cluster q = s.cluster q := rfl
@[simp] theorem cluster_after_sched (n : Nat) (e : Instr) (q : Nat) : (s.sched n e).cluster q = s.cluster q := rfl
@[simp] theorem cluster_after_latch (n : Nat) (h : FibreRef → Bool) (q : Nat) : (s.latch n h).cluster q = s.cluster q := rfl
@[simp] theorem cluster_after_modFib (f : FibreRef) (h : Fibre → Fibre) (q : Nat) : (s.modFib f h).cluster q = s.cluster q := rfl
@[simp] theorem cluster_after_modCore (c : CoreId) (h : Core → Core) (q : Nat) : (s.modCore c h).cluster q = s.cluster q := rfl
@[simp] theorem cluster_after_modTile (n : Nat) (h : Tile → Tile) (q : Nat) : (s.modTile n h).cluster q = s.cluster q := rfl
@[simp] theorem cluster_after_modGang (n : Nat) (h : Gang → Gang) (q : Nat) : (s.modGang n h).cluster q = s.cluster q := rfl
@[simp] theorem cluster_after_modDie (n : Nat) (h : Die → Die) (q : Nat) : (s.modDie n h).cluster q = s.cluster q := rfl
@[simp] theorem cluster_after_modPart (n : Nat) (h : Part → Part) (q : Nat) : (s.modPart n h).cluster q = s.cluster q := rfl
@[simp] theorem cluster_after_modMeter (n : Nat) (h : Meter → Meter) (q : Nat) : (s.modMeter n h).cluster q = s.cluster q := rfl
@[simp] theorem cluster_after_parkF (f : FibreRef) (n : Nat) (c : Cont) (q : Nat) : (s.parkF f n c).cluster q = s.cluster q := rfl
@[simp] theorem cluster_after_ready (f : FibreRef) (q : Nat) : (s.ready f).cluster q = s.cluster q := rfl
@[simp] theorem cluster_after_complete (f : FibreRef) (q : Nat) : (s.complete f).cluster q = s.cluster q := rfl
@[simp] theorem cluster_after_writeBytes (n : Nat) (bs : List Byte) (q : Nat) : (s.writeBytes n bs).cluster q = s.cluster q := rfl
@[simp] theorem cluster_after_wipe (n m : Nat) (q : Nat) : (s.wipe n m).cluster q = s.cluster q := rfl
@[simp] theorem die_after_setFib (f : FibreRef) (x : Fibre) (q : Nat) : (s.setFib f x).die q = s.die q := rfl
@[simp] theorem die_after_setCore (c : CoreId) (x : Core) (q : Nat) : (s.setCore c x).die q = s.die q := rfl
@[simp] theorem die_after_setTile (n : Nat) (x : Tile) (q : Nat) : (s.setTile n x).die q = s.die q := rfl
@[simp] theorem die_after_setGang (n : Nat) (x : Gang) (q : Nat) : (s.setGang n x).die q = s.die q := rfl
@[simp] theorem die_after_modCluster (n : Nat) (h : Cluster → Cluster) (q : Nat) : (s.modCluster n h).die q = s.die q := rfl
@[simp] theorem die_after_setPart (n : Nat) (x : Part) (q : Nat) : (s.setPart n x).die q = s.die q := rfl
@[simp] theorem die_after_modPkg (h : Package → Package) (q : Nat) : (s.modPkg h).die q = s.die q := rfl
@[simp] theorem die_after_setAccess (n : Nat) (x : Access) (q : Nat) : (s.setAccess n x).die q = s.die q := rfl
@[simp] theorem die_after_dropAccess (n : Nat) (q : Nat) : (s.dropAccess n).die q = s.die q := rfl
@[simp] theorem die_after_sched (n : Nat) (e : Instr) (q : Nat) : (s.sched n e).die q = s.die q := rfl
@[simp] theorem die_after_latch (n : Nat) (h : FibreRef → Bool) (q : Nat) : (s.latch n h).die q = s.die q := rfl
@[simp] theorem die_after_modFib (f : FibreRef) (h : Fibre → Fibre) (q : Nat) : (s.modFib f h).die q = s.die q := rfl
@[simp] theorem die_after_modCore (c : CoreId) (h : Core → Core) (q : Nat) : (s.modCore c h).die q = s.die q := rfl
@[simp] theorem die_after_modTile (n : Nat) (h : Tile → Tile) (q : Nat) : (s.modTile n h).die q = s.die q := rfl
@[simp] theorem die_after_modGang (n : Nat) (h : Gang → Gang) (q : Nat) : (s.modGang n h).die q = s.die q := rfl
@[simp] theorem die_after_modPart (n : Nat) (h : Part → Part) (q : Nat) : (s.modPart n h).die q = s.die q := rfl
@[simp] theorem die_after_modMeter (n : Nat) (h : Meter → Meter) (q : Nat) : (s.modMeter n h).die q = s.die q := rfl
@[simp] theorem die_after_parkF (f : FibreRef) (n : Nat) (c : Cont) (q : Nat) : (s.parkF f n c).die q = s.die q := rfl
@[simp] theorem die_after_ready (f : FibreRef) (q : Nat) : (s.ready f).die q = s.die q := rfl
@[simp] theorem die_after_complete (f : FibreRef) (q : Nat) : (s.complete f).die q = s.die q := rfl
@[simp] theorem die_after_writeBytes (n : Nat) (bs : List Byte) (q : Nat) : (s.writeBytes n bs).die q = s.die q := rfl
@[simp] theorem die_after_wipe (n m : Nat) (q : Nat) : (s.wipe n m).die q = s.die q := rfl
@[simp] theorem part_after_setFib (f : FibreRef) (x : Fibre) (q : Nat) : (s.setFib f x).part q = s.part q := rfl
@[simp] theorem part_after_setCore (c : CoreId) (x : Core) (q : Nat) : (s.setCore c x).part q = s.part q := rfl
@[simp] theorem part_after_setTile (n : Nat) (x : Tile) (q : Nat) : (s.setTile n x).part q = s.part q := rfl
@[simp] theorem part_after_setGang (n : Nat) (x : Gang) (q : Nat) : (s.setGang n x).part q = s.part q := rfl
@[simp] theorem part_after_modCluster (n : Nat) (h : Cluster → Cluster) (q : Nat) : (s.modCluster n h).part q = s.part q := rfl
@[simp] theorem part_after_setDie (n : Nat) (x : Die) (q : Nat) : (s.setDie n x).part q = s.part q := rfl
@[simp] theorem part_after_modPkg (h : Package → Package) (q : Nat) : (s.modPkg h).part q = s.part q := rfl
@[simp] theorem part_after_setAccess (n : Nat) (x : Access) (q : Nat) : (s.setAccess n x).part q = s.part q := rfl
@[simp] theorem part_after_dropAccess (n : Nat) (q : Nat) : (s.dropAccess n).part q = s.part q := rfl
@[simp] theorem part_after_sched (n : Nat) (e : Instr) (q : Nat) : (s.sched n e).part q = s.part q := rfl
@[simp] theorem part_after_latch (n : Nat) (h : FibreRef → Bool) (q : Nat) : (s.latch n h).part q = s.part q := rfl
@[simp] theorem part_after_modFib (f : FibreRef) (h : Fibre → Fibre) (q : Nat) : (s.modFib f h).part q = s.part q := rfl
@[simp] theorem part_after_modCore (c : CoreId) (h : Core → Core) (q : Nat) : (s.modCore c h).part q = s.part q := rfl
@[simp] theorem part_after_modTile (n : Nat) (h : Tile → Tile) (q : Nat) : (s.modTile n h).part q = s.part q := rfl
@[simp] theorem part_after_modGang (n : Nat) (h : Gang → Gang) (q : Nat) : (s.modGang n h).part q = s.part q := rfl
@[simp] theorem part_after_modDie (n : Nat) (h : Die → Die) (q : Nat) : (s.modDie n h).part q = s.part q := rfl
@[simp] theorem part_after_modMeter (n : Nat) (h : Meter → Meter) (q : Nat) : (s.modMeter n h).part q = s.part q := rfl
@[simp] theorem part_after_parkF (f : FibreRef) (n : Nat) (c : Cont) (q : Nat) : (s.parkF f n c).part q = s.part q := rfl
@[simp] theorem part_after_ready (f : FibreRef) (q : Nat) : (s.ready f).part q = s.part q := rfl
@[simp] theorem part_after_complete (f : FibreRef) (q : Nat) : (s.complete f).part q = s.part q := rfl
@[simp] theorem part_after_writeBytes (n : Nat) (bs : List Byte) (q : Nat) : (s.writeBytes n bs).part q = s.part q := rfl
@[simp] theorem part_after_wipe (n m : Nat) (q : Nat) : (s.wipe n m).part q = s.part q := rfl
@[simp] theorem meter_after_setFib (f : FibreRef) (x : Fibre) (q : Nat) : (s.setFib f x).meter q = s.meter q := rfl
@[simp] theorem meter_after_setCore (c : CoreId) (x : Core) (q : Nat) : (s.setCore c x).meter q = s.meter q := rfl
@[simp] theorem meter_after_setTile (n : Nat) (x : Tile) (q : Nat) : (s.setTile n x).meter q = s.meter q := rfl
@[simp] theorem meter_after_setGang (n : Nat) (x : Gang) (q : Nat) : (s.setGang n x).meter q = s.meter q := rfl
@[simp] theorem meter_after_modCluster (n : Nat) (h : Cluster → Cluster) (q : Nat) : (s.modCluster n h).meter q = s.meter q := rfl
@[simp] theorem meter_after_setDie (n : Nat) (x : Die) (q : Nat) : (s.setDie n x).meter q = s.meter q := rfl
@[simp] theorem meter_after_setPart (n : Nat) (x : Part) (q : Nat) : (s.setPart n x).meter q = s.meter q := rfl
@[simp] theorem meter_after_setAccess (n : Nat) (x : Access) (q : Nat) : (s.setAccess n x).meter q = s.meter q := rfl
@[simp] theorem meter_after_dropAccess (n : Nat) (q : Nat) : (s.dropAccess n).meter q = s.meter q := rfl
@[simp] theorem meter_after_sched (n : Nat) (e : Instr) (q : Nat) : (s.sched n e).meter q = s.meter q := rfl
@[simp] theorem meter_after_latch (n : Nat) (h : FibreRef → Bool) (q : Nat) : (s.latch n h).meter q = s.meter q := rfl
@[simp] theorem meter_after_modFib (f : FibreRef) (h : Fibre → Fibre) (q : Nat) : (s.modFib f h).meter q = s.meter q := rfl
@[simp] theorem meter_after_modCore (c : CoreId) (h : Core → Core) (q : Nat) : (s.modCore c h).meter q = s.meter q := rfl
@[simp] theorem meter_after_modTile (n : Nat) (h : Tile → Tile) (q : Nat) : (s.modTile n h).meter q = s.meter q := rfl
@[simp] theorem meter_after_modGang (n : Nat) (h : Gang → Gang) (q : Nat) : (s.modGang n h).meter q = s.meter q := rfl
@[simp] theorem meter_after_modDie (n : Nat) (h : Die → Die) (q : Nat) : (s.modDie n h).meter q = s.meter q := rfl
@[simp] theorem meter_after_modPart (n : Nat) (h : Part → Part) (q : Nat) : (s.modPart n h).meter q = s.meter q := rfl
@[simp] theorem meter_after_parkF (f : FibreRef) (n : Nat) (c : Cont) (q : Nat) : (s.parkF f n c).meter q = s.meter q := rfl
@[simp] theorem meter_after_ready (f : FibreRef) (q : Nat) : (s.ready f).meter q = s.meter q := rfl
@[simp] theorem meter_after_complete (f : FibreRef) (q : Nat) : (s.complete f).meter q = s.meter q := rfl
@[simp] theorem meter_after_writeBytes (n : Nat) (bs : List Byte) (q : Nat) : (s.writeBytes n bs).meter q = s.meter q := rfl
@[simp] theorem meter_after_wipe (n m : Nat) (q : Nat) : (s.wipe n m).meter q = s.meter q := rfl

end Sys2Proof.Machine.State
end

