-- ==== Sys2Proof/Laws/Memory.lean ====
section
/-! SUPPORT. The laws of memory: every operation keeps the canonical form (log 1), a read after a write gives what was written, and a
write leaves every other byte as it was. -/

namespace Sys2Proof.Machine

/-! ## The canonical form -/

theorem cellsFrom_mono {m : List Host.Cell} {lo hi : Nat} (h : lo ≤ hi) (w : cellsFrom hi m = true) : cellsFrom lo m = true := by
  cases m with
  | nil => rfl
  | cons c m =>
    obtain ⟨a, b⟩ := c
    simp only [cellsFrom, Bool.and_eq_true, decide_eq_true_eq] at w ⊢
    exact ⟨⟨by omega, w.1.2⟩, w.2⟩

theorem setByte_cellsFrom {m : List Host.Cell} {lo a : Nat} {b : Byte} (h : lo ≤ a) (w : cellsFrom lo m = true) :
    cellsFrom lo (setByte m a b) = true := by
  induction m generalizing lo with
  | nil => by_cases hb : b = initByte a <;> simp [setByte, cellsFrom, hb, h]
  | cons c m ih =>
    obtain ⟨x, y⟩ := c
    have w' := w
    simp only [cellsFrom, Bool.and_eq_true, decide_eq_true_eq] at w
    simp only [setByte]
    split
    · split
      · exact w'
      · rename_i hb
        simp only [cellsFrom, Bool.and_eq_true, decide_eq_true_eq]
        exact ⟨⟨h, by simpa using hb⟩, ⟨by omega, w.1.2⟩, w.2⟩
    · split
      · rename_i hx
        split
        · exact cellsFrom_mono (by omega) w.2
        · rename_i hb
          simp only [cellsFrom, Bool.and_eq_true, decide_eq_true_eq]
          exact ⟨⟨h, by simpa using hb⟩, by subst hx; exact w.2⟩
      · simp only [cellsFrom, Bool.and_eq_true, decide_eq_true_eq]
        exact ⟨w.1, ih (by omega) w.2⟩

/-- Setting a byte keeps the canonical form. -/
theorem setByte_wf {m : List Host.Cell} (a : Nat) (b : Byte) (w : Memory.wf m = true) : Memory.wf (setByte m a b) = true :=
  setByte_cellsFrom (Nat.zero_le a) w

/-- Setting bytes keeps the canonical form. -/
theorem setBytes_wf {m : List Host.Cell} (a : Nat) (bs : List Byte) (w : Memory.wf m = true) : Memory.wf (setBytes m a bs) = true := by
  induction bs generalizing m a with
  | nil => exact w
  | cons b bs ih => exact ih (a + 1) (setByte_wf a b w)

theorem filter_cellsFrom {m : List Host.Cell} {lo : Nat} (p : Host.Cell → Bool) (w : cellsFrom lo m = true) :
    cellsFrom lo (m.filter p) = true := by
  induction m generalizing lo with
  | nil => rfl
  | cons c m ih =>
    obtain ⟨x, y⟩ := c
    simp only [cellsFrom, Bool.and_eq_true, decide_eq_true_eq] at w
    by_cases hp : p (x, y)
    · simp only [List.filter_cons, hp, if_true, cellsFrom, Bool.and_eq_true, decide_eq_true_eq]
      exact ⟨w.1, ih w.2⟩
    · simp only [List.filter_cons, hp]
      exact cellsFrom_mono (by omega) (ih w.2)

/-- Forgetting some cells keeps the canonical form. -/
theorem filter_wf {m : List Host.Cell} (p : Host.Cell → Bool) (w : Memory.wf m = true) : Memory.wf (m.filter p) = true := filter_cellsFrom p w

theorem dropCells_wf {m : List Host.Cell} (lo hi : Nat) (w : Memory.wf m = true) : Memory.wf (dropCells m lo hi) = true := filter_wf _ w

/-- Writes, wipes and marks keep the canonical form. -/
@[simp] theorem writeBytes_mem (s : State) (a : Nat) (bs : List Byte) : (s.writeBytes a bs).mem = setBytes s.mem a bs := rfl
theorem writeBytes_wf {s : State} (a : Nat) (bs : List Byte) (w : Memory.wf s.mem = true) : Memory.wf (s.writeBytes a bs).mem = true := by
  rw [writeBytes_mem]
  exact setBytes_wf a bs w
theorem writeCap_mem (s : State) (a : Nat) (c : Cap) :
    (s.writeCap a c).mem = (s.writeBytes a (leBytes 16 c.bits.toNat)).mem := by
  simp only [State.writeCap]
  generalize s.writeBytes a (leBytes 16 c.bits.toNat) = t
  cases c.tag <;> rfl
theorem writeCap_wf {s : State} (a : Nat) (c : Cap) (w : Memory.wf s.mem = true) : Memory.wf (s.writeCap a c).mem = true := by
  rw [writeCap_mem]
  exact writeBytes_wf a _ w
theorem wipe_wf {s : State} (a n : Nat) (w : Memory.wf s.mem = true) : Memory.wf (s.wipe a n).mem = true := by
  rw [show (s.wipe a n).mem = dropCells s.mem a (a + n) from rfl]
  exact dropCells_wf a (a + n) w

/-! ## Reads after writes -/

/-- A byte that a write does not touch, in any memory. -/
theorem getByte_setByte_ne {m : List Host.Cell} {a x : Nat} (b : Byte) (h : x ≠ a) : getByte (setByte m a b) x = getByte m x := by
  induction m with
  | nil => by_cases hb : b = initByte a <;> simp [setByte, getByte, hb, h]
  | cons c m ih =>
    obtain ⟨y, z⟩ := c
    simp only [setByte]
    split
    · split <;> simp [getByte, h]
    · split
      · rename_i hy
        subst hy
        split <;> simp [getByte, h]
      · simp [getByte, ih]

theorem getByte_below {m : List Host.Cell} {lo a : Nat} (w : cellsFrom lo m = true) (h : a < lo) : getByte m a = initByte a := by
  induction m generalizing lo with
  | nil => rfl
  | cons c m ih =>
    obtain ⟨x, y⟩ := c
    simp only [cellsFrom, Bool.and_eq_true, decide_eq_true_eq] at w
    simp only [getByte]
    split
    · omega
    · exact ih w.2 (by omega)

/-- The byte that a write leaves at its place, in a memory of canonical form. -/
theorem getByte_setByte_same {m : List Host.Cell} {lo : Nat} (a : Nat) (b : Byte) (w : cellsFrom lo m = true) : getByte (setByte m a b) a = b := by
  induction m generalizing lo with
  | nil => by_cases hb : b = initByte a <;> simp [setByte, getByte, hb]
  | cons c m ih =>
    obtain ⟨x, y⟩ := c
    have w' := w
    simp only [cellsFrom, Bool.and_eq_true, decide_eq_true_eq] at w
    simp only [setByte]
    split
    · rename_i hx
      split
      · rename_i hb
        have : cellsFrom x ((x, y) :: m) = true := by
          simp only [cellsFrom, Bool.and_eq_true, decide_eq_true_eq]
          exact ⟨⟨Nat.le_refl x, w.1.2⟩, w.2⟩
        rw [getByte_below this hx, hb]
      · simp [getByte]
    · split
      · rename_i hx
        split
        · rename_i hb
          rw [getByte_below w.2 (by omega), hb]
        · simp [getByte]
      · rename_i hx
        simp [getByte, hx, ih w.2]

theorem getByte_setBytes_out {m : List Host.Cell} {a x : Nat} {bs : List Byte} (h : x < a ∨ a + bs.length ≤ x) :
    getByte (setBytes m a bs) x = getByte m x := by
  induction bs generalizing m a with
  | nil => rfl
  | cons b bs ih =>
    simp only [List.length_cons] at h
    simp only [setBytes]
    rw [ih (by omega), getByte_setByte_ne _ (by omega)]

theorem getByte_setBytes_in {m : List Host.Cell} {a i : Nat} {bs : List Byte} (w : Memory.wf m = true) (h : i < bs.length) :
    getByte (setBytes m a bs) (a + i) = bs.getD i 0 := by
  induction bs generalizing m a i with
  | nil => simp at h
  | cons b bs ih =>
    simp only [setBytes]
    cases i with
    | zero =>
      rw [getByte_setBytes_out (by omega), Nat.add_zero, getByte_setByte_same a b w]
      simp
    | succ i =>
      have := ih (a := a + 1) (i := i) (setByte_wf a b w) (by simpa using h)
      rw [show a + (i + 1) = a + 1 + i by omega, this]
      simp

theorem getByte_filter {m : List Host.Cell} {x : Nat} (p : Nat → Bool) :
    getByte (m.filter fun c => p c.1) x = if p x then getByte m x else initByte x := by
  induction m with
  | nil => simp [getByte]
  | cons c m ih =>
    obtain ⟨y, z⟩ := c
    by_cases hy : p y
    · simp only [List.filter_cons, hy, if_true, getByte]
      by_cases hx : x = y
      · subst hx; simp [hy]
      · simp [hx, ih]
    · simp only [List.filter_cons, hy, getByte]
      by_cases hx : x = y
      · subst hx; simpa [hy] using ih
      · simpa [hx] using ih

theorem getBytes_length (m : List Host.Cell) (a n : Nat) : (getBytes m a n).length = n := by
  induction n generalizing a with
  | zero => rfl
  | succ n ih => simp [getBytes, ih]

theorem getBytes_get (m : List Host.Cell) (a n i : Nat) (h : i < n) : (getBytes m a n).getD i 0 = getByte m (a + i) := by
  induction n generalizing a i with
  | zero => omega
  | succ n ih =>
    cases i with
    | zero => simp [getBytes]
    | succ i =>
      have := ih (a + 1) i (by omega)
      simp only [getBytes, List.getD_cons_succ, this]
      congr 1
      omega

/-- A read of the span of a write gives the bytes written. -/
theorem getBytes_setBytes {m : List Host.Cell} {a : Nat} {bs : List Byte} (w : Memory.wf m = true) :
    getBytes (setBytes m a bs) a bs.length = bs := by
  apply List.ext_getElem
  · exact getBytes_length _ _ _
  · intro i h1 h2
    have h3 := getBytes_get (setBytes m a bs) a bs.length i h2
    rw [getByte_setBytes_in w h2] at h3
    simpa [List.getD_eq_getElem?_getD, h1, h2] using h3

/-- A read outside the span of a write gives what it gave before. -/
theorem getBytes_setBytes_out {m : List Host.Cell} {a x n : Nat} {bs : List Byte} (h : x + n ≤ a ∨ a + bs.length ≤ x) :
    getBytes (setBytes m a bs) x n = getBytes m x n := by
  induction n generalizing x with
  | zero => rfl
  | succ n ih => simp only [getBytes]; rw [getByte_setBytes_out (by omega), ih (by omega)]

end Sys2Proof.Machine
end

