-- ==== Sys2Proof/Laws/Ops.lean ====
section
/-! SUPPORT. What each shared operation of the meanings does, once: the checks before an instruction's own part, retirement, parking,
the operations that leave memory as it was, a trap entry's memory, the three ways a step can go on, the random bit generator, and
what a start does to memory. -/

namespace Sys2Proof.Machine

/-! ## The checks before an instruction's own part (R260 steps 6 and 7) -/

theorem guard_runs {s : State} {grp : Group} {i : Instr} {body : State → Out}
    (h : groupRuns grp s.cur.core = true) (w : i.wellFormed = true) : s.guard grp i body = body s := by
  simp [State.guard, h, w]

theorem guard_wrong_core {s : State} {grp : Group} {i : Instr} {body : State → Out} (h : groupRuns grp s.cur.core = false) :
    s.guard grp i body = .next (s.trapEntry s.cur 2 (word (wordOf i).toNat) false s.me.pc) := by
  simp [State.guard, h, State.raise]

theorem guard_illegal {s : State} {grp : Group} {i : Instr} {body : State → Out}
    (h : groupRuns grp s.cur.core = true) (w : i.wellFormed = false) :
    s.guard grp i body = .next (s.trapEntry s.cur 1 (illegalInfo i) false s.me.pc) := by
  simp [State.guard, h, w, State.illegal, State.raise]

@[simp] theorem groupRuns_scalar (c : CoreId) : groupRuns .scalar c = true := rfl

/-- Every instruction of a group that has passed its checks does its own part, and the others trap. -/
theorem guard_cases {s : State} {grp : Group} {i : Instr} {body : State → Out} {t : State} (h : s.guard grp i body = .next t) :
    (groupRuns grp s.cur.core = true ∧ i.wellFormed = true ∧ body s = .next t) ∨ ∃ c e, t = s.trapEntry s.cur c e false s.me.pc := by
  unfold State.guard at h
  split at h
  · exact .inr ⟨_, _, (Host.Outcome.next.inj h).symm⟩
  · split at h
    · exact .inr ⟨_, _, (Host.Outcome.next.inj h).symm⟩
    · rename_i h1 h2
      exact .inl ⟨by simpa using h1, by simpa using h2, h⟩

/-! ## Retirement and parking (R68 to R70) -/

/-- A retirement with busy time 1. -/
theorem retireTo_one (s : State) (pc : Word) : s.retireTo 1 pc =
    s.setFib s.cur { s.me with pc, status := .ready, park := 0, cont := .none, buf := [], readyFrom := s.clock + 1 } := rfl

/-- A retirement with a longer busy time. -/
theorem retireTo_busy (s : State) (pc : Word) {b : Nat} (h : 1 < b) : s.retireTo b pc =
    { s.setFib s.cur { s.me with pc, status := .busy, park := 0, cont := .none, buf := [] } with
      agenda := s.agenda ++ [(s.clock + b, .busyExpiry s.cur)] } := by
  simp only [State.retireTo, Nat.not_le.mpr h, if_false]
  rfl

/-- A fibre that has become READY: eligible from the next cycle. -/
theorem fib_ready (s : State) (f : FibreRef) : (s.ready f).fib f =
    { s.fib f with status := .ready, park := 0, cont := .none, buf := [], readyFrom := s.clock + 1 } := by
  simp [State.ready]

/-- A parked instruction that completes. -/
theorem fib_complete (s : State) (f : FibreRef) : (s.complete f).fib f =
    { s.fib f with pc := (s.fib f).pc + 4, status := .ready, park := 0, cont := .none, buf := [], readyFrom := s.clock + 1 } := by
  simp [State.complete, fib_ready]

/-- A parked fibre keeps everything but its status, its reason, its wait, and whether its instruction has been counted. -/
theorem fib_parkF (s : State) (f : FibreRef) (n : Nat) (c : Cont) :
    (s.parkF f n c).fib f = { s.fib f with status := .parked, park := n, cont := c, counted := c == .retry || c == .lease } := by
  simp [State.parkF]

/-! ## Operations that leave memory and its marks as they were -/

/-- Memory with its tags and marks. -/
def State.memory (s : State) : List Host.Cell × List Nat × List Nat × List Nat := (s.mem, s.tags, s.poison, s.errors)

theorem foldl_memory {α : Type} (h : State → α → State) (l : List α) (s : State) (k : ∀ s a, (h s a).memory = s.memory) :
    (l.foldl h s).memory = s.memory := by
  induction l generalizing s with
  | nil => rfl
  | cons a l ih => rw [List.foldl_cons, ih, k]

theorem schedOnce_memory (s : State) (n : Nat) (e : Instr) : (s.schedOnce n e).memory = s.memory := by
  unfold State.schedOnce
  split <;> rfl

theorem report_memory (s : State) (d p : Nat) (r : Report) : (s.report d p r).memory = s.memory := by
  unfold State.report
  simp only []
  split <;> rfl

theorem reportFibre_memory (s : State) (f : FibreRef) (k c : Nat) (a e : Word) : (s.reportFibre f k c a e).memory = s.memory := by
  unfold State.reportFibre
  split
  · rfl
  · exact report_memory ..

theorem leaveWaits_memory (s : State) (f : FibreRef) : (s.leaveWaits f).memory = s.memory := by
  unfold State.leaveWaits
  simp only []
  split <;> rfl

theorem wakePending_memory (s : State) (f : FibreRef) : (s.wakePending f).memory = s.memory := by
  unfold State.wakePending
  simp only []
  split
  · exact leaveWaits_memory s f
  · rfl

theorem abandonPending_memory (s : State) (f : FibreRef) : (s.abandonPending f).memory = s.memory := by
  unfold State.abandonPending
  split
  · exact wakePending_memory s f
  · rfl

theorem imprecise_memory (s : State) (f : FibreRef) (c : Nat) (e : Word) (n : Nat) : (s.imprecise f c e n).memory = s.memory := by
  unfold State.imprecise
  simp only []
  split
  · exact reportFibre_memory ..
  · split
    · rfl
    · exact wakePending_memory _ f

theorem wakeEng_memory (s : State) (c : CoreId) : (s.wakeEng c).memory = s.memory := foldl_memory _ _ _ fun _ _ => rfl

theorem discardQueued_memory (s : State) (f : FibreRef) : (s.discardQueued f).memory = s.memory := by
  unfold State.discardQueued
  simp only []
  have h : ∀ (b : Bool) (l : List Disp) (u v : State), v.memory = u.memory →
      (if b = true then l.foldl (fun s d => s.ringState f.core d.seq 3) v
        else ((l.foldl (fun s d => s.ringState f.core d.seq 3) v).wakeEng f.core).schedOnce
          (l.foldl (fun s d => s.ringState f.core d.seq 3) v).clock (.dispatchRetire f.core)).memory = u.memory := by
    intro b l u v e
    have k := foldl_memory (fun (s : State) (d : Disp) => s.ringState f.core d.seq 3) l v fun _ _ => rfl
    split
    · exact k.trans e
    · rw [schedOnce_memory, wakeEng_memory]; exact k.trans e
  split
  · split
    · exact h _ _ s _ rfl
    · exact h _ _ s _ rfl
  · exact h _ _ s _ rfl

theorem gangFault_memory (s : State) (n : Nat) (o : GangOp) (a b : Nat) : (s.gangFault n o a b).memory = s.memory := by
  unfold State.gangFault State.discardGangOp
  simp only []
  rw [imprecise_memory]
  show (State.discardQueued _ _).memory = _
  rw [discardQueued_memory]
  exact foldl_memory (fun (s : State) (x : GangOp) => s.ringState x.fibre.core x.d.seq 3) _ _ fun _ _ => rfl

theorem gangBreak_memory (s : State) (n : Nat) : (s.gangBreak n).memory = s.memory := by
  unfold State.gangBreak
  simp only []
  rw [foldl_memory _ _ _ fun s o => gangFault_memory s n o 0 15]
  rfl

theorem breakFor_memory (s : State) (f : FibreRef) : (s.breakFor f).memory = s.memory := by
  unfold State.breakFor
  simp only []
  split
  · rfl
  · split
    · exact gangBreak_memory ..
    · rfl

theorem beginExit_memory (s : State) (f : FibreRef) : (s.beginExit f).memory = s.memory := by
  have h : ∀ u : State, (u.exitCheck f).memory = u.memory := by
    intro u
    unfold State.exitCheck
    simp only []
    split
    · split
      · rfl
      · split
        · rw [abandonPending_memory, schedOnce_memory]; rfl
        · split
          · rfl
          · rw [schedOnce_memory]
    · rfl
  unfold State.beginExit
  rw [h]
  exact leaveWaits_memory s f

theorem markFault_memory (s : State) (f : FibreRef) : (s.markFault f).memory = s.memory := by
  unfold State.markFault
  simp only []
  split <;> rfl

/-! ## What a trap leaves in memory (R258, R348) -/

theorem wf_of_memory {s t : State} (h : t.memory = s.memory) (w : Memory.wf s.mem = true) : Memory.wf t.mem = true := by
  have m : t.mem = s.mem := congrArg (fun x : List Host.Cell × List Nat × List Nat × List Nat => x.1) h
  rw [m]
  exact w

/-- A trace record keeps the canonical form. -/
theorem trace_wf {s : State} (f : FibreRef) (k : Nat) (p t : Word) (w : Memory.wf s.mem = true) : Memory.wf (s.trace f k p t).mem = true := by
  unfold State.trace
  simp only []
  split
  · exact w
  · split
    · rw [State.modCluster_mem]
      exact writeBytes_wf _ _ w
    · exact w

/-- A trap entry keeps the canonical form: all that it writes to memory is a trace record. -/
theorem trapEntry_wf {s : State} (f : FibreRef) (c : Nat) (e : Word) (b : Bool) (p : Word) (w : Memory.wf s.mem = true) :
    Memory.wf (s.trapEntry f c e b p).mem = true := by
  unfold State.trapEntry
  simp only []
  split
  · exact wf_of_memory ((beginExit_memory (((s.reportFibre f 3 c p e).markFault f).modFib f fun x => { x with ending := true }) f).trans
      ((markFault_memory _ f).trans (reportFibre_memory s f 3 c p e))) w
  · exact wf_of_memory (breakFor_memory _ f) (trace_wf f 2 p _ w)

/-! ## The step -/

/-- How a step goes on: with nothing to execute, or with an instruction or event whose meaning answers. -/
theorem step_cases {s t : State} (h : step s = .next t) :
    s.nextAction = .done t ∨ ∃ i u, s.nextAction = .run i u ∧ exec i u = .next t := by
  unfold step at h
  split at h
  · exact .inr ⟨_, _, ‹_›, h⟩
  · rename_i u hu
    rw [hu, Host.Outcome.next.inj h]
    exact .inl rfl
  · cases h

/-- Nothing is due. -/
theorem takeDue_none {clock : Nat} {l : List (Nat × Instr)} (h : ∀ a ∈ l, clock < a.1) : State.takeDue clock l = none := by
  induction l with
  | nil => rfl
  | cons a l ih =>
    obtain ⟨x, e⟩ := a
    have hx := h (x, e) (List.mem_cons_self ..)
    simp only [State.takeDue, Nat.not_le.mpr hx, if_false, ih fun a m => h a (List.mem_cons_of_mem _ m), Option.map_none]

/-! ## The random bit generator, and what a start does to memory -/

/-- A seeding changes the generator and the count of free values, nothing else. -/
theorem drbgSeeded_frame (s : State) : s.drbgSeeded = { s with fresh := s.drbgSeeded.fresh, pkg := s.drbgSeeded.pkg } := by
  unfold State.drbgSeeded
  simp only []
  split <;> rfl

/-- A request of the generator changes it and the count of free values, nothing else. -/
theorem randomWord_frame (s : State) : s.randomWord.2 = { s with fresh := s.randomWord.2.fresh, pkg := s.randomWord.2.pkg } := by
  unfold State.randomWord
  simp only [State.modPkg]
  conv => lhs; rw [drbgSeeded_frame s]

/-- Some words of the generator, and some bytes, change no more. -/
theorem randomWords_frame (n : Nat) (s : State) : ∃ x k, (State.randomWords n s).2 = { s with fresh := x, pkg := k } := by
  induction n generalizing s with
  | zero => exact ⟨_, _, rfl⟩
  | succ n ih =>
    obtain ⟨x, k, h⟩ := ih s.randomWord.2
    exact ⟨x, k, h.trans (by rw [randomWord_frame])⟩

theorem randomBytes_frame (n : Nat) (s : State) : ∃ x k, (State.randomBytes n s).2 = { s with fresh := x, pkg := k } :=
  randomWords_frame _ s

theorem put7_wf {s : State} (off : Nat) (bs : List Byte) (w : Memory.wf s.mem = true) : Memory.wf (s.put7 off bs).mem = true :=
  writeBytes_wf _ _ w

theorem foldl_wf {α : Type} (h : State → α → State) (l : List α) (k : ∀ s a, Memory.wf s.mem = true → Memory.wf (h s a).mem = true)
    {s : State} (w : Memory.wf s.mem = true) : Memory.wf (l.foldl h s).mem = true := by
  induction l generalizing s with
  | nil => exact w
  | cons a l ih => exact ih (k _ _ w)

/-- The firmware's layout keeps the canonical form. -/
theorem loadFirmware_wf {s : State} (w : Memory.wf s.mem = true) : Memory.wf s.loadFirmware.mem = true := by
  unfold State.loadFirmware
  simp only []
  refine put7_wf _ _ (put7_wf _ _ (foldl_wf _ _ (fun _ _ => put7_wf _ _) (put7_wf _ _ (put7_wf _ _ (put7_wf _ _ (foldl_wf _ _
    (fun _ _ => put7_wf _ _) ?_))))))
  exact put7_wf _ _ (put7_wf _ _ (put7_wf _ _ (put7_wf _ _ (put7_wf _ _ (put7_wf _ _ (put7_wf _ _ w))))))

/-- What a start keeps of memory keeps the canonical form. -/
theorem keepMem_wf {s : State} (keep : Nat → Bool) (w : Memory.wf s.mem = true) : Memory.wf (s.keepMem keep).mem = true :=
  filter_wf _ w

theorem bootRecovery_wf {s : State} (code : Nat) (st : Start) (w : Memory.wf s.mem = true) : Memory.wf (s.bootRecovery code st).mem = true :=
  loadFirmware_wf (keepMem_wf _ w)

end Sys2Proof.Machine
end

