-- ==== Sys2Proof/Machine/HostRead.lean ====
section
/-! DEFINITION. What the host reads in BAR 0 of a virtual function and of the physical function, and which of its writes are accesses of
their registers (04 R112, R113, R116, R119; 11 R284; 14 R340; 15 R352). -/

namespace Sys2Proof.Machine

/-- An aligned access of 8 bytes: every other one is discarded when it writes and reads as zero (R112, R119, R284, R340, R352). -/
def hostAligned (off n : Nat) : Bool := n == 8 && off % 8 == 0

/-- The event of a host write of n bytes at an offset of a BAR 0 register that has no row of its own: block 0 is that of the physical
function, block 1 that of virtual function p (log 20). -/
def hostWrite (block p off n : Nat) (v : BitVec 64) : Option Instr :=
  if hostAligned off n then some (.registerWrite 7 block off p v) else none

/-- TSTAT (R113). -/
def tstatWord (v : Vf) : Word := word (v.lastAcc % 2 ^ 32 * 2 ^ 32 + b2n v.busy * 2 ^ 15 + b2n v.lost * 2 ^ 14 + v.code % 256)

/-- CQSTAT (R116): FULL while a completion waits for room. -/
def cqstatWord (v : Vf) : Word := word (v.cqcode % 256 * 2 ^ 16 + b2n (!v.held.isEmpty && State.cqFull v) * 2 + b2n v.cqen)

/-- MBSTAT (R119). -/
def mbstatWord (v : Vf) : Word :=
  word (b2n v.txbusy * 2 ^ 63 + b2n v.txfull * 2 ^ 62 + b2n v.txlost * 2 ^ 61 + min v.mbrx.length 16)

/-- STSTAT (R352). -/
def ststatWord (x : Start) : Word :=
  word (x.phase % 4 * 2 ^ 62 + x.step % 16 * 2 ^ 58 + x.code % 256 * 2 ^ 50 + x.lc % 8 * 2 ^ 47 + b2n x.warm * 2 ^ 46 + x.fails % 4 * 2 ^ 44
    + x.rej % 64 * 2 ^ 38 + x.lcst % 4 * 2 ^ 36)

/-- DBSTAT (R340). A command is complete before the next read, so BUSY reads zero (log 17). -/
def dbstatWord (x : Dbg) : Word := word (b2n x.tag * 2 ^ 16 + x.cause % 256 * 2 ^ 8 + x.status % 256)

namespace State

/-- RCSTAT (R284): PEND counts the deferred entries that wait. -/
def rcstatWord (s : State) : Word :=
  let x := s.pkg.rc
  let pend := (s.parts.map fun p : Nat × Part => p.2.deferred.length).foldl (· + ·) 0
  word (b2n x.busy * 2 ^ 63 + pend % 512 * 2 ^ 49 + x.index % 512 * 2 ^ 40 + x.code % 256 * 2 ^ 32 + x.tag % 2 ^ 32)

/-- What the host reads with n bytes at an offset of a virtual function's BAR 0 (R112, R113, R116, R119). -/
def vfRead (s : State) (p off n : Nat) : Word :=
  let v := s.vf p
  if !hostAligned off n then 0
  else match off with
    | 0x080 => tstatWord v
    | 0x088 => v.cqbase
    | 0x090 => v.cqsize
    | 0x098 => v.cqhead
    | 0x0A0 => word v.cqtail
    | 0x0A8 => cqstatWord v
    | 0x0B0 => word v.cqseq
    | 0x140 => mbstatWord v
    | _ => if 0x180 ≤ off ∧ off < 0x1C0 then lget 0 (v.mbrx.headD []) ((off - 0x180) / 8) else 0

/-- What the host reads with n bytes at an offset of the physical function's BAR 0 (R284, R340, R352). -/
def pfRead (s : State) (off n : Nat) : Word :=
  if !hostAligned off n then 0
  else match off with
    | 0x1000 => ststatWord s.pkg.start
    | 0x1010 => s.pkg.start.prlist
    | 0x2000 => s.pkg.rc.addr
    | 0x2010 => s.rcstatWord
    | 0x2018 => word s.pkg.rc.wheel
    | 0x3008 => s.pkg.dbg.arg
    | 0x3010 => s.pkg.dbg.data
    | 0x3018 => dbstatWord s.pkg.dbg
    | _ => 0

end State

end Sys2Proof.Machine
end

