-- ==== Sys2Proof/Tests/Slice0.lean ====
section
/-! SUPPORT. The tests: one word of every instruction, written bit by bit from the format tables of spec 16
(R363, R369 to R371; the words of a family in one theorem, each read as major opcode and then the fields of its
format), the example words the spec prints, an ill-formed term for every check of WellFormed.lean, single steps with
results from the spec's examples or by hand, and for every obligation a state and operands that meet the hypotheses of
each of its clauses (wit_<obligation>). -/

namespace Sys2Proof.Tests
open Sys2Proof Sys2Proof.Machine Sys2Proof.Claims

set_option Elab.async false

/-! ## Every instruction from the fields of its format -/

theorem decodes_intR :
    decodeTableWord 32 0b000001_001_010_011_000000_00000000000 = some (.add 1 2 3) ∧
    decodeTableWord 32 0b000001_001_010_011_000001_00000000000 = some (.sub 1 2 3) ∧
    decodeTableWord 32 0b000001_001_010_011_000010_00000000000 = some (.and 1 2 3) ∧
    decodeTableWord 32 0b000001_001_010_011_000011_00000000000 = some (.or 1 2 3) ∧
    decodeTableWord 32 0b000001_001_010_011_000100_00000000000 = some (.xor 1 2 3) ∧
    decodeTableWord 32 0b000001_001_010_011_000101_00000000000 = some (.shl 1 2 3) ∧
    decodeTableWord 32 0b000001_001_010_011_000110_00000000000 = some (.shr 1 2 3) ∧
    decodeTableWord 32 0b000001_001_010_011_000111_00000000000 = some (.sar 1 2 3) ∧
    decodeTableWord 32 0b000001_001_010_011_001000_00000000000 = some (.slt 1 2 3) ∧
    decodeTableWord 32 0b000001_001_010_011_001001_00000000000 = some (.sltu 1 2 3) ∧
    decodeTableWord 32 0b000001_001_010_011_001010_00000000001 = some (.min 1 2 3 1) ∧
    decodeTableWord 32 0b000001_001_010_011_001011_00000000001 = some (.max 1 2 3 1) ∧
    decodeTableWord 32 0b000001_101_110_111_001100_00000000000 = some (.mul 5 6 7) ∧
    decodeTableWord 32 0b000001_101_110_111_001101_00000000001 = some (.mulh 5 6 7 1) ∧
    decodeTableWord 32 0b000001_101_110_111_001110_00000000001 = some (.div 5 6 7 1) ∧
    decodeTableWord 32 0b000001_101_110_111_001111_00000000001 = some (.rem 5 6 7 1) ∧
    decodeTableWord 32 0b000001_100_001_000_010000_00000000000 = some (.clz 4 1 0) ∧
    decodeTableWord 32 0b000001_100_001_000_010001_00000000010 = some (.ffs 4 1 1) ∧
    decodeTableWord 32 0b000001_100_001_000_010010_00000000100 = some (.popc 4 1 2) ∧
    decodeTableWord 32 0b000001_100_001_000_010011_00000000110 = some (.sext 4 1 3) := by decide

theorem decodes_immediates :
    decodeTableWord 32 0b000010_001_110_10000001001000110100 = some (.addi 1 6 0x81234) ∧
    decodeTableWord 32 0b000011_001_110_10000001001000110100 = some (.andi 1 6 0x81234) ∧
    decodeTableWord 32 0b000100_001_110_10000001001000110100 = some (.ori 1 6 0x81234) ∧
    decodeTableWord 32 0b000101_001_110_10000001001000110100 = some (.xori 1 6 0x81234) ∧
    decodeTableWord 32 0b000110_001_110_10000001001000110100 = some (.slti 1 6 0x81234) ∧
    decodeTableWord 32 0b000111_011_000_10101011110011011110 = some (.lui 3 0xABCDE) ∧
    decodeTableWord 32 0b001000_001_010_000_000000_00000100101 = some (.shli 1 2 37) ∧
    decodeTableWord 32 0b001000_001_010_000_000001_00000100101 = some (.shri 1 2 37) ∧
    decodeTableWord 32 0b001000_001_010_000_000010_00000100101 = some (.sari 1 2 37) := by decide

theorem decodes_memory :
    decodeTableWord 32 0b001001_101_10_1_011_110_10101010111100 = some (.ld 5 2 1 3 6 0x2ABC) ∧
    decodeTableWord 32 0b001010_101_01_1_110_101_01111100000000 = some (.st 5 1 1 6 5 0x1F00) ∧
    decodeTableWord 32 0b001011_010_01_1_111_000_11111111111111 = some (.ldk 2 1 1 7 0x3FFF) ∧
    decodeTableWord 32 0b001100_011_10_1_100_000_00000000000010 = some (.stk 3 2 1 4 2) ∧
    decodeTableWord 32 0b001101_001_10_011_000_1010_01_0_10000101 = some (.amo 1 2 3 10 1 0x85) ∧
    decodeTableWord 32 0b001101_000_01_010_000_1001_00_1_00000010 = some (.amoRed 1 2 9 0 2) ∧
    decodeTableWord 32 0b001101_001_11_010_110_1111_01_0_00000001 = some (.acas 1 3 2 6 1 1) := by decide

theorem decodes_control :
    decodeTableWord 32 0b001110_011_100_101_11111111111111101 = some (.bcc 3 4 5 0x1FFFD) ∧
    decodeTableWord 32 0b001111_111_10000000000000000000010 = some (.jal 7 0x400002) ∧
    decodeTableWord 32 0b010000_111_010_000_000000_00000000000 = some (.jalr 7 2) ∧
    decodeTableWord 32 0b010000_111_000_000_000000_00000000110 = some (.jalrK 7 2) := by decide

theorem decodes_capabilities :
    decodeTableWord 32 0b010001_000_101_000_000000_00000000110 = some (.kbnd 5 1 2) ∧
    decodeTableWord 32 0b010001_000_101_000_000001_00000001101 = some (.kprm 5 3 1) ∧
    decodeTableWord 32 0b010001_000_101_000_000010_00000001011 = some (.kadd 5 2 3) ∧
    decodeTableWord 32 0b010001_101_000_000_000011_00010100100 = some (.kget 5 10 1) ∧
    decodeTableWord 32 0b010001_000_000_000_000100_00000000110 = some (.kmov 1 2) ∧
    decodeTableWord 32 0b010001_110_000_000_000101_00000000100 = some (.ktag 6 1) ∧
    decodeTableWord 32 0b010001_000_000_000_000110_00000000010 = some (.kclr 2) := by decide

theorem decodes_fibresAndTasks :
    decodeTableWord 32 0b010010_001_010_011_000000_00000000000 = some (.fspawn 1 2 3) ∧
    decodeTableWord 32 0b010010_000_000_000_000001_00000000000 = some (.fexit) ∧
    decodeTableWord 32 0b010010_000_000_000_000010_00000000000 = some (.yield) ∧
    decodeTableWord 32 0b010010_100_000_000_000011_00000000000 = some (.fid 4) ∧
    decodeTableWord 32 0b010011_001_011_000_000000_00000000010 = some (.taskq 1 3 2) ∧
    decodeTableWord 32 0b010011_001_011_000_000000_00000010110 = some (.taskqKc 1 3 1 2) ∧
    decodeTableWord 32 0b010011_100_001_000_000001_00000000000 = some (.twait 4 1) ∧
    decodeTableWord 32 0b010011_100_001_000_000001_00000000001 = some (.twaitPoll 4 1) := by decide

theorem decodes_synchronisation :
    decodeTableWord 32 0b010100_001_000_000_000000_00001011111 = some (.bara 1 95) ∧
    decodeTableWord 32 0b010100_010_001_000_000001_00000000101 = some (.barw 2 1 5) ∧
    decodeTableWord 32 0b010100_011_000_000_000010_00000111111 = some (.semp 3 63) ∧
    decodeTableWord 32 0b010100_011_000_000_000010_00001001100 = some (.sempTry 3 12) ∧
    decodeTableWord 32 0b010100_000_000_000_000011_00000000111 = some (.semv 7) ∧
    decodeTableWord 32 0b010101_000_010_000_000000_00000000000 = some (.fenceRel 2) ∧
    decodeTableWord 32 0b010101_000_000_000_000000_00000000001 = some (.fenceX) ∧
    decodeTableWord 32 0b010101_000_000_000_000001_00000000000 = some (.ifence) := by decide

theorem decodes_messages :
    decodeTableWord 32 0b010110_001_000_000000_000011_00000000 = some (.send 1 1) ∧
    decodeTableWord 32 0b010110_001_011_000000_100001_00000000 = some (.sendMem 1 3 2 1) ∧
    decodeTableWord 32 0b010110_001_000_000001_000010_00000000 = some (.reply 1) ∧
    decodeTableWord 32 0b010110_001_011_000001_100000_00000000 = some (.replyMem 1 3 2) ∧
    decodeTableWord 32 0b010110_100_000_000010_000010_00000000 = some (.sendc 4) ∧
    decodeTableWord 32 0b010110_100_101_000010_110000_00000000 = some (.sendcMem 4 5 3) ∧
    decodeTableWord 32 0b010111_001_010_011_000000_00000000010 = some (.copen 1 2 3 2) ∧
    decodeTableWord 32 0b010111_001_010_000_000001_00000000000 = some (.cshut 1 2) ∧
    decodeTableWord 32 0b010111_001_010_011_000010_00000000000 = some (.crsz 1 2 3) ∧
    decodeTableWord 32 0b010111_001_010_011_000010_00000000001 = some (.crszArm 1 2 3) ∧
    decodeTableWord 32 0b010111_001_010_000_000011_00000000000 = some (.cqry 1 2) ∧
    decodeTableWord 32 0b011000_001_010_000000_000000_00000010 = some (.sbind 1 2 2) ∧
    decodeTableWord 32 0b011000_000_000_000001_000000_00000011 = some (.sfree 3) ∧
    decodeTableWord 32 0b011000_011_000_000010_000000_00000101 = some (.spop 3 5) ∧
    decodeTableWord 32 0b011000_010_000_000011_000001_00000110 = some (.spush 2 1 6) ∧
    decodeTableWord 32 0b011000_100_000_000100_000000_00000111 = some (.scnt 4 7) := by decide

theorem decodes_moves :
    decodeTableWord 32 0b011001_01_10_011_101101_000111_0000000 = some (.tmov 1 2 3 45 7) ∧
    decodeTableWord 32 0b011001_01_10_011_000101_100111_0000001 = some (.tmovSq 1 2 3 5 39) ∧
    decodeTableWord 32 0b011010_11_10_011_000101_000111_0000000 = some (.tldt 3 2 3 5 7) := by decide

theorem decodes_system :
    decodeTableWord 32 0b011011_001_000_001000111111_00000000 = some (.srd 1 0x23F) ∧
    decodeTableWord 32 0b011011_000_010_000110111111_00000001 = some (.swr 2 0x1BF) ∧
    decodeTableWord 32 0b011011_000_000_100000000111_00000010 = some (.trap 0x807) ∧
    decodeTableWord 32 0b011011_000_000_000000000000_00000011 = some (.rft) ∧
    decodeTableWord 32 0b011011_011_000_000001000001_00000100 = some (.wfe 3 0x41) ∧
    decodeTableWord 32 0b011011_000_000_000000010010_00000101 = some (.brk 0x12) ∧
    decodeTableWord 32 0b011011_000_000_000000100001_00000110 = some (.svc 0x21) ∧
    decodeTableWord 32 0b011011_000_000_000000000000_00000111 = some (.halt) := by decide

theorem decodes_root :
    decodeTableWord 32 0b011100_001_010_000000_100100_00000011 = some (.sha 1 2 2 1 3) ∧
    decodeTableWord 32 0b011100_001_010_000001_011100_00000000 = some (.pksign 1 2 1 3) ∧
    decodeTableWord 32 0b011100_001_010_000010_110000_00000000 = some (.pkver 1 2 3) ∧
    decodeTableWord 32 0b011100_001_010_000011_000000_00000000 = some (.rng 1 2) ∧
    decodeTableWord 32 0b011100_000_010_000100_010000_00001000 = some (.mext 2 1 8) ∧
    decodeTableWord 32 0b011100_001_011_000101_100000_00000000 = some (.mtrq 1 3 2) := by decide

theorem decodes_vectorIntegers :
    decodeTableWord 32 0b100000_10001_00010_10011_0000_000_1000 = some (.vadd 17 2 19 0 8) ∧
    decodeTableWord 32 0b100000_10001_00010_10011_0001_001_1001 = some (.vsub 17 2 19 1 9) ∧
    decodeTableWord 32 0b100000_10001_00010_10011_0010_010_1010 = some (.vmul 17 2 19 2 10) ∧
    decodeTableWord 32 0b100000_10001_00010_10011_0011_011_1011 = some (.vmin 17 2 19 3 11) ∧
    decodeTableWord 32 0b100000_10001_00010_10011_0100_000_1100 = some (.vmax 17 2 19 0 12) ∧
    decodeTableWord 32 0b100000_10001_00010_10011_0101_001_1101 = some (.vand 17 2 19 1 13) ∧
    decodeTableWord 32 0b100000_10001_00010_10011_0110_010_1110 = some (.vor 17 2 19 2 14) ∧
    decodeTableWord 32 0b100000_10001_00010_10011_0111_011_1111 = some (.vxor 17 2 19 3 15) ∧
    decodeTableWord 32 0b100000_10001_00010_10011_1000_000_1000 = some (.vsh 17 2 19 0 8) ∧
    decodeTableWord 32 0b100000_00001_10010_00000_1001_011_1010 = some (.vclz 1 18 3 10) ∧
    decodeTableWord 32 0b100000_00001_10010_00000_1010_011_1010 = some (.vffs 1 18 3 10) ∧
    decodeTableWord 32 0b100000_00001_10010_00000_1011_011_1010 = some (.vpopc 1 18 3 10) := by decide

theorem decodes_vectorFloats :
    decodeTableWord 32 0b100001_00001_10010_01011_0000_100_0001 = some (.vfadd 1 18 11 4 1) ∧
    decodeTableWord 32 0b100001_00001_10010_01011_0001_101_0010 = some (.vfsub 1 18 11 5 2) ∧
    decodeTableWord 32 0b100001_00001_10010_01011_0010_110_0011 = some (.vfmul 1 18 11 6 3) ∧
    decodeTableWord 32 0b100001_00001_10010_01011_0011_111_0100 = some (.vfma 1 18 11 7 4) ∧
    decodeTableWord 32 0b100001_00001_10010_01011_0100_100_0000 = some (.vfmin 1 18 11 4 0) ∧
    decodeTableWord 32 0b100001_00001_10010_01011_0101_101_0000 = some (.vfmax 1 18 11 5 0) ∧
    decodeTableWord 32 0b100010_11110_00010_00000_0000_110_1001 = some (.vexp2 30 2 6 9) ∧
    decodeTableWord 32 0b100010_11110_00010_00000_0001_110_1010 = some (.vlog2 30 2 6 10) ∧
    decodeTableWord 32 0b100010_11110_00010_00000_0010_110_1011 = some (.vrcp 30 2 6 11) ∧
    decodeTableWord 32 0b100010_11110_00010_00000_0011_110_1100 = some (.vrsq 30 2 6 12) ∧
    decodeTableWord 32 0b100010_11110_00010_00000_0100_110_1101 = some (.vtanh 30 2 6 13) := by decide

theorem decodes_vectorMoves :
    decodeTableWord 32 0b100011_00001_01100_00011_0000_010_0101 = some (.vcmp 1 12 3 2 5) ∧
    decodeTableWord 32 0b100011_00001_01100_00011_0001_010_1100 = some (.vsel 1 12 3 2 4) ∧
    decodeTableWord 32 0b100011_00001_01100_00011_0010_101_1000 = some (.vperm 1 12 3 5 8) ∧
    decodeTableWord 32 0b100011_10101_00100_00000_0011_110_1111 = some (.vbcst 21 4 6 15) ∧
    decodeTableWord 32 0b100011_00001_01100_10000_0100_110_0011 = some (.vcvt 1 12 2 0 6 3) ∧
    decodeTableWord 32 0b100011_00001_01100_00011_0101_010_0001 = some (.vext 1 12 3 2 1) ∧
    decodeTableWord 32 0b100011_10101_00010_00011_0110_111_0000 = some (.vins 21 2 3 7 0) ∧
    decodeTableWord 32 0b100011_00001_01100_00101_0111_010_1101 = some (.vred 1 12 5 2 13) := by decide

theorem decodes_vectorMemory :
    decodeTableWord 32 0b100100_00011_01_00_1001_1010100000010 = some (.vld 3 1 9 1 2 0x102) ∧
    decodeTableWord 32 0b100100_10011_10_01_0000_1101000000001 = some (.vst 19 2 0 1 5 1) ∧
    decodeTableWord 32 0b100100_00101_11_10_1000_1100000000000 = some (.vgth 5 3 8 24 0) ∧
    decodeTableWord 32 0b100100_00100_10_11_1001_0100101000000 = some (.vsct 4 2 9 9 1) ∧
    decodeTableWord 32 0b100101_00010_00101_10110_0000_110_0100 = some (.vmac 2 5 22 6 4) ∧
    decodeTableWord 32 0b100101_00011_00000_00000_0001_000_0000 = some (.vaclr 3) ∧
    decodeTableWord 32 0b100101_10001_00100_00000_0010_101_0011 = some (.vnrw 17 4 5 3) := by decide

theorem decodes_matrices :
    decodeTableWord 32 0b100110_000_0000_00_00_011_000_00_00_00000 = some (.mfmt 3) ∧
    decodeTableWord 32 0b100110_001_0000_00_00_101_000_00_00_00000 = some (.mgang 5) ∧
    decodeTableWord 32 0b100110_010_1011_01_10_011_100_00_00_00000 = some (.mma 11 1 2 3 4) ∧
    decodeTableWord 32 0b100110_010_0011_01_10_011_100_01_00_00000 = some (.mmaHold 3 1 2 3 4) ∧
    decodeTableWord 32 0b100110_010_0011_11_00_001_010_10_00_00000 = some (.mmaHb 3 3 1 2) ∧
    decodeTableWord 32 0b100110_011_0010_00_00_000_101_00_00_00000 = some (.mzero 2 5) ∧
    decodeTableWord 32 0b100110_100_0000_00_00_010_000_00_00_10111 = some (.mrd 2 23) ∧
    decodeTableWord 32 0b100110_100_0000_00_00_010_000_01_00_00111 = some (.mrdRel 2 7) ∧
    decodeTableWord 32 0b100110_101_1110_00_00_000_000_00_00_00000 = some (.mrel 14) ∧
    decodeTableWord 32 0b100110_110_1001_00_00_000_000_00_00_00000 = some (.mrcl 9) ∧
    decodeTableWord 32 0b100110_111_0000_00_00_010_000_00_00_00101 = some (.mstat 2 5) := by decide

theorem decodes_shapes :
    decodeTableWord 32 0b100111_011_100_000000_100100_00000100 = some (.qenc 3 4 2 1 4) ∧
    decodeTableWord 32 0b100111_011_100_000001_100100_00001011 = some (.qdec 3 4 2 1 1 3) ∧
    decodeTableWord 32 0b100111_011_100_000010_011100_00000000 = some (.qtrn 3 4 1 3) ∧
    decodeTableWord 32 0b100111_011_100_000011_011100_00001000 = some (.qscl 3 4 1 3 1) := by decide

/-! ## The example words of spec files 02, 04, 08, 09 and 17 to 20, as the spec prints them -/

theorem decodes_examples_of_the_reference_a_to_k :
    ∀ p ∈ [(0x34280302, Instr.amoRed 1 2 0 1 2), (0x3489F800, .acas 1 0 2 3 0 0), (0x04A60000, .add 1 2 3),
      (0x04A08004, .clz 1 2 2), (0x06EE7001, .div 5 6 7 1), (0x08900678, .addi 1 1 0x678), (0x0D2FFFF0, .andi 2 2 0xFFFF0),
      (0x3983FFFD, .bcc 3 0 1 0x1FFFD), (0x6C001205, .brk 0x12), (0x54000001, .fenceX), (0x4A001800, .fid 4),
      (0x48A60000, .fspawn 1 2 3), (0x6C000007, .halt), (0x3F800002, .jal 7 2), (0x43A00000, .jalr 7 2),
      (0x43800006, .jalrK 7 2)],
      decodeTableWord 32 p.1 = some p.2 := by decide

theorem decodes_examples_of_the_reference_l_to_r :
    ∀ p ∈ [(0x26817FFF, Instr.ld 5 0 0 0 5 0x3FFF), (0x2D200002, .ldk 2 1 0 0 2), (0x04A61800, .or 1 2 3),
      (0x04A65801, .max 1 2 3 1), (0x04A09006, .popc 1 2 3), (0x70210008, .mext 2 0 8), (0x98003000, .mfmt 3),
      (0x98803000, .mgang 3), (0x99181500, .mmaHb 3 0 1 2), (0x99900A00, .mzero 2 5), (0x9A002007, .mrd 2 7),
      (0x9AA00000, .mrel 4), (0x9B200000, .mrcl 4), (0x9B802001, .mstat 2 1), (0x70B16000, .mtrq 1 3 2),
      (0x11200080, .ori 2 2 0x80), (0x70A04400, .pksign 1 2 0 1), (0x70A08000, .pkver 1 2 0), (0x9DC05800, .qdec 3 4 1 2 0 0),
      (0x58804200, .reply 1), (0x58B06000, .replyMem 1 3 2), (0x6C000003, .rft), (0x70A0C000, .rng 1 2)],
      decodeTableWord 32 p.1 = some p.2 := by decide

theorem decodes_examples_of_the_reference_s_to_t :
    ∀ p ∈ [(0x04A09804, Instr.sext 1 2 2), (0x20A00005, .shli 1 2 5), (0x20A0083F, .shri 1 2 63), (0x20A01004, .sari 1 2 4),
      (0x60A00002, .sbind 1 2 2), (0x60004003, .sfree 3), (0x61808005, .spop 3 5), (0x6100C100, .spush 2 1 0), (0x62010003, .scnt 4 3),
      (0x58800200, .send 1 0), (0x58B02100, .sendMem 1 3 2 1), (0x5A008200, .sendc 4), (0x70A00400, .sha 1 2 0 1 0),
      (0x18AFFFFF, .slti 1 2 0xFFFFF), (0x6C800400, .srd 1 4), (0x6C200601, .swr 2 6), (0x29B48006, .st 3 1 1 2 2 6),
      (0x28814005, .st 1 0 0 0 5 5), (0x31200002, .stk 2 1 0 0 2), (0x6C002106, .svc 0x21), (0x6598A380, .tmov 1 2 3 5 7),
      (0x6598A381, .tmovSq 1 2 3 5 7), (0x6998A380, .tldt 1 2 3 5 7), (0x6C000702, .trap 7)],
      decodeTableWord 32 p.1 = some p.2 := by decide

theorem decodes_examples_of_the_reference_v_to_y :
    ∀ p ∈ [(0x94600080, Instr.vaclr 3), (0x80221820, .vadd 1 2 3 2 0), (0x802219A1, .vmin 1 2 3 2 1), (0x80221C24, .vsh 1 2 3 2 4),
      (0x802205A0, .vpopc 1 2 2 0), (0x8C4401E0, .vbcst 2 4 6 0), (0x8C211064, .vcmp 1 1 2 6 4), (0x8C221825, .vcmp 1 2 3 2 5),
      (0x8C228260, .vcvt 1 2 2 0 6 0), (0x8C223254, .vcvt 1 2 0 6 5 4), (0x88220260, .vtanh 1 2 6 0), (0x8C221AA0, .vext 1 2 3 2 0),
      (0x8C221B20, .vins 1 2 3 2 0), (0x90681402, .vld 3 1 0 1 2 2), (0x90620000, .vst 3 0 0 0 0 0), (0x90A40800, .vgth 5 0 0 8 0),
      (0x90972940, .vsct 4 2 9 9 1), (0x94453060, .vmac 2 5 6 6 0), (0x94240150, .vnrw 1 4 5 0), (0x8C221920, .vperm 1 2 3 2 0),
      (0x8C2203E0, .vred 1 2 0 6 0), (0x8C2203ED, .vred 1 2 0 6 13), (0x8C2218AC, .vsel 1 2 3 2 4), (0x04A62000, .xor 1 2 3),
      (0x15BFFFFF, .xori 3 3 0xFFFFF), (0x48001000, .yield)],
      decodeTableWord 32 p.1 = some p.2 := by decide

theorem decodes_examples_of_the_chapters :
    ∀ p ∈ [(0x5CA60000, Instr.copen 1 2 3 0), (0x4CB00012, .taskqKc 1 3 0 2), (0x4E100800, .twait 4 1), (0x54200000, .fenceRel 2),
      (0x54000800, .ifence), (0x50800005, .bara 1 5), (0x51100805, .barw 2 1 5), (0x5180104C, .sempTry 3 12), (0x50001807, .semv 7)],
      decodeTableWord 32 p.1 = some p.2 := by decide

/-! ## Words that are no instruction (R365): a major the map does not assign, a code, a field that must be zero, too few bytes -/

/-- Why the decoder refuses. -/
def refusal (bs : List Byte) : Option DecodeError :=
  match decode bs with
  | .error e => some e
  | .ok _ => none

theorem rejects_reserved_words :
    refusal [0, 0, 0, 0] = some .reservedMajor ∧ refusal [0, 0xA0, 0, 0x04] = some (.reservedEncoding 1) ∧
    refusal [1, 2, 3] = some .truncated := by decide

theorem rejects_reserved_majors_codes_and_fields :
    ∀ w ∈ [0x1D * 2 ^ 26, 0x28 * 2 ^ 26, 0x04A60400, 0x48200800, 0x4CB00004, 0x90640021, 0x54000002],
      decodeTableWord 32 w = none := by decide

/-! ## One ill-formed term for each check of WellFormed.lean -/

/-- The words: R364's index field, the sizes, widths, conditions and selectors of R370 and R371, the numbers of R242. -/
theorem refuses_ill_formed_scalar_operands :
    ∀ i ∈ [Instr.ld 1 0 0 3 3 0, .ld 1 0 1 3 7 0, .st 1 0 0 3 3 0, .st 1 0 1 3 6 0, .ldk 1 0 0 1 0, .stk 1 0 0 1 0,
      .amo 1 0 2 11 0 0, .amo 1 0 2 0 2 0, .amo 1 0 2 9 1 0, .amoRed 0 2 10 0 0, .acas 1 0 2 3 2 0, .bcc 1 2 6 0,
      .kget 1 11 0, .bara 1 96, .barw 1 2 96, .wfe 1 0, .wfe 1 128, .sha 1 2 1 0 1],
      i.wellFormed = false := by decide

/-- The vector and shape words: the lane types, the masks and modifiers of R366, and the limits of R485, R486, R488, R490,
R495 and R497. -/
theorem refuses_ill_formed_vector_operands :
    ∀ i ∈ [Instr.vadd 1 2 3 4 0, .vadd 1 2 3 2 1, .vmin 1 2 3 2 2, .vsh 1 2 3 2 6, .vsh 1 2 3 2 1, .vfadd 1 2 3 3 0, .vfadd 1 2 3 6 5,
      .vfmin 1 2 3 6 1, .vexp2 1 2 5 0, .vcmp 1 2 3 1 0, .vcmp 1 2 3 6 1, .vperm 1 2 3 2 1, .vcvt 1 2 0 2 2 0, .vcvt 1 2 0 0 3 0,
      .vcvt 1 2 0 3 0 0, .vcvt 1 2 2 1 2 0, .vcvt 1 2 1 2 1 0, .vcvt 1 2 0 6 5 5, .vcvt 1 2 0 1 2 1, .vext 1 2 3 2 8, .vext 1 2 3 6 1,
      .vext 1 2 3 2 2, .vins 1 2 3 2 8, .vred 1 2 3 6 0, .vred 1 2 0 6 5, .vred 1 2 6 2 0, .vred 1 2 0 2 1, .vred 1 2 0 3 0,
      .vld 1 0 1 1 2 0, .vld 1 0 0 0 2 0, .vst 1 0 1 1 2 0, .vst 1 0 0 0 2 0, .vgth 1 0 1 2 0, .vsct 1 0 1 2 0, .vmac 1 2 3 2 2,
      .vmac 1 2 3 6 5, .vmac 1 2 3 0 0, .vnrw 1 2 3 0, .vnrw 1 2 2 2, .vnrw 1 2 6 5, .vnrw 1 2 6 8, .qenc 1 2 0 1 5, .qdec 1 2 0 1 0 5],
      i.wellFormed = false := by decide

/-- The events: an object that the package does not have. -/
theorem refuses_events_of_objects_that_do_not_exist :
    ∀ i ∈ [Instr.busyExpiry ⟨⟨6, 2, 3⟩, 0⟩, .fetchRefill ⟨⟨0, 0, 3⟩, 0⟩, .exitComplete ⟨⟨0, 256, 0⟩, 0⟩, .leaseRelease ⟨6, 0, 2⟩,
      .handlerStart ⟨7, 0, 3⟩ false, .walkDeparture ⟨⟨0, 0, 0⟩, 256⟩, .residueSlot 1537 0, .residueSlot 0 101, .burstStart 48 1,
      .configForward 48 0, .configForward 0 32, .circuitResult ⟨⟨5, 0, 4⟩, 0⟩, .operandPeriod 96, .linkTraining 12 none, .syncMessage 12 0,
      .syncInterval 12, .pdelayReq 12 true, .pdelayResp 12 0, .announce 12, .hostSubmit 48 0, .taskPlace 7, .priorityAging 7,
      .taskDispatch 7 0, .taskCompletion 7 0, .completionPost 48, .msixDeferred 48 0, .tkill 7 0 0, .tkill 0 48 0, .cqbaseWrite 48 0,
      .cqsizeWrite 48 0, .cqheadWrite 48 0, .cqEnable 48, .cqDisable 48, .mbtxgo 48 0, .mailboxEntry 48, .mbrxack 48, .mbihead 48 0,
      .mbogo 48 0, .rephead 7 0 0, .rephead 0 48 0, .replost 7 0, .replost 0 48],
      i.wellFormed = false := by decide
theorem refuses_events_of_objects_that_do_not_exist_2 :
    ∀ i ∈ [Instr.trootWrite 7 0 0, .invalidatePage 7 0, .invalidateAll 7 0, .invalidationDone 7, .pageWalk 7 0, .gatewaySlot 7,
      .gatewayWheelReset 7, .mwbaseWrite 7 0 0, .dispatchStart ⟨6, 1, 0⟩, .dispatchRetire ⟨6, 1, 0⟩, .gangJoin 384, .mmaSlotWrite 384,
      .impreciseDelivery ⟨⟨6, 2, 3⟩, 0⟩, .barrierComplete 48 0 0 0, .barrierComplete 0 96 0 0, .barrierTear 48 0 0 0, .barrierTear 0 96 0 0,
      .stopSequence 48, .saveComplete 48, .partitionLost 48, .restoreComplete 48, .resumeSequence 48, .dieReset 6, .softError 7 0,
      .deferredEntry 48 0, .deferredEntry 0 7, .functionLevelReset 48, .flrComplete 48, .resetDie 6, .roll 6, .selftest 6 true, .attestationResponse 6 .busy,
      .attestationTimeout 6, .attestationRetry 6, .getVersion 7 [], .getCapabilities 7 [], .negotiateAlgorithms 7 [], .getDigests 7 [],
      .getCertificate 7 [], .challenge 7 [], .getMeasurements 7 [], .keyExchange 6 [], .finish 6 [], .setLinkKey 6 0 0 0 0,
      .setLinkKey 0 124 0 0 0, .setLinkKey 0 368 0 0 0, .linkOpen 6 0, .closeLink 6 0, .closeLink 0 319, .dieOpen 6, .autoRollover 124,
      .keySwitch 319, .keyErase 368, .authenticationFailure 124 0, .authenticationFailure 0 2, .meterSumDelivery 7 0, .seizeWrite 6 0 0,
      .seizeWrite 0 256 0, .trclaimWrite 6 0 0 false 0, .trclaimWrite 0 16 0 false 0, .trclaimWrite 0 0 48 false 0, .traceTakeover 6 0,
      .traceTakeover 0 16, .issueGate 6, .registerWrite 7 0 0 0 0, .registerWrite 0 0 0 48 0, .farPortLink 8 true 16 0],
      i.wellFormed = false := by decide

/-! ## Results that may be an error, as Booleans -/

def okAt {ε α : Type} [DecidableEq α] (e : Except ε α) (a : α) : Bool :=
  match e with
  | .ok x => decide (x = a)
  | .error _ => false
def errorAt {ε α : Type} [DecidableEq ε] (e : Except ε α) (a : ε) : Bool :=
  match e with
  | .ok _ => false
  | .error x => decide (x = a)
theorem ok_iff {ε α : Type} [DecidableEq α] (e : Except ε α) (a : α) : e = .ok a ↔ okAt e a = true := by cases e <;> simp [okAt]
theorem error_iff {ε α : Type} [DecidableEq ε] (e : Except ε α) (a : ε) : e = .error a ↔ errorAt e a = true := by
  cases e <;> simp [errorAt]

/-! ## The states of the witnesses -/

/-- The first fibre of the link, shape and math core of tile 0 in die 0. -/
def fl : FibreRef := ⟨⟨0, 0, 0⟩, 0⟩
def fs : FibreRef := ⟨⟨0, 0, 1⟩, 0⟩
def fm : FibreRef := ⟨⟨0, 0, 2⟩, 0⟩
def fr : FibreRef := ⟨.root, 0⟩

/-- An unsealed capability over n bytes from an address of a space. -/
def over' (space perms a n : Nat) : Cap := Cap.spanning 0 0 space perms a n

/-- A READY fibre: its registers, its capabilities, its level. -/
def runs (pl : Nat) (g : List Word) (k : List Cap) : Fibre := { status := .ready, pc := 0x1000, pl, g, k }

/-- A package that runs partition 1 on tiles 0 and 1 of die 0, with a fibre that executes. -/
def pack1 (f : FibreRef) (x : Fibre) : State :=
  { State.reset with
    clock := 5000, cur := f, fibres := [(f, x)], todo := []
    tiles := [(0, { ptag := 1 }), (1, { ptag := 1 })]
    parts := [(1, { active := true, tab := [(0, 0), (1, 1)] })]
    dies := [(0, { trust := { state := 4 } }), (1, { trust := { state := 4 } })]
    pkg := { start := { phase := 2 } } }

/-- Registers for the arithmetic: zero, -1, the most negative number, small numbers. -/
def regs : List Word := [0, word (2 ^ 64 - 1), word (2 ^ 63), 1, 12, 7, word (2 ^ 62), 3]

/-! ## Witnesses: integer instructions, control, traps, fibres -/

def sInt : State := pack1 fl (runs 1 regs [])

/-- Divisor zero, divisor not zero, and the quotient that does not fit. -/
theorem wit_DivisionResults : sInt.g 0 = 0 ∧ sInt.g 5 ≠ 0 ∧ (sInt.g 2).toInt = -2 ^ 63 ∧ (sInt.g 1).toInt = -1 := by decide

/-- No bit among the low ones, and some. -/
theorem wit_BitCountResults : (sInt.g 0).toNat % 2 ^ 64 = 0 ∧ (sInt.g 2).toNat % 2 ^ 64 ≠ 0 ∧ (sInt.g 4).toNat % 2 ^ 8 ≠ 0 := by decide

/-- A sentry, unsealed code, and what JALR.K refuses. -/
def sentry : Cap := Cap.spanning 1 0 1 (2 ^ Cap.permX + 2 ^ Cap.permR) 0x2000 0x100
def code1 : Cap := Cap.spanning 2 0 1 (2 ^ Cap.permX + 2 ^ Cap.permR) 0x1000 0x1000
def xPerms : Nat := 2 ^ Cap.permX + 2 ^ Cap.permR
def sJump : State := pack1 fl { runs 1 regs [sentry, .null, over' 1 0x9F 0x2000 0x100, .null] with code := code1 }
def sJump2 : State :=
  pack1 fl (runs 1 regs [Cap.spanning 1 0 4 xPerms 0x2000 0x100, Cap.make 1 0 1 xPerms 0x1100 0x1000 1 0x1FFF true, Cap.make 1 0 1 xPerms 0x1100 0x1000 1 0x2002 true, .null])

theorem wit_BranchesAndJumps :
    (sJump.g 0 = sJump.g 0 ∧ sJump.g 0 ≠ sJump.g 3 ∧ (sJump.g 2).toInt < (sJump.g 3).toInt ∧ (sJump.g 3).toNat ≤ (sJump.g 2).toNat) ∧
    ((sJump.g 4).toNat % 4 = 0 ∧ (sJump.g 3).toNat % 4 ≠ 0) ∧ (sJump.k 1).tag = false ∧
    ((sJump.k 2).tag = true ∧ (sJump.k 2).sealOf ≠ 1) ∧
    ((sJump.k 0).tag = true ∧ (sJump.k 0).sealOf = 1 ∧ (sJump.k 0).has Cap.permX = true ∧ (sJump.k 0).space = 1 ∧
      (sJump.k 0).bounds.1 ≤ (sJump.k 0).cursor ∧ ((sJump.k 0).cursor : Int) + 4 ≤ (sJump.k 0).bounds.2 ∧ (sJump.k 0).cursor % 4 = 0) ∧
    (∀ n : Nat, n < 3 → (sJump2.k (BitVec.ofNat 2 n)).tag = true ∧ (sJump2.k (BitVec.ofNat 2 n)).sealOf = 1 ∧
      (sJump2.k (BitVec.ofNat 2 n)).has Cap.permX = true) ∧
    ((sJump2.k 0).space = 4 ∧ isService sJump2.cur.core = false) ∧
    ((sJump2.k 1).space = 1 ∧ ((sJump2.k 1).cursor : Int) < (sJump2.k 1).bounds.1) ∧
    ((sJump2.k 2).space = 1 ∧ (sJump2.k 2).bounds.1 ≤ (sJump2.k 2).cursor ∧ ((sJump2.k 2).cursor : Int) + 4 ≤ (sJump2.k 2).bounds.2 ∧
      (sJump2.k 2).cursor % 4 ≠ 0) := by
  decide

/-- A fibre whose core has its trap code capabilities, outside a handler and in one. -/
def handler : Cap := Cap.spanning 2 0 1 (2 ^ Cap.permX + 2 ^ Cap.permR) 0x4000 0x1000
def sTrap (x : Fibre) : State := { pack1 fm x with cores := [(fm.core, { tcap := [handler, handler], tvec := [0, 0x40, 0x80] })] }
def sGang : State :=
  { sTrap (runs 0 regs []) with gangs := [(0, { formed := true, members := [fm, fm, fm, fm] })] }
def sIn : State := sTrap { runs 1 regs [] with trap := true, epc := 0x1008 }

theorem wit_TrapEntry :
    ((sGang.fib fm).trap = false ∧ (sGang.trapCap fm.core 1).tag = true ∧ isService fm.core = false ∧ fm.core.kind = 2 ∧
      (sGang.gang (tileGang (coreTile fm.core))).formed = true ∧ fm ∈ (sGang.gang (tileGang (coreTile fm.core))).members) ∧
    ((sIn.fib fm).trap = true ∧ (sIn.fib fm).cont = .none) ∧
    ((sTrap (runs 0 regs [])).cluster (tileCluster (coreTile fm.core))).trOwner = 0 ∧
    fm ∉ ((sTrap (runs 0 regs [])).gang (tileGang (coreTile fm.core))).members ∧ ((sTrap (runs 0 regs [])).trapCap fm.core 1).tag = true := by decide

/-- A fibre of a task whose core has no trap code capability. -/
def sTask0 : State :=
  { pack1 fm { runs 1 regs [] with inTask := true, tdie := 2, taskix := 5 } with dies := [(2, { tasks := [(5, { state := .running, fibres := 1 })] })] }
theorem wit_TrapEntry_task :
    (sTask0.fib fm).inTask = true ∧ (sTask0.trapCap fm.core 1).tag = false ∧ (sTask0.fib fm).cont = .none ∧
    (tget {} (sTask0.die 2).tasks 5).faulted = false := by decide

def sArmed : State := { pack1 fl (runs 1 regs []) with clusters := [(0, { armed := 1, xo := true })] }

theorem wit_TrapAndHaltInstructions :
    (sArmed.armed fl.core = true ∧ (sArmed.core fl.core).halted = false ∧ 0 < sArmed.me.pl) ∧
    (sInt.armed fl.core = false ∧ 0 < sInt.me.pl ∧ sInt.cur.core ≠ .mgmt) ∧ (pack1 fl (runs 0 regs [])).me.pl = 0 ∧
    (pack1 ⟨.mgmt, 0⟩ (runs 2 regs [])).cur.core = .mgmt := by decide

theorem wit_ReturnFromTrap :
    (0 < sIn.me.pl ∧ sIn.me.trap = true ∧ sIn.me.epc.toNat % 4 = 0) ∧ (0 < sInt.me.pl ∧ sInt.me.trap = false) ∧
    (pack1 fl (runs 0 regs [])).me.pl = 0 ∧
    (let s := sTrap { runs 1 regs [] with trap := true, epc := 0x1006 }
     0 < s.me.pl ∧ s.me.trap = true ∧ s.me.epc.toNat % 4 ≠ 0) := by decide

/-- A trace unit that follows the math core of tile 0 and stands at the end of its buffer. -/
def sTrace : State :=
  { pack1 fm (runs 1 regs []) with clusters := [(0, { trOwner := 1, trPart := 1, trSel := word (2 * 2 ^ 32), trPos := 2 ^ 20 - 32 })] }

theorem wit_MemoryWrites :
    Memory.wf sTrace.mem = true ∧ isService fm.core = false ∧ (sTrace.cluster 0).trOwner ≠ 0 ∧
    field (sTrace.cluster 0).trSel 34 32 = fm.core.kind ∧ (sInt.cluster 0).trOwner = 0 := by decide

/-- A parent, a full pool, a misaligned entry, and the waits of FEXIT. -/
def sFull : State := { sInt with fibres := (List.range 224).map fun n => (⟨fl.core, n⟩, sInt.me) }
def sLease : State := pack1 fm { runs 0 regs [] with vl := true }
def sOuts : State := pack1 fl { runs 0 regs [] with outs := 3 }

theorem wit_FibreInstructions :
    ((sInt.fib ⟨fl.core, 1⟩).status = .free ∧ (sInt.fib ⟨fl.core, 0⟩).status ≠ .free ∧ (sInt.g 4).toNat % 4 = 0 ∧ sInt.me.inTask = false) ∧
    (sInt.g 3).toNat % 4 ≠ 0 ∧
    (∀ s ∈ [sLease, sInt, sOuts], s.me.pendFault = none ∧ s.me.pendStop = false) ∧ sIn.me.trap = true ∧
    (sLease.me.outs = 0 ∧ sLease.movesOf fm = false ∧ sLease.me.vl = true) ∧
    (sInt.me.outs = 0 ∧ sInt.movesOf fl = false ∧ sInt.me.vl = false ∧ sInt.laneWritesOf fl = false) ∧ 0 < sOuts.me.outs := by decide
theorem wit_FibreInstructions_full : (∀ m, m < 224 → (sFull.fib ⟨fl.core, m⟩).status ≠ .free) ∧ (sFull.g 4).toNat % 4 = 0 := by
  decide +kernel

/-! ## One step on a small state: the spec's own worked examples and hand calculations -/

/-- The state after an instruction. -/
def after (i : Instr) (s : State) : State :=
  match exec i s with
  | .next t => t
  | _ => s

/-- A link-core fibre with the given g registers, or with one more capability. -/
def sG (g : List Word) : State := pack1 fl (runs 1 (g ++ List.replicate (8 - g.length) 0) [])

/-- The example of R394. -/
theorem test_div_rem : let s := sG [0, 0, 0xFFFFFFFFFFFFFFF9, 2]
    (after (.div 1 2 3 0) s).g 1 = 0xFFFFFFFFFFFFFFFD ∧ (after (.div 1 2 3 1) s).g 1 = 0x7FFFFFFFFFFFFFFC ∧
    (after (.rem 1 2 3 0) s).g 1 = 0xFFFFFFFFFFFFFFFF ∧ (after (.rem 1 2 3 1) s).g 1 = 1 := by decide +kernel

/-- R394: a zero divisor, and the quotient that does not fit. -/
theorem test_div_corners : let s := sG [0, 0, 0x8000000000000000, 0xFFFFFFFFFFFFFFFF, 5]
    (after (.div 1 4 0 0) s).g 1 = 0xFFFFFFFFFFFFFFFF ∧ (after (.rem 1 4 0 0) s).g 1 = 5 ∧
    (after (.div 1 2 3 0) s).g 1 = 0x8000000000000000 ∧ (after (.rem 1 2 3 0) s).g 1 = 0 := by decide +kernel

/-- The example of R417. -/
theorem test_mul_mulh : let s := sG [0, 0, 0xFFFFFFFFFFFFFFFF, 2]
    (after (.mulh 1 2 3 0) s).g 1 = 0xFFFFFFFFFFFFFFFF ∧ (after (.mulh 1 2 3 1) s).g 1 = 1 ∧
    (after (.mul 1 2 3) s).g 1 = 0xFFFFFFFFFFFFFFFE := by decide +kernel

/-- The example of R452: an amount of 65 shifts by 1. -/
theorem test_shifts_sext : let s := sG [0, 0, 0x80000000000000F0, 65]
    (after (.sar 1 2 3) s).g 1 = 0xC000000000000078 ∧ (after (.shr 1 2 3) s).g 1 = 0x4000000000000078 ∧
    (after (.shl 1 2 3) s).g 1 = 0x1E0 ∧ (after (.sext 1 2 0) s).g 1 = 0xFFFFFFFFFFFFFFF0 := by decide +kernel

/-- The example of R392. -/
theorem test_counts : let s := sG [0, 0, 0xFFFFFFFF00000100]
    (after (.clz 1 2 2) s).g 1 = 23 ∧ (after (.ffs 1 2 1) s).g 1 = 9 ∧ (after (.clz 1 2 0) s).g 1 = 8 ∧
    (after (.popc 1 2 3) s).g 1 = 33 := by decide +kernel

/-- R388, R452: a sum that wraps, a source that is also the destination, signed against unsigned. -/
theorem test_add_sub_compare : let s := sG [0, 1, 0xFFFFFFFFFFFFFFFF]
    (after (.add 2 2 1) s).g 2 = 0 ∧ (after (.sub 1 0 1) s).g 1 = 0xFFFFFFFFFFFFFFFF ∧ (after (.slt 3 2 1) s).g 3 = 1 ∧
    (after (.sltu 3 2 1) s).g 3 = 0 ∧ (after (.add 2 2 1) s).me.pc = 0x1004 := by decide +kernel

/-- R389, R415, R436: the 20-bit immediate is sign-extended; the example of R415. -/
theorem test_immediates : let s := sG [0, 0x12, 0xFF]
    (after (.addi 3 1 0xFFFFF) s).g 3 = 0x11 ∧ (after (.andi 3 2 0xFFFF0) s).g 3 = 0xF0 ∧ (after (.lui 3 0x12345) s).g 3 = 0x12345000 ∧
    (after (.lui 3 0x80000) s).g 3 = 0xFFFFFFFF80000000 ∧ (after (.slti 3 1 0xFFFFF) s).g 3 = 0 := by decide +kernel

/-- The word 0x3983FFFD of R390 is a branch to three words back. -/
theorem test_branch_and_link : let s := sG [0, 0, 0, 1]
    (after (.bcc 3 0 1 0x1FFFD) s).me.pc = 0x1000 - 12 ∧ (after (.bcc 3 0 0 0x1FFFD) s).me.pc = 0x1004 ∧
    (after (.jal 7 2) s).me.pc = 0x1008 ∧ (after (.jal 7 2) s).g 7 = 0x1004 := by decide +kernel

/-- The example of R408. -/
def spaceCap : Cap := ⟨BitVec.ofNat 128 (primalBits 4 + 0x20000012345000), true⟩
theorem test_capabilities : let s := pack1 fl (runs 1 [0, 0, 0, 0x300000, 0, 0x600000, 0, 0] [.null, spaceCap, .null, .null])
    let t := after (.kbnd 3 1 2) s
    let u := after (.kadd 5 2 3) t
    (t.k 2).tag = true ∧ (t.k 2).bounds = (0x20000012345000, 0x20000012345000 + 0x300000) ∧ (after (.kget 4 3 2) t).g 4 = 0x300000 ∧
    (u.k 3).tag = false ∧ (u.k 3).cursor = 0x20000012945000 ∧ (after (.ktag 6 3) u).g 6 = 0 := by decide +kernel

/-- R411, R471: a store to the fibre's own tile store, and what loads of each extension give back (little-endian, R2). -/
def own : Cap := over' 1 0x9F 0x1000 0x1000
def sM : State := pack1 fl (runs 1 [0, 0, 0x11223344556680FF, 0, 0, 0, 0, 0] [.null, own, .null, .null])
theorem test_store_then_load : let t := after (.st 2 1 0 0 3 2) sM
    (getByte t.mem (paOf 1 0 0x1010)).toNat = 0xFF ∧ (getByte t.mem (paOf 1 0 0x1011)).toNat = 0x80 ∧ (getByte t.mem (paOf 1 0 0x1017)).toNat = 0x11 ∧ (getByte t.mem (paOf 1 0 0x1018)).toNat = 0 ∧
    (after (.ld 1 1 0 0 0 16) t).g 1 = 0xFFFFFFFFFFFFFFFF ∧ (after (.ld 1 1 0 0 5 8) t).g 1 = 0x80FF := by decide +kernel

/-- R376, R255, R260: without a trap code capability the trap of the all-zero store size 6 is ILLEGAL, taken at S. -/
theorem test_illegal_traps : let s := sTrap (runs 1 [] [])
    let t := after (.bara 1 96) s
    (t.me.cause, t.me.epc, t.me.trap, t.me.pl) = (1, 0x1000, true, 1) := by decide +kernel

/-- The example of R489: fused multiply-add rounds once. -/
def oneUp : Core := { v := [(1, 0xBF800002), (2, 0x3F800001), (3, 0x3F800001)] }
theorem test_vfma : ((vfltCompute oneUp (.vfma 1 2 3 6 0)).map fun o => ((o.wr.map fun w => (w.1, w.2.toNat % 2 ^ 32)), o.flags)) =
    some ([(1, 0x28800000)], 0) := by decide +kernel
theorem test_vfmul_inexact : ((vfltCompute oneUp (.vfmul 1 2 3 6 0)).map fun o => ((o.wr.map fun w => w.2.toNat % 2 ^ 32), o.flags)) =
    some ([0x3F800002], 16) := by decide +kernel

/-- The example of R483: an 8-bit shift by 9 shifts by 1. -/
theorem test_vsh : (shiftLane 0xF0 9 8 4, shiftLane 0xF0 9 8 2, shiftLane 0xF0 9 8 0) = (0xF8, 0x78, 0xE0) := by decide

/-! ## Witnesses: capabilities, accesses, system registers, semaphores, barriers, fences -/

/-- Unsealed capabilities with every permission but O and M, metered, sealed, and null. -/
def all : Nat := 0x9F
def sCap (pl : Nat) : State :=
  pack1 fl (runs pl [0x40, 0x9F, 0x1000000, word (2 ^ 8 + 2 ^ 9), word (2 ^ 55), 0x1F, 0, 0x100]
    [over' 1 all 0x1000 0x1000, sentry, .null, over' 4 all 0 (2 ^ 20)])

def sealedCap (sl meter : Nat) : Cap := Cap.make sl meter 1 (all + 2 ^ Cap.permO) 2 1 12 0x1000 true
def sCap2 (pl : Nat) : State :=
  pack1 fl (runs pl [0, 0xFF, 0x100, 0x3F, 0x800, word (2 ^ 24), word (2 ^ 8 + 2 ^ 12 + 0x43), word (2 ^ 8 + 3 * 2 ^ 9)]
    [sealedCap 2 0, sealedCap 0 5, .null, over' 1 all 0x1000 0x1000])

theorem wit_CapabilityDerivations :
    ((sCap2 1).k 2).tag = false ∧ (((sCap2 1).k 0).tag = true ∧ ((sCap2 1).k 0).sealOf ≠ 0) ∧
    (((sCap 1).k 0).tag = true ∧ ((sCap 1).k 0).sealOf = 0 ∧ 0 < ((sCap 1).g 0).toNat ∧ ((sCap 1).k 0).bounds.2 ≤ 2 ^ 56) ∧
    (((sCap2 1).k 3).tag = true ∧ ((sCap2 1).k 3).sealOf = 0 ∧ ((sCap2 1).g 0).toNat = 0) ∧
    (let f := Cap.fit ((sCap 1).k 0).cursor ((sCap 1).g 0).toNat
     ((sCap 1).k 0).bounds.1 ≤ f.2.1 ∧ (f.2.2 : Int) ≤ ((sCap 1).k 0).bounds.2) ∧
    (let f := Cap.fit ((sCap 1).k 0).cursor ((sCap 1).g 2).toNat
     (f.2.1 : Int) < ((sCap 1).k 0).bounds.1 ∨ ((sCap 1).k 0).bounds.2 < f.2.2) := by decide

/-- KPRM: reserved operand bits below Root and at Root, a sealed source, a mask that keeps O and one that would drop it, below Root
and at Root, what Root may set, and what it may not. -/
theorem wit_CapabilityDerivations_kprm :
    let u := sCap2 1
    let r := sCap2 3
    let v (n : BitVec 3) : Nat := (u.g n).toNat
    (u.me.pl ≠ 3 ∧ 256 ≤ v 2 ∧ v 1 < 256 ∧ (u.k 0).tag = true ∧ (u.k 0).sealOf ≠ 0) ∧
    (r.me.pl = 3 ∧ bitN (v 4) 11 = true ∧ 2 ^ 24 ≤ v 5) ∧
    ((u.k 1).tag = true ∧ (u.k 1).sealOf = 0 ∧ (u.k 1).meter ≠ 0 ∧ v 3 < 256 ∧ bitN ((u.k 1).perms &&& v 3 % 256) 6 = false ∧
      bitN ((u.k 1).perms &&& v 1 % 256) 6 = true) ∧
    (v 3 < 2 ^ 24 ∧ bitN (v 3) 11 = false ∧ bitN (v 3) 8 = false) ∧
    (v 6 < 2 ^ 24 ∧ bitN (v 6) 11 = false ∧ bitN (v 6) 8 = true ∧ bits (v 6) 10 9 ≠ 3 ∧ meteredOk (v 6 % 256) = true) ∧
    (v 7 < 2 ^ 24 ∧ bitN (v 7) 11 = false ∧ bitN (v 7) 8 = true ∧ bits (v 7) 10 9 = 3) := by decide

/-- KADD within the representable range keeps the tag, so that the derived capability is tagged. -/
theorem wit_DerivationNeverWidens :
    (sCap 1).me.pl ≠ 3 ∧ (sCap 1).me.k.length = 4 ∧ ((sCap 1).k 0).bounds.2 ≤ 2 ^ 56 ∧
    ∃ t, exec (.kadd 0 0 2) (sCap 1) = .next t ∧ t.me.pc = (sCap 1).me.pc + 4 ∧ t.me.trap = (sCap 1).me.trap ∧ (t.k 2).tag = true :=
  ⟨by decide, by decide, by decide, _, rfl, by decide, by decide, by decide⟩

/-- Tile 0's own store with some bytes and a tag, the store of tile 1, a die store and HBM. -/
def sMem (outs : Nat) : State :=
  { pack1 fl { runs 1 [0x10, 0x1122334455667788, 0xFFFFFFFF80000000, 8, 0x44434241, 3, 1, 0x81]
      [over' 1 all 0x100 0x1000, over' 1 all 0x100100 0x1000, .null, over' 1 (2 ^ Cap.permR + 2 ^ Cap.permW) 0xFFFF0 16] with outs } with
    mem := [(paOf 1 0 0x100, 0x41), (paOf 1 0 0x101, 0x42), (paOf 1 0 0x102, 0x43), (paOf 1 0 0x103, 0x44), (paOf 1 0 0x107, 0x80)]
    tags := [paOf 1 0 0x100] }

theorem wit_OwnStoreLoads :
    OwnStore (sMem 0) (paOf 1 0 0x100) ∧ Reaches (sMem 0) 0 0x100 8 State.pR false (.mem (paOf 1 0 0x100)) ∧
    Reaches (sMem 0) 0 0x110 16 State.pR false (.mem (paOf 1 0 0x110)) ∧
    (sMem 0).readError (paOf 1 0 0x100) 16 = none ∧ ((sMem 0).k 0).space = 1 := by
  unfold OwnStore Reaches
  simp only [ok_iff]
  decide

theorem wit_OwnStoreStores :
    OwnStore (sMem 0) (paOf 1 0 0x100) ∧ (sMem 0).errors = [] ∧ Reaches (sMem 0) 0 0x100 8 State.pW true (.mem (paOf 1 0 0x100)) ∧
    Reaches (sMem 0) 0 0x107 1 State.pW true (.mem (paOf 1 0 0x107)) ∧ Reaches (sMem 0) 3 0xFFFF0 16 State.pW true (.mem (paOf 1 0 0xFFFF0)) := by
  unfold OwnStore Reaches
  simp only [ok_iff]
  decide

theorem wit_OwnStoreAtomics :
    OwnStore (sMem 0) (paOf 1 0 0x100) ∧ (sMem 0).errors = [] ∧ Reaches (sMem 0) 0 0x100 8 State.pRWA true (.mem (paOf 1 0 0x100)) ∧
    Reaches (sMem 0) 0 0x100 4 State.pWA true (.mem (paOf 1 0 0x100)) ∧ (sMem 0).readError (paOf 1 0 0x100) 8 = none := by
  unfold OwnStore Reaches
  simp only [ok_iff]
  decide

theorem wit_RemoteAccesses :
    ¬ OwnStore (sMem 0) (paOf 1 1 0x100) ∧ (sMem 0).granuleOk fl.core (paOf 1 1 0x100) = true ∧
    (sMem 0).measWait (.mem (paOf 1 1 0x100)) 8 = false ∧ Reaches (sMem 0) 1 0x100100 8 State.pR false (.mem (paOf 1 1 0x100)) ∧
    Reaches (sMem 0) 1 0x100100 8 State.pW true (.mem (paOf 1 1 0x100)) ∧ Reaches (sMem 0) 1 0x100100 8 State.pRWA true (.mem (paOf 1 1 0x100)) ∧
    Reaches (sMem 16) 1 0x100100 8 State.pWA true (.mem (paOf 1 1 0x100)) ∧ (sMem 15).me.outs < 16 ∧ 16 ≤ (sMem 16).me.outs := by
  unfold OwnStore Reaches
  simp only [ok_iff]
  decide

/-- Capabilities that fail at each step, and one that fails at none. -/
def sBad (k : List Cap) : State := pack1 fl (runs 1 [] k)
def sBad1 : State := sBad [.null, sentry, over' 1 4 0x100 0x100, over' 7 all 0 64]
def sBad2 : State := sBad [over' 9 all 0 64, over' 1 all 0x100 0x100, over' 1 (all + 64) 0x100 0x100, over' 1 all 0x104 0x100]

/-- An access of every kind through capability k asks for its bytes and permissions. -/
def everyAccess (k : BitVec 2) : List Instr :=
  [.ld 1 k 0 0 3 0, .st 1 k 0 0 3 0, .ldk 1 k 0 0 0, .stk 1 k 0 0 0, .amo 1 k 2 0 1 0, .amoRed k 2 8 1 0, .acas 1 k 2 3 1 0]
/-- What an instruction asks, as far as the clauses of CapabilityTraps read it. -/
def asked (s : State) (k : BitVec 2) (i : Instr) : Option (Nat × Nat × Nat) := (asks s k i).map fun q => (q.addr, q.size, q.perm)

theorem wit_AccessTraps :
    (∀ i ∈ everyAccess 0, asked sBad1 0 i ≠ none) ∧ (∀ i ∈ everyAccess 1, asked sBad1 1 i ≠ none) ∧
    (sBad1.k 0).tag = false ∧ ((sBad1.k 1).tag = true ∧ (sBad1.k 1).sealOf ≠ 0) ∧
    (∀ i ∈ everyAccess 2, ∃ q ∈ asked sBad1 2 i, (sBad1.k 2).tag = true ∧ (sBad1.k 2).perms &&& q.2.2 ≠ q.2.2) ∧
    (∀ i ∈ everyAccess 3, ∃ q ∈ asked sBad1 3 i, (sBad1.k 3).tag = true ∧ (sBad1.k 3).sealOf = 0 ∧ (sBad1.k 3).perms &&& q.2.2 = q.2.2 ∧
      (sBad1.k 3).has Cap.permO = false ∧ (sBad1.k 3).space = 7 ∧ isService fl.core = false) ∧
    (∀ i ∈ everyAccess 0, ∃ q ∈ asked sBad2 0 i, (sBad2.k 0).perms &&& q.2.2 = q.2.2 ∧ 9 ≤ (sBad2.k 0).space) ∧ (sBad2.k 2).has Cap.permO = true ∧
    asked sBad2 1 (.ld 1 1 0 0 3 0x3FFF) = some (0xF8, 8, State.pR) ∧ asked sBad2 1 (.ldk 1 1 0 0 16) = some (0x200, 16, State.pR) ∧
    ((sBad2.k 1).space = 1 ∧ (0xF8 : Int) < (sBad2.k 1).bounds.1 ∧ (sBad2.k 1).bounds.2 < 0x200 + 16) ∧
    asked sBad2 3 (.st 1 3 0 0 3 0) = some (0x104, 8, State.pW) ∧
    sBad2.checkCap (sBad2.k 3) 0x104 8 State.pW true = .ok (.mem (paOf 1 0 0x104)) := by
  simp only [ok_iff]
  decide

/-- A service core past the ends of its private store, and addresses that space 8 does not have: a bit above 31, device 7, a tile of a
block that a compute core does not see. -/
def past (f : FibreRef) (space a : Nat) : State := pack1 f (runs 2 [] [over' space all a 64])
theorem wit_AccessTraps_space :
    (∀ x ∈ [((past ⟨.root, 0⟩ 7 0x80000), 0x80000), (past ⟨.mgmt, 0⟩ 7 0x40000, 0x40000)], ∀ i ∈ everyAccess 0, ∃ q ∈ asked x.1 0 i, q.1 = x.2 ∧
      (x.1.k 0).tag = true ∧ (x.1.k 0).sealOf = 0 ∧ (x.1.k 0).perms &&& q.2.2 = q.2.2 ∧ (x.1.k 0).has Cap.permO = false ∧ (x.1.k 0).space = 7 ∧
      (x.1.k 0).bounds.1 ≤ x.2 ∧ ((x.2 + q.2.1 : Nat) : Int) ≤ (x.1.k 0).bounds.2 ∧ isService x.1.cur.core = true) ∧
    (∀ a ∈ [2 ^ 32, 0x70000000, 0x04000000], let s := past fl 8 a
      ∀ i ∈ everyAccess 0, ∃ q ∈ asked s 0 i, q.1 = a ∧ (s.k 0).space = 8 ∧ (s.k 0).bounds.1 ≤ a ∧ ((a + q.2.1 : Nat) : Int) ≤ (s.k 0).bounds.2 ∧
        (2 ^ 32 ≤ a ∨ 7 ≤ bits a 31 28 ∨ (isService s.cur.core = false ∧ 0x40 ≤ bits a 27 20))) := by decide

/-- Space 8 at a level: a form that takes no register, a hole of block 0x00, a register of block 0x01 below its level, a doubleword of a
table entry, and 16 bytes of a register. -/
def regCap (pl a : Nat) : State := pack1 fl (runs pl [] [over' 8 all a 64])
theorem wit_AccessTraps_registers :
    (∀ i ∈ [Instr.amo 1 0 2 0 1 0, .amoRed 0 2 8 1 0, .acas 1 0 2 3 1 0, .ld 1 0 0 0 5 0], takesRegisters i = none ∧
      ∃ q ∈ asked (regCap 1 0) 0 i, (regCap 1 0).checkCap ((regCap 1 0).k 0) q.1 q.2.1 q.2.2 false = .ok (.reg 0 0 0)) ∧
    (takesRegisters (.ld 1 0 0 0 3 0) = some 8 ∧ takesRegisters (.stk 1 0 0 0 0) = some 16 ∧ asked (regCap 1 0x1408) 0 (.ld 1 0 0 0 3 0) = some (0x1408, 8, State.pR)) ∧
    ((regCap 1 0x1408).checkCap ((regCap 1 0x1408).k 0) 0x1408 8 State.pR false = .ok (.reg 0 0 0x1408) ∧ State.regRow 0 0 0x1408 = none) ∧
    ((regCap 1 0x100000).checkCap ((regCap 1 0x100000).k 0) 0x100000 8 State.pR false = .ok (.reg 0 1 0) ∧ State.regRow 0 1 0 = some (false, 2, 2) ∧
      (regCap 1 0x100000).me.pl < 2) ∧
    ((regCap 1 0).checkCap ((regCap 1 0).k 0) 0 8 State.pR false = .ok (.reg 0 0 0) ∧ State.regRow 0 0 0 = some (true, 1, 1)) ∧
    ((regCap 1 0x1400).checkCap ((regCap 1 0x1400).k 0) 0x1400 16 State.pW true = .ok (.reg 0 0 0x1400) ∧ State.regRow 0 0 0x1400 = some (false, 1, 1)) := by
  simp only [ok_iff]
  decide

theorem wit_SystemRegisterReads :
    (sysPriv 0x00).isSome ∧ (sysPriv 0x10).isSome ∧ sysPriv 0xFFF = none ∧ 1 ≤ sInt.me.pl ∧
    (∃ p q, sysPriv 0x10 = some (p, q) ∧ (pack1 fl (runs 0 [] [])).me.pl < p) :=
  ⟨by decide, by decide, by decide, by decide, _, _, rfl, by decide⟩

theorem wit_SystemRegisterWrites :
    1 ≤ (sMem 0).me.pl ∧ (((sMem 0).g 0).toNat < 0x1C ∧ ((sMem 0).g 0).toNat ≠ 0x0F) ∧ 0x1C ≤ ((sMem 0).g 7).toNat ∧ (sG [0x0F]).g 0 = 0x0F ∧
    ((pack1 fl (runs 0 [] [])).g 0).toNat < 2 ^ 56 ∧ ((sMem 0).g 3).toNat < 2 ^ 56 ∧ ((sMem 0).g 3).toNat % 4 = 0 ∧ 2 ^ 56 ≤ ((sMem 0).g 2).toNat ∧
    (pack1 fl (runs 0 [] [])).me.pl = 0 := by decide

/-- A latch with a semaphore event, a semaphore with units, one at its end and one with a waiter. -/
def sSem : State :=
  { pack1 fl { runs 1 regs [] with latch := 5 } with tiles := [(0, { ptag := 1, sems := [(3, (2, false)), (63, (65535, false))] }), (1, { ptag := 1 })] }

theorem wit_EventsAndSemaphores :
    sSem.me.latch &&& 1 ≠ 0 ∧ sSem.me.latch &&& 0x7A = 0 ∧ 0 < (sSem.sem fl.core 3).1 ∧ (sSem.sem fl.core 4).1 = 0 ∧
    sSem.semWaiters fl.core = [] ∧ sSem.me.cont = .none ∧ (sSem.sem fl.core 63).1 = 65535 := by decide

/-- One unit, and two fibres that wait for it. -/
def sSemTwo : State :=
  let x : Fibre := { runs 1 regs [] with status := .parked, park := 5, cont := .sem 2 3 }
  { pack1 fl x with
    fibres := [(fl, x), (⟨fl.core, 1⟩, x)], semWork := [State.semName fl.core 3]
    tiles := [(0, { ptag := 1, sems := [(3, (1, false))], semWait := [(3, fl), (3, ⟨fl.core, 1⟩)] })] }
theorem wit_EventsAndSemaphores_waiters :
    sSemTwo.semWork = [State.semName fl.core (3 : BitVec 6).toNat] ∧ fl ≠ ⟨fl.core, 1⟩ ∧ (sSemTwo.fib fl).cont = .sem 2 (3 : BitVec 6).toNat ∧
    (sSemTwo.fib fl).g.length = 8 ∧ sSemTwo.semWaiters fl.core = [(3, fl), (3, ⟨fl.core, 1⟩)] ∧ (sSemTwo.sem fl.core 3).1 = 1 := by decide

/-- Members of barrier 5: below its count, at it, beyond both; and no member of barrier 6. -/
def sBar (arr ahead : Nat) : State :=
  { pack1 fl (runs 1 [0, 7, 8, 9, 65536, 32776, 0x8009, 0] []) with
    cores := [(fl.core, { bars := [(5, { phase := 8, arr, ahead, en := true, count := 2, kinds := 7 })] })] }

theorem wit_Barriers_core :
    (sBar 0 0).barMember fl.core 5 = true ∧ (sBar 0 0).barMember fl.core 6 = false ∧
    ((sBar 2 1).bar fl.core 5).count ≤ ((sBar 2 1).bar fl.core 5).arr ∧ ((sBar 2 1).bar fl.core 5).ahead < ((sBar 2 1).bar fl.core 5).count ∧
    ((sBar 2 2).bar fl.core 5).count ≤ ((sBar 2 2).bar fl.core 5).ahead ∧
    ((8 + 65536 - 7) % 65536 = 1 ∧ (8 + 65536 - 8) % 65536 = 0 ∧ 65536 ≤ ((sBar 0 0).g 4).toNat) := by decide

/-! ## Witnesses: barrier events, fences, requests, messages, streams, moves -/

/-- The only required core holds the configuration, and one of its fibres waits for the phase. -/
def sWait : State :=
  { pack1 fl { runs 1 [0, 0, 0, 0, 0, 0, 0, 0] [] with status := .parked, park := 4, cont := .bar 3 8 5 } with
    cores := [(fl.core, { bars := [(5, { phase := 8, arr := 1, ahead := 0, en := true, count := 1, kinds := 1 })] })] }

theorem wit_Barriers :
    sWait.barRequired 1 0 1 = [fl.core] ∧ sWait.fibres = [(fl, sWait.fib fl)] ∧
    (sWait.fib fl).cont = .bar 3 8 5 ∧ 8 = (sWait.bar fl.core 5).phase ∧ (sWait.fib fl).g.length = 8 ∧
    sWait.barTornAt 5 0 1 fl.core = true ∧ sWait.agenda = [] ∧
    ∀ m ∈ [5000, 5001], ({ sWait with agenda := [(m, .barrierComplete 1 5 0 1)] } : State).agenda = [(m, .barrierComplete 1 5 0 1)] := by decide

/-- An access under way that is posted to tile 1, and a lane write. -/
def acc (op : AccOp) (posted : Bool) (pa : Nat) : Access :=
  { who := fl, part := 1, op, space := 1, va := 0x100100, size := 8, pa := some pa, meter := 0, atRoot := false, posted, stage := .sent, due := 0
    reply := [], replyTag := false, fault := none, wait := 0, dclass := 0, router := false }
def sFence (outs : Nat) (l : List (Nat × Access)) : State :=
  { pack1 fl { runs 1 [0, scopeWhole, word (2 ^ 40), 0, 0, 0, 0, 0] [] with outs } with flight := l, nextId := 9 }
def posted1 : List (Nat × Access) := [(3, acc (.store [1, 2, 3, 4, 5, 6, 7, 8]) true (paOf 1 1 0x100))]

theorem wit_FenceInstructions :
    scopeBad ((sFence 0 []).g 2) = true ∧ scopeBad ((sFence 0 []).g 1) = false ∧ (sFence 0 []).vecMemPending fl = false ∧
    (∃ x ∈ (sFence 1 posted1).flight, x.2.who = fl ∧ (x.2.posted && (sFence 1 posted1).scopeHolds (sFence 1 posted1).myPart ((sFence 1 posted1).g 1) x.2) = true) ∧
    ((sFence 0 []).me.outs = 0 ∧ (sFence 0 []).movesOf fl = false ∧ (sFence 0 []).laneWritesOf fl = false) ∧ 0 < (sFence 1 posted1).me.outs := by
  decide

/-- A task record, a query, and their refusals. -/
def sTask : State :=
  pack1 fl (runs 1 [0x80, 64, word (2 ^ 44 + 5 * 2 ^ 32 + 7), word (6 * 2 ^ 44), 0, 0, 0, 0] [over' 1 all 0x100 0x1000, .null, .null, .null])

theorem wit_TaskInstructions :
    (wrap 64 ((sTask.k 0).cursor + (sTask.g 0).toNat) = 0x180 ∧ 0x180 % 128 = 0 ∧
      sTask.checkCap (sTask.k 0) 0x180 128 State.pR false = .ok (.mem (paOf 1 0 0x180)) ∧ OwnStore sTask (paOf 1 0 0x180) ∧
      OwnStore sTask (paOf 1 0 0x180 + 64) ∧ sTask.home fl.core 1 (0x180 + 64) = some (.mem (paOf 1 0 0x180 + 64)) ∧
      sTask.readError (paOf 1 0 0x180) 64 = none ∧ sTask.mustHold fl 1 0x180 64 = false ∧
      sTask.mustHold fl 1 (0x180 + 64) 64 = false ∧ sTask.piecesOf fl = false ∧ sTask.releaseDone fl scopeWhole = true) ∧
    wrap 64 ((sTask.k 0).cursor + (sTask.g 1).toNat) % 128 ≠ 0 ∧
    ((sTask.g 2).toNat < 2 ^ 48 ∧ bits (sTask.g 2).toNat 47 44 ≤ 5) ∧ ((sTask.g 3).toNat < 2 ^ 48 ∧ 5 < bits (sTask.g 3).toNat 47 44) := by
  unfold OwnStore
  simp only [ok_iff]
  decide

/-- Operands of the circuit instructions: a class-0 bandwidth at its largest, a CID, a bandwidth, a wheel. -/
def sCirc : State := pack1 fl (runs 1 [word (959 * 2 ^ 44), 1, 4095, word (3 * 2 ^ 16 + 5), 959, 0, 0, 0] [])

theorem wit_CircuitRequests :
    fl.core.valid = true ∧ isService fl.core = false ∧ fl.core.kind = 0 ∧ copenBad (sCirc.g 0) = false ∧ field (sCirc.g 0) 63 61 = 0 ∧
    field (sCirc.g 0) 53 44 = 959 ∧ tileBad (sCirc.g 1) = false ∧ (sCirc.g 2).toNat < 4096 ∧ (1 ≤ (sCirc.g 4).toNat ∧ (sCirc.g 4).toNat ≤ 959) ∧
    (field (sCirc.g 3) 63 32 = 0 ∧ field (sCirc.g 3) 15 12 = 0 ∧ field (sCirc.g 3) 31 16 ≠ 0) ∧ fm.core.kind ≠ 0 := by decide

/-- A destination on tile 1, one that is refused, a full send queue, a fibre that owes a reply. -/
def sSend (n : Nat) : State :=
  { pack1 fl { runs 1 [word (2 ^ 32 + 0x2000), 0x10, word (3 * 2 ^ 44), 4, 5, 6, 7, 8] [over' 1 all 0x100 0x1000, .null, .null, .null] with
      rpl := true, replyTo := some (fs.core, 4) } with
    cores := [(fl.core, { sends := (List.range n).map fun i => (i, true) })], nextId := 40 }

theorem wit_MessageInstructions :
    (sSend 15).sendTarget fl.core ((sSend 15).g 0) = some ⟨0, 1, 0⟩ ∧ ((sSend 15).core fl.core).sends.length < 16 ∧
    (sSend 15).releaseDone fl scopeWhole = true ∧ (sSend 15).sendTarget fl.core ((sSend 15).g 2) = none ∧ 16 ≤ ((sSend 16).core fl.core).sends.length ∧
    (wrap 64 (((sSend 0).k 0).cursor + ((sSend 0).g 1).toNat) = 0x110 ∧ 0x110 % 64 ≤ 16 ∧
      (sSend 0).checkCap ((sSend 0).k 0) 0x110 48 State.pR false = .ok (.mem (paOf 1 0 0x110)) ∧ OwnStore (sSend 0) (paOf 1 0 0x110) ∧
      (sSend 0).readError (paOf 1 0 0x110) 48 = none ∧ (sSend 0).mustHold fl 1 0x110 48 = false ∧ (sSend 0).piecesOf fl = false) ∧
    ((sSend 0).me.rpl = true ∧ (sSend 0).me.replyTo = some (fs.core, 4)) ∧ sInt.me.rpl = false := by
  unfold OwnStore
  simp only [ok_iff]
  decide

/-- A message that passes the check of its core, one that fails it, and one at the head of the receive queue. -/
def msg (h : Nat) : Message :=
  { src := fl, srcPart := 1, dst := fs.core, handler := word h, words := [1, 2, 3, 4, 5, 6], reply := false, reserved := true, entry := 4 }
def sMsg (q : List Message) : State :=
  { pack1 fl (runs 1 [] []) with
    messages := [(7, msg 0x2000), (8, msg 0x3000)]
    cores := [(fl.core, { sends := [(4, true)] }),
      (fs.core, { mhlo := 0x2000, mhhi := 0x2FFC, mhcap := Cap.spanning 2 0 1 5 0x2000 0x1000, recvReq := q, sends := [(4, true)] })] }

def held : Task := { part := 1, state := .running, tiles := [0], kinds := 2, seq := 3, ord := 9 }
def sHeld : State := { sMsg [] with dies := [(0, { tasks := [(6, held)] })] }

theorem wit_MessageDelivery :
    tfind (sMsg []).messages 7 = some (msg 0x2000) ∧ (sMsg []).handlerOk fs.core (msg 0x2000).handler = true ∧ ((sMsg []).core fs.core).recvReq.length < 16 ∧
    tfind (sMsg []).messages 8 = some (msg 0x3000) ∧ (sMsg []).handlerOk fs.core (msg 0x3000).handler = false ∧
    (((sMsg [msg 0x2000]).core fs.core).recvReq = [msg 0x2000] ∧ (sMsg [msg 0x2000]).freeSlot fs.core 224 16 = some 224 ∧
      (sMsg [msg 0x2000]).requestHandlers fs.core < 12) ∧ (sMsg []).taskHolding fs.core = none ∧
    sHeld.taskHolding fs.core = some (0, 6, held) ∧ tfind sHeld.messages 7 = some (msg 0x2000) := by decide

/-- Stream registers: a bound receive register with a flit, one without, an injection register, one word before its flit is full, and an unbound
one whose CID the tile's tables hold. -/
def entryOf (cid : Nat) : Entry := BitVec.ofNat 32 (2 ^ 31 + 2 * 2 ^ 28 + 1 * 2 ^ 22 + cid)
def sStrm : State :=
  { pack1 fl (runs 1 [9, 0, 0, 0, 5, 6, 0, 0] []) with
    tiles := [(0, { ptag := 1, slots := [((4, 17), entryOf 9)] }), (1, { ptag := 1 })]
    cores := [(fl.core, { streams := [(2, { bound := true, cid := 3, n := 2, fifo := [5], seen := [4990] }), (3, { bound := true, cid := 4, n := 2 }),
      (4, { bound := true, inj := true, cid := 5, n := 2 }), (5, { bound := true, inj := true, cid := 6, n := 2, part := [1] })] })] }

theorem wit_StreamInstructions :
    (let r := sStrm.strm fl.core 2
     r.bound = true ∧ r.inj = false ∧ r.fifo = [5] ∧ r.seen = [4990] ∧ 4990 ≤ sStrm.clock ∧ sStrm.strmWaited fl.core 2 = false ∧ r.popped + 1 < r.n) ∧
    (let r := sStrm.strm fl.core 3
     r.bound = true ∧ r.inj = false ∧ r.lost = false ∧ r.fifo = []) ∧
    (let r := sStrm.strm fl.core 4
     r.bound = true ∧ r.inj = true ∧ r.fifo.length < 64 ∧ r.part.length + 1 < r.n) ∧
    (let r := sStrm.strm fl.core 5
     r.bound = true ∧ r.inj = true ∧ r.part.length + 1 = r.n) ∧
    ((sStrm.strm fl.core 6).bound = false ∧ (sStrm.g 0).toNat < 4096 ∧ (sStrm.g 1).toNat < 8 ∧
      (∃ e ∈ sStrm.tableEntries (coreTile fl.core), e.1 = 4 ∧ entryV e.2 = true ∧ entryCid e.2 = 9 ∧ entryPtag e.2 = sStrm.myPart) ∧
      (∀ k, k < 3 → ∀ y ∈ (sStrm.core (coreOf (coreTile fl.core) k)).streams, ¬ (y.2.bound = true ∧ y.2.cid = 9 ∧ y.2.inj = false))) ∧
    (sStrm.core fl.core).strmWait = [] := by decide +kernel

/-- Geometries of 2 rows: bytes, and blocks of a square form; spans in both tiles' stores, and a die store. -/
def geo (form rows len : Nat) : Word := word (form * 2 ^ 62 + rows * 2 ^ 48 + len * 2 ^ 32 + 0x100 * 2 ^ 16 + 0x100)
def sMove : State :=
  { pack1 fl (runs 1 [0, 0, 0, 0, 0, 0, 0, 0] [over' 1 all 0x1000 0x8000, over' 1 all 0x101000 0x8000, over' 3 all 0 (2 ^ 20), over' 2 all 0x1000 0x8000]) with
    cores := [(fl.core, { geom := [(0, geo 0 2 64), (1, geo 1 2 2)] })] }

theorem wit_MoveIssue :
    (let g := tget 0 (sMove.core fl.core).geom 0
     field g 59 48 ≠ 0 ∧ field g 47 32 ≠ 0 ∧ field g 63 62 = 0 ∧
     sMove.checkCapAt fl.core false (sMove.k 0) 0x1000 (srcSpan false g) State.pR false true = .ok (.mem (paOf 1 0 0x1000)) ∧
     sMove.checkCapAt fl.core false (sMove.k 1) 0x101000 (dstSpan false g) State.pW true true = .ok (.mem (paOf 1 1 0x1000)) ∧
     sMove.checkCapAt fl.core false (sMove.k 2) 0 (srcSpan false g) State.pR false true = .ok (.mem (paOf 3 0 0))) ∧
    (let g := tget 0 (sMove.core fl.core).geom 1
     field g 59 48 ≠ 0 ∧ field g 47 32 ≠ 0 ∧ field g 63 62 = 1 ∧
     sMove.checkCapAt fl.core false (sMove.k 0) 0x1000 (srcSpan true g) State.pR false true = .ok (.mem (paOf 1 0 0x1000)) ∧
     sMove.checkCapAt fl.core false (sMove.k 1) 0x101000 (dstSpan true g) State.pW true true = .ok (.mem (paOf 1 1 0x1000))) ∧
    ((sMove.k 0).meter = 0 ∧ (sMove.k 0).space = 1 ∧ (sMove.k 2).space = 3 ∧ (sMove.core fl.core).moves.length < 32) := by
  simp only [ok_iff]
  decide

/-! ## Witnesses: the root core, dispatch, gangs -/

def sRoot (c : Cont) : State :=
  { pack1 fr { runs 3 [64, word (0x400 * 2 ^ 32), 0, 0x100, 0, 0, 0, 0]
      [over' 7 all 0x1000 0x4000, over' 7 all 0x5000 0x4000, .null, .null] with cont := c, status := if c = .none then .ready else .parked } with tiles := [] }

theorem wit_RootInstructions :
    let s := sRoot .none
    s.pkg.sigClaim = none ∧ (s.modPkg fun k => { k with sigClaim := some ⟨.root, 1⟩ }).pkg.sigClaim ≠ some s.cur ∧ s.cur.core = .root ∧ s.flight = [] ∧ (s.core .root).disp = [] ∧ (s.core .root).running = [] ∧
    (1 ≤ (s.g 0).toNat ∧ (s.g 0).toNat ≤ 16777216 ∧ s.srcCheck (rootSrc s 0 1 64) = none ∧ s.destCheck (rootDst s 1 1 32) = none ∧
      s.physLimit (rootDst s 1 1 32) = none) ∧
    (s.srcCheck (rootSrc s 0 1 32) = none ∧ s.destCheck (rootDst s 1 1 384) = none ∧ s.physLimit (rootDst s 1 1 384) = none) ∧
    (field (s.g 3) 63 32 = 0 ∧ s.srcCheck (rootSrc s 0 3 800) = none ∧ s.srcCheck (rootSrc s 0 3 32) = none) ∧
    (field (s.g 1) 31 0 = 0 ∧ s.g 2 = 0 ∧ s.destCheck (rootDst s 1 1 128) = none ∧ (rootDst s 1 1 128).a % 8 = 0 ∧
      s.physLimit (rootDst s 1 1 128) = none) := by decide

/-- Fibres whose sources have come back. -/
def sGathered (i : Instr) (n : Nat) : State :=
  let s := sRoot (.gather i)
  let x := s.me
  { s with fibres := [(fr, { x with buf := (linePieces 0x1100 n).map fun p => (State.pieceKey 7 p.1 p.2, List.replicate p.2 1) })] }
def retired (s : State) : State := s.modPkg fun k => { k with start := { k.start with lc := 4 } }

theorem wit_RootInstructions_results :
    (sGathered (.pkver 0 3 0) 800).piecesOf fr = false ∧ ((sGathered (.pkver 0 3 0) 800).fib fr).cont = .gather (.pkver 0 3 0) ∧
    ((sGathered (.sha 0 3 0 1 0) 64).fib fr).cont = .gather (.sha 0 3 0 1 0) ∧ ((sGathered (.mext 3 0 0) 32).fib fr).cont = .gather (.mext 3 0 0) ∧
    ((retired (sGathered (.pksign 0 3 0 1) 32)).fib fr).cont = .gather (.pksign 0 3 0 1) ∧
    (retired (sGathered (.pksign 0 3 0 1) 32)).pkg.start.lc = 4 := by decide

def sMtrq : State := pack1 fl (runs 1 [0, 0x40, 0, 0, 0, 0, 0, 0] [over' 1 all 0x1000 0x4000, .null, .null, .null])

theorem wit_RandomAndMeterRequests :
    ((sRoot .none).cur.core = .root ∧ (sRoot .none).pkg.entropyOk = true ∧ 2 ^ 20 ≤ (sRoot .none).pkg.drbg.requests ∧
      ((sRoot .none).modPkg fun k => { k with drbg := { k.drbg with requests := 2 ^ 20 - 1 } }).pkg.drbg.requests < 2 ^ 20) ∧
    ((sRoot .none).modPkg fun k => { k with entropyOk := false }).pkg.entropyOk = false ∧
    (isService sMtrq.cur.core = false ∧ 1 ≤ sMtrq.me.pl ∧ (sMtrq.g 1).toNat < 2 ^ 32 ∧ (rootSrc sMtrq 0 1 768).a % 64 = 0 ∧
      (rootSrc sMtrq 0 1 768).c.space = 1 ∧ sMtrq.releaseDone fl scopeWhole = true) ∧
    (∃ h, sMtrq.checkCap (rootSrc sMtrq 0 1 768).c (rootSrc sMtrq 0 1 768).a 768 State.pRW true = .ok h) ∧
    (∃ p, sMtrq.physPieces fl.core 1 1 (rootSrc sMtrq 0 1 768).a 768 true = .ok p) ∧
    (∃ p, sMtrq.physPieces fl.core 1 1 (rootSrc sMtrq 0 1 768).a 768 false = .ok p) :=
  ⟨by decide, by decide, by decide, ⟨_, rfl⟩, ⟨_, rfl⟩, ⟨_, rfl⟩⟩

/-- A math core whose fibre holds the lease, or does not, with n dispatched instructions. -/
def disp (seq : Nat) (i : Instr) (g : List Word) : Disp := { seq, slot := 0, i, pc := 0x1000, g, k := [], pl := 1 }
def sVec (vl : Bool) (n : Nat) : State :=
  { pack1 fm { runs 1 [3, word (2 + 4 * 2 + 256), 7, 65535, 4095, word (15 + 256 * 31), 0, 1] [] with vl } with
    cores := [(fm.core, { dispNo := 65535, lease := if vl then some 0 else some 3, disp := (List.range n).map fun i => disp i (.vaclr 0) [] })] }

theorem wit_VectorDispatch :
    dispatchGroup (.vext 1 2 0 3 0) = some .vec ∧ dispatchGroup (.mfmt 1) = some .math ∧ dispatchGroup (.qtrn 0 7 0 0) = some .shape ∧
    groupRuns .vec fm.core = true ∧ groupRuns .math fm.core = true ∧ groupRuns .shape fs.core = true ∧
    (Instr.vext 1 2 0 3 0).wellFormed = true ∧ (Instr.mfmt 1).wellFormed = true ∧ shapeBad fm.core (.mfmt 1) = false ∧
    ((sVec true 15).g 0).toNat < Instr.laneCount 3 ∧ ((sVec true 15).g 1).toNat = 2 + 4 * 2 + 256 * 1 ∧
    (sVec true 15).me.vl = true ∧ ((sVec true 15).core fm.core).disp.length + ((sVec true 15).core fm.core).running.length < 16 ∧
    16 ≤ ((sVec true 16).core fm.core).disp.length ∧ (sVec false 0).me.vl = false ∧ ((sVec false 0).core fm.core).lease.isSome = true ∧
    (let s := { sVec false 0 with cores := [(fm.core, { dispNo := 65535 })] }
     s.me.vl = false ∧ (s.core fm.core).lease = none ∧ (s.core fm.core).leaseWait = [] ∧ (s.core fm.core).disp.length + (s.core fm.core).running.length < 16) := by
  decide

/-- A dispatched instruction that may start, and one whose results are ready. -/
def sDisp (vgate : Bool) : State :=
  { pack1 fm (runs 1 [] []) with
    cores := [(fm.core, { disp := [disp 5 (.vadd 1 2 3 3 0) []], v := [(2, 7), (3, 8)] })]
    dies := [(0, { trust := { state := 4 }, vgate })] }
def sRet (t : Nat) : State :=
  { pack1 fm { runs 1 [0, 0, 0, 0, 0, 0, 0, 0] [] with status := .parked, park := 11, cont := .dispatch 2 5 } with
    cores := [(fm.core, { running := [{ disp 5 (.vext 2 1 0 3 0) [] with doneAt := t, result := 77 }], ring := [(5, { seq := 5, valid := true })] })] }
def sRetW : State :=
  { pack1 fm (runs 1 [] []) with
    cores := [(fm.core, { running := [{ disp 5 (.vadd 1 2 3 3 0) [] with doneAt := 4000, wr := [(1, 15)], flags := 3 }], ring := [(5, { seq := 5, valid := true })] })] }

theorem wit_DispatchStartAndRetire :
    (sDisp false).stopped ((sDisp false).partOf fm.core) = false ∧ vmemOf (.vadd 1 2 3 3 0) = none ∧ shapeOp (disp 5 (.vadd 1 2 3 3 0) []) = none ∧
    ((sDisp false).core fm.core).disp = [disp 5 (.vadd 1 2 3 3 0) []] ∧ ((sDisp false).core fm.core).running = [] ∧ ((sDisp false).die 0).vgate = false ∧
    ((sDisp true).die 0).vgate = true ∧ isMtx (.vadd 1 2 3 3 0) = false ∧ ((sDisp false).core fm.core).sfuFree ≤ (sDisp false).clock ∧
    (∃ o, vecCompute ((sDisp false).core fm.core) [] (.vadd 1 2 3 3 0) = some o) ∧
    ((sRet 5000).clock = 5000 ∧ ((sRet 5000).fib fm).cont = .dispatch 2 5) ∧ (sRet 5001).clock < 5001 ∧ (sRetW.fib fm).status ≠ .parked :=
  ⟨by decide, by decide, by decide, by decide, by decide, by decide, by decide, by decide, by decide, ⟨_, rfl⟩, by decide, by decide, by decide⟩

/-! ## Witnesses: gangs -/

/-- Gang 0 stands on tiles 0 to 3 of die 0; the member of each position is fibre 0 of its math core. -/
def gf (q : Nat) : FibreRef := ⟨⟨0, q, 2⟩, 0⟩
def gop (i : Instr) (g : List Word) (q : Nat) : GangOp :=
  { d := { disp 5 i g with k := [over' 1 all 0 0x10000, over' 1 all 0x8000 0x8000] }, fibre := gf q, mark := 0 }
def gops (i : Instr) (g : List Word) : List GangOp := (List.range 4).map (gop i g)
def mmaOp : Instr := .mma 3 0 1 0 1
/-- The operand block of A at 0x100 of each tile store, that of B at 0x8200. -/
def mmaG : List Word := [word (0x100 + 0x200 * 2 ^ 32), 9]
def mma1 (fetch : Nat) : Mma :=
  { slot := 3, tag := 9, var := 0, ops := gops mmaOp mmaG, joinAt := 4000, sa := 0, sb := 1, sat := false, toFetch := fetch, blocks := []
    buffer := false, startAt := 4100, freeAt := 4100, writeAt := 4200, replay := 0 }
def sGang4 (g : Gang) : State :=
  { pack1 fm (runs 1 [] []) with
    fibres := (List.range 4).map fun q => (gf q, runs 1 [] [])
    tiles := (List.range 4).map fun q => (q, { ptag := 1 })
    gangs := [(0, g)] }
def gang1 : Gang := { formed := true, token := 7, members := (List.range 4).map gf, valid := true, sa := 0, sb := 1 }
def sHeads (i : Instr) (g : List Word) : State := sGang4 { gang1 with queues := (List.range 4).map fun q => (q, [gop i g q]) }

theorem wit_GangOperations_join : ∀ x ∈ [((.mgang 0 : Instr), [(7 : Word)]), (.mfmt 0, [4]), (.mzero 3 1, mmaG), (mmaOp, mmaG)],
    let s := sHeads x.1 x.2
    State.gangHeads (s.gang 0) = gops x.1 x.2 ∧ s.gangRuns 0 = true ∧ ((gops x.1 x.2).all fun o => headsAgree (gop x.1 x.2 0).d o.d) = true ∧
    (gops x.1 x.2).all s.headReady = true ∧ (∀ o ∈ gops x.1 x.2, (s.fib o.fibre).status = .ready) ∧ (s.gang 0).valid = true ∧ (s.gang 0).mmas = [] ∧
    (tget {} (s.gang 0).slots 3).state = 0 ∧ (tget {} (s.gang 0).slots 3).dying = false := by decide

def sMma (fetch : Nat) : State := sGang4 { gang1 with mmas := [mma1 fetch], slots := [(3, { state := 1, tag := 9 })] }

theorem wit_GangOperations_write :
    let s := sMma 0
    (s.gang 0).mmas = [mma1 0] ∧ s.gangRuns 0 = true ∧ (mma1 0).toFetch = 0 ∧ (mma1 0).writeAt ≤ s.clock ∧ (mma1 0).var < 3 ∧
    (tget {} (s.gang 0).slots 3).dying = false ∧ ∀ o ∈ (mma1 0).ops, (s.fib o.fibre).status = .ready := by decide

def sGated : State := { sMma 1 with dies := [(0, { mgate := true })] }
def okOf {ε α : Type} (d : α) (e : Except ε α) : α := match e with | .ok x => x | .error _ => d
def mmaXs : List (Operand × Nat) := okOf [] ((sMma 1).operandsCheck 0 (operandsOf (mma1 1)))

theorem wit_GangOperations_period :
    let s := sMma 1
    (sGated.die 0).mgate = true ∧ (s.die 0).mgate = false ∧ (s.gang 0).mmas = [mma1 1] ∧ (∀ i, 1 ≤ i → i < 4 → (s.gang (0 + i)).mmas = []) ∧
    s.gangRuns 0 = true ∧ (mma1 1).toFetch = 1 ∧ (mma1 1).sa ≠ 2 ∧ (mma1 1).var < 2 ∧ (mma1 1).blocks = [] ∧ s.servable 0 (mma1 1) = true ∧
    mmaXs.length = 8 ∧ (State.fitReads {} (mmaXs.map fun x => (State.periodBlock (mma1 1) x).1)).isSome = true ∧
    (∀ x ∈ mmaXs, s.readError (State.periodBlock (mma1 1) x).1 (State.periodBlock (mma1 1) x).2 = none) := by
  refine ⟨by decide, by decide, by decide, ?_, by decide⟩
  intro i h1 h2
  obtain rfl | rfl | rfl : i = 1 ∨ i = 2 ∨ i = 3 := by omega
  all_goals decide

/-- A slot that the fibre's core holds as a member, and its instructions. -/
def dSlot (i : Instr) : Disp := disp 6 i [word (3 + 31 * 256)]
def sSlot (st : Nat) : State := sGang4 { gang1 with slots := [(3, { state := st, part := 1, tag := 9, members := (List.range 4).map fun q => fibreId (gf q), vals := [(1023, 77)], bad := [30] })] }

def sForeign : State := sGang4 { gang1 with slots := [(3, { state := 1, part := 2 })] }

theorem wit_GangOperations_slots :
    let c := fm.core
    slotOf (dSlot (.mrd 0 4)) = 3 ∧ State.gangOf c = 0 ∧ (tget {} ((sSlot 1).gang 0).slots 3).state = 1 ∧
    lget 0 (tget {} ((sSlot 1).gang 0).slots 3).members (State.posOf c) = fibreId ⟨c, 0⟩ ∧
    (lget 0 (dSlot (.mrd 0 4)).g 0).toNat / 256 % 32 = 31 ∧ 31 ∉ (tget {} ((sSlot 1).gang 0).slots 3).bad ∧
    (tget {} ((sSlot 0).gang 0).slots 3).state = 0 ∧ (tget {} ((sSlot 2).gang 0).slots 3).state = 2 ∧
    (tget {} ((sSlot 1).gang 0).slots 3).part = (sSlot 1).partOf c ∧ (tget {} ((sSlot 2).gang 0).slots 3).part = (sSlot 2).partOf c ∧
    ((tget {} (sForeign.gang 0).slots 3).state ≠ 0 ∧ (tget {} (sForeign.gang 0).slots 3).part ≠ sForeign.partOf c) ∧
    slotOf (dSlot (.mrel 3)) = 3 ∧ slotOf (dSlot (.mrcl 3)) = 3 ∧ slotOf (dSlot (.mstat 0 5)) = 3 := by decide

/-! ## Witnesses: events of fibres, walks, accesses, the residue network and moves -/

def sFib (x : Fibre) : State := pack1 fl x
def sExit (t : Bool) : State :=
  { sFib { runs 1 [] [] with status := .parked, cont := .exit, inTask := t, tdie := 0, taskix := 3 } with
    dies := [(0, { tasks := [(3, { part := 1, state := .running, fibres := 2 })] })] }
def sLeaseDrop (l : List Nat) : State :=
  let x := { runs 1 [] [] with status := .parked, park := 8 }
  { pack1 fs x with
    fibres := [(fs, { x with cont := .leaseDrop false, vl := true }), (⟨fs.core, 1⟩, { x with cont := .lease })]
    cores := [(fs.core, { lease := some 0, leaseWait := l })] }
def pf : PendFault := { cause := 5, einfo := 77, seq := 3 }

theorem wit_FibreEvents :
    (fl.core ≠ .root ∧ ((sFib { runs 1 [] [] with status := .busy }).fib fl).status = .busy) ∧
    (((sExit true).fib fl).cont = .exit ∧ fl.slot < 224 ∧ ((sExit true).fib fl).rpl = false ∧ ((sExit true).fib fl).pendFault = none ∧
      ((sExit true).fib fl).inTask = true ∧ ((sExit false).fib fl).inTask = false) ∧
    (((sLeaseDrop []).core fs.core).lease = some 0 ∧ ((sLeaseDrop []).fib ⟨fs.core, 0⟩).cont = .leaseDrop false ∧
      (sLeaseDrop []).dispatchedOf ⟨fs.core, 0⟩ = false ∧ fs.core.kind ≠ 2 ∧ ((sLeaseDrop []).core fs.core).leaseWait = []) ∧
    (((sLeaseDrop [1]).core fs.core).lease = some 0 ∧ ((sLeaseDrop [1]).fib ⟨fs.core, 0⟩).cont = .leaseDrop false ∧
      (sLeaseDrop [1]).dispatchedOf ⟨fs.core, 0⟩ = false ∧ ((sLeaseDrop [1]).core fs.core).leaseWait = [1]) ∧
    ((sFib { runs 1 [] [] with pendFault := some pf }).fib fl).pendFault = some pf ∧
    ((sFib { runs 1 [] [] with pendStop := true }).fib fl).pendStop = true := by decide

def xPkt : Fibre := runs 1 [5, 6, 0, 0, 0, 0, 0, 0] [.null, sentry, .null, .null]
def walkTo : Home := .mem (paOf 1 256 0x2000)
def wpkt : WalkPkt := { src := fl, part := 1, die := 1, space := 1, home := walkTo, bytes := State.walkBytes fl 1 xPkt, taskseq := 0, inTask := false }
def sWalkWait : State := sFib { runs 1 [] [] with status := .parked, cont := .walkWait 1 walkTo }
/-- A walk under way from die 0 to die 1, whose tile 256 is of the partition. -/
def sWalk (n : Nat) (into : Option FibreRef) : State :=
  let tgt : FibreRef := ⟨⟨1, 0, 0⟩, 240⟩
  { sFib { runs 1 [] [] with status := .parked, cont := .walking 9, pendStop := true } with
    tiles := [(0, { ptag := 1 }), (16, { ptag := 1 })]
    dies := [(0, { trust := { state := 4 } }), (1, { trust := { state := 4 } })]
    fibres := [(fl, { runs 1 [] [] with status := .parked, cont := .walking 9, pendStop := true }), (tgt, runs 1 [1] [])]
      ++ (List.range n).map fun i => (⟨⟨1, 0, 0⟩, 241 + i⟩, runs 1 [] [])
    walkers := [(9, { wpkt with into })] }

theorem wit_WalkEvents :
    ((sWalkWait.fib fl).cont = .walkWait 1 walkTo ∧ fl.core.kind ≠ 2) ∧
    (tfind (sWalk 0 none).walkers 9 = some wpkt ∧ wpkt.into = none ∧ wpkt.arrived = none ∧ (sWalk 0 none).dieOpen wpkt.die = true ∧
      (sWalk 0 none).walkSlot wpkt = some ⟨⟨1, 0, 0⟩, 241⟩) ∧
    ((sWalk 15 none).dieOpen wpkt.die = true ∧ (sWalk 15 none).walkCores wpkt ≠ [] ∧ (sWalk 15 none).walkSlot wpkt = none) ∧
    ((sWalk 0 none).fib fl).cont = .walking 9 ∧
    (xPkt.g.length = 8 ∧ xPkt.k.length = 4 ∧ xPkt.tdie < 8 ∧ xPkt.taskix < 4096 ∧ xPkt.pl < 4 ∧ xPkt.outs < 256 ∧ xPkt.walks < 4096) ∧
    (tfind (sWalk 0 (some ⟨⟨1, 0, 0⟩, 240⟩)).walkers 9 = some { wpkt with into := some ⟨⟨1, 0, 0⟩, 240⟩ } ∧ wpkt.src.slot < 224) := by decide +kernel

/-- An access of the fibre, at its home address. -/
def accOf (op : AccOp) (space va size : Nat) (pa : Option Nat) : Access :=
  { who := fl, part := 1, op, space, va, size, pa, meter := 0, atRoot := false, posted := false, stage := .sent, due := 0
    reply := [], replyTag := false, fault := none, wait := 0, dclass := 0, router := false }
def memPa : Nat := paOf 1 0 0x2000
def aLoad : Access := accOf (.load 2 3) 1 0x2000 8 (some memPa)
def aStore : Access := accOf (.store [1, 2, 3, 4, 5, 6, 7, 8]) 1 0x2000 8 (some memPa)
def aGate : Access := accOf (.load 2 3) 4 0x5000 8 none
def aRep (op : AccOp) (n : Nat) : Access := { accOf op 1 0x2000 n (some memPa) with reply := (List.range n).map (BitVec.ofNat 8), replyTag := true, stage := .performed }
def aFault : Access := { aLoad with fault := some (5, 7), stage := .performed }
def xl (pr : Bool) : Xlat := { part := 1, space := 4, va := 0x4000, sz := 0, attr := 0, pr, pw := true, pa := 0x9000 }
def sAcc (a : Access) (c : Cont) : State :=
  { sFib { runs 1 [0, 0, 0, 0, 0, 0, 0, 0] [.null, .null, .null, .null] with status := if c = .none then .ready else .parked, cont := c, outs := 3 } with
    flight := [(4, a)], mem := [⟨memPa, 9⟩] }
def sGate (pr : Bool) : State := { sAcc { aGate with va := 0x4008 } (.access 4) with dies := [(0, { gw := { cache := [xl pr] } })] }
def sFar : State := { sAcc { aGate with va := 0x4008 } (.access 4) with dies := [(0, { gw := { cache := [{ xl true with pa := 2 ^ 45 }] } })] }
def sLate : State := { sAcc aLoad (.access 4) with tiles := [(0, { ptag := 1, mwin := [(0, (word (2 ^ 63 + 5 * 2 ^ 56), 0xFFFF000))] })] }

theorem wit_AccessEvents :
    ((sAcc aLoad (.access 4)).access 4 = some aLoad ∧ (sAcc aLoad (.access 4)).stopped aLoad.part = false ∧ aLoad.space ≤ 3 ∧ aLoad.pa = some memPa ∧
      aLoad.pieces = [] ∧ (sAcc aLoad (.access 4)).windowLate aLoad memPa = false ∧ (sAcc aLoad (.access 4)).readError memPa 8 = none) ∧
    ((sAcc aStore .none).access 4 = some aStore ∧ aStore.op = .store [1, 2, 3, 4, 5, 6, 7, 8] ∧ (sAcc aStore .none).errors = [] ∧ aStore.merged = [] ∧
      aStore.who.slot < 256 ∧ ((sAcc aStore .none).fib aStore.who).status ≠ .parked ∧ ((sAcc aStore .none).fib aStore.who).cont ≠ .accept 4) ∧
    ((sGate true).access 4 = some { aGate with va := 0x4008 } ∧ (sGate true).home fl.core 4 0x4008 = some (.gateway 0 0x4008) ∧ isService fl.core = false ∧
      (sGate true).cached 0 1 4 0x4008 = some (xl true) ∧ (xl true).pr = true ∧ (sGate true).windowBad (State.xlatPa 0 4 (xl true) 0x4008) 8 0 = false) ∧
    ((sGate false).cached 0 1 4 0x4008 = some (xl false) ∧ (xl false).pr = false) ∧
    ((sGate true).xlatHeld 0 4 0x4008 (xl true) = true ∧ (sGate true).xlatHeld 0 4 0x400F (xl true) = true ∧
      (sGate false).xlatHeld 0 4 0x4008 (xl false) = true ∧ (sGate false).xlatHeld 0 4 0x400F (xl false) = true) ∧
    (sFar.cached 0 1 4 0x4008 = some { xl true with pa := 2 ^ 45 } ∧ sFar.xlatHeld 0 4 0x4008 { xl true with pa := 2 ^ 45 } = false) ∧
    (aFault.fault = some (5, 7) ∧ (sAcc aFault (.access 4)).access 4 = some aFault ∧ ((sAcc aFault (.access 4)).fib fl).cont = .access 4) ∧
    (∀ op ∈ [((AccOp.load 2 3 : AccOp), 8), (.loadCap 1 true, 16), (.atomic (some 5) 1 2 3, 8)], let a := aRep op.1 op.2
      (sAcc a (.access 4)).access 4 = some a ∧ a.fault = none ∧ a.op = op.1 ∧ ((sAcc a (.access 4)).fib fl).cont = .access 4) := by decide

theorem wit_AccessEvents_window : sLate.access 4 = some aLoad ∧ aLoad.pa = some memPa ∧ sLate.windowLate aLoad memPa = true := by decide

def aFetch : Access := { accOf .fetch 1 0x1000 64 (some memPa) with reply := List.replicate 64 7, stage := .performed }
theorem wit_AccessEvents_fetch :
    (sAcc aFetch .fetch).flight.find? (fun b => b.2.who == fl && b.2.op == AccOp.fetch) = some (4, aFetch) ∧
    (sAcc aFetch .fetch).stopped aFetch.part = false ∧ ((sAcc aFetch .fetch).fib fl).cont = .fetch ∧ aFetch.fault = none := by decide

def rfl1 (reply : Bool) : RFlit := { reply, part := 1, dst := 0, ev := some (.busyExpiry fl), since := 5000 }
def sRes (rep req : Bool) : State :=
  { sFib (runs 1 [] []) with
    clock := 5001 - 1
    tiles := [(0, { ptag := 1, rbuf := (if rep then [((1, true), { flits := [rfl1 true] })] else []) ++ if req then [((2, false), { flits := [rfl1 false] })] else [] })] }
def sSlot0 : State := { sRes false true with clock := 5120 }
def mv1 : Move :=
  { who := fl, part := 1, trans := false, src := over' 1 all 0 0x1000, dst := over' 1 all 0x1000 0x1000, sa := 0, da := 0x1000, geom := 0, sem := 5, atRoot := false
    checking := false, checks := 0, xs := [], next := 0, left := 0, lostUnit := false, wait := 0 }
def sMoveDone (c : Nat) : State :=
  { sFib (runs 1 [] []) with moves := [(6, mv1)], cores := [(fl.core, { moves := [6] })], tiles := [(0, { ptag := 1, sems := [(5, (c, false))] })] }

theorem wit_ResidueAndMoveEvents :
    ((sRes false true).residueFree 0 4 = true ∧ (rfl1 false).req = none ∧ (rfl1 false).ev = some (.busyExpiry fl) ∧ (rfl1 false).wait = 0 ∧ (rfl1 false).part < 64 ∧ (rfl1 true).part < 64 ∧
      (rfl1 false).since = (sRes false true).clock ∧ (sRes false true).offers 0 4 false = [(2, rfl1 false)] ∧ (sRes false true).offers 0 4 true = []) ∧
    ((sRes true true).offers 0 4 true = [(1, rfl1 true)] ∧ (sRes true true).offers 0 4 false = [(2, rfl1 false)] ∧ ((sRes true true).robin 0 9).2 < 8) ∧
    sSlot0.residueFree 0 4 = false ∧
    (∀ c ∈ [0, 65535], (sMoveDone c).move 6 = some mv1 ∧ (∀ x ∈ (sMoveDone c).moves, x.2.checking = false) ∧ (sMoveDone c).semWaiters mv1.who.core = [] ∧
      ((sMoveDone c).fib mv1.who).status ≠ .parked ∧ ((sMoveDone c).sem mv1.who.core mv1.sem).1 = c) := by decide

/-! ## Witnesses: circuits, links, tasks -/

def circ1 (st : Nat) : Circuit :=
  { part := 1, cid := 7, cls := 0, state := st, slots := [20, 30], pend := [], lat := 9, wc := 3, start := 0, hops := [(0, 1, 5, mkEntry 4 1 0 0 7)]
    posns := [], armed := none, burst := none }
def creq (fn : Nat) : CircReq := { who := fl, part := 1, fn, a := 7, b := 0, block := [], tile := 0 }
def crec (y : Nat) : CRecord := { x := 0, y, tbl := 1, first := 1020, count := 3, stride := 3, entry := mkEntry 4 1 0 0 7 }
def comm (fn : Nat) : Commit :=
  { seq := 2, who := fl, part := 1, cid := 7, count := 1, fn, queue := [], sent := [], wc := 40, add := [], remove := [], arm := none }
def sIc (ic : Intercalator) (cs : List Circuit) : State :=
  { pack1 fl { runs 1 [0, 0, 0, 0, 0, 0, 0, 0] [] with status := .parked, cont := .circ 3 } with
    clock := 20 * 1024, pkg := { start := { phase := 2 }, ic, circuits := cs } }

theorem wit_CircuitEvents :
    ((sIc { queue := [creq 4] } [circ1 2]).pkg.ic.queue = creq 4 :: [] ∧ (creq 4).fn = 4 ∧
      (sIc { queue := [creq 4] } [circ1 2]).circuit 1 (field (creq 4).a 11 0) = some (circ1 2)) ∧
    (∀ fn ∈ [1, 2, 3], 1 ≤ (creq fn).fn ∧ (creq fn).fn ≤ 3 ∧ (sIc { queue := [creq fn] } []).circuit 1 (field (creq fn).a 11 0) = none) ∧
    ((sIc { active := some { comm 2 with queue := [(0, crec 1)] } } []).pkg.ic.active = some { comm 2 with queue := [(0, crec 1)] }) ∧
    ((sIc { commits := [comm 1] } [circ1 4]).pkg.ic.commits = [comm 1] ∧ (comm 1).fn = 1 ∧ (sIc { commits := [comm 1] } [circ1 4]).circuit 1 7 = some (circ1 4) ∧
      (comm 1).about (circ1 4) = true ∧ (sIc { commits := [comm 1] } []).circuit 1 7 = none) ∧
    ((sIc { results := [(fl, 5)] } []).pkg.ic.results.find? (fun z => z.1 == fl) = some (fl, 5) ∧ ((sIc { results := [(fl, 5)] } []).fib fl).cont = .circ 3) := by decide

def commF (y : Nat) : Commit := { comm 0 with sent := [(20 - (15 - y), 0, 0, [crec y])] }
def sFwd (y : Nat) : State := sIc { commits := [commF y] } []
theorem wit_CircuitEvents_forward : ∀ y : Nat, y = 1 ∨ y = 15 →
    (sFwd y).pkg.ic.active = none ∧ (sFwd y).pkg.ic.commits = [commF y] ∧ (commF y).sent = [((sFwd y).wheel - (15 - y), 0, 0, [crec y])] ∧
    15 - y ≤ (sFwd y).wheel ∧ 1 ≤ y ∧ y ≤ 15 ∧ [crec y] ≠ [] ∧ (∀ q ∈ [crec y], q.y = y) ∧ (sFwd y).dieOpen (tileDie (48 * y)) = true ∧
    (((sFwd y).tile (48 * y)).shadow.map fun st => st.recs.length).sum + [crec y].length ≤ 64 := by
  rintro y (rfl | rfl) <;> exact ⟨rfl, rfl, rfl, by decide, by decide, by decide, by decide, by decide, by decide, by decide⟩

def sStage : State :=
  { sIc { commits := [comm 0] } [circ1 1] with tiles := [(0, { ptag := 1, shadow := [⟨2, 0, [crec 0]⟩] })] }
def sArm : State := sIc {} [{ circ1 2 with armed := some (20, 4) }]
def cflit : CFlit := { data := 99, empty := false, miss := false, cid := 7, part := 1 }
/-- A flit from the west leaves tile 1 to the east. -/
def sFlit : State :=
  { sIc {} [circ1 2] with
    tiles := [(1, { ptag := 1, slots := [((1, 0), mkEntry 3 1 0 0 7)] })]
    pkg := { start := { phase := 2 }, circuits := [circ1 2], wires := [(1, 3, 20 * 1024, cflit)] } }

theorem wit_CircuitEvents_slots :
    (sStage.pkg.ic.commits = [comm 0] ∧ sStage.tiles = [(0, { ptag := 1, shadow := [⟨2, 0, [crec 0]⟩] })] ∧ (∀ q ∈ [crec 0], 48 * q.y + q.x = 0) ∧
      (comm 0).fn = 0 ∧ (comm 0).count = 1 ∧ (comm 0).remove = [] ∧ sStage.circuit 1 7 = some (circ1 1) ∧ (circ1 1).state = 1 ∧ (circ1 1).hops ≠ [] ∧
      (circ1 1).wc ≤ (comm 0).wc ∧
      ∀ q ∈ [crec 0], entryPtag q.entry = (comm 0).part ∧ entryCid q.entry = (comm 0).cid) ∧
    (sArm.circuit 1 7 = some { circ1 2 with armed := some (20, 4) } ∧ sArm.wheel = 20 ∧ sArm.slotNo = 0) ∧
    (sFlit.tiles.length = 1 ∧ sFlit.pkg.plinks = [] ∧ sFlit.entriesNow (sFlit.tile 1) = [(1, mkEntry 3 1 0 0 7)] ∧ entryLocal (mkEntry 3 1 0 0 7) = false ∧
      entrySrc (mkEntry 3 1 0 0 7) < 4 ∧ sFlit.pkg.wires = [(1, entrySrc (mkEntry 3 1 0 0 7), sFlit.clock, cflit)] ∧
      sFlit.linkOpen 1 (neighbour 1 1).1 = true ∧ 0 < (neighbour 1 1).2.2 ∧ State.bridgeOut 1 1 = none) := by decide +kernel

/-- Links: package link 3 (key number 115), the die edge link 0 between dies 0 and 1. -/
def sLnk (p : PLink) (x : LinkKey) (n : Nat) : State :=
  { pack1 fl (runs 1 [] []) with
    clock := 20 * 1024
    dies := [(0, { trust := { state := 4 }, spdm := { session := true } }), (1, { trust := { state := 4 } })]
    pkg := { start := { phase := 2 }, plinks := [(3, p)], links := [(n, x)] } }
def plUp (good bad : Nat) : PLink := { trained := true, lost := false, d := 9, good, bad }
def kSt (ws : Nat) : LinkKey := { secret := some 5, staged := some (2, ws, 77), ws := 3 }

theorem wit_LinkEvents :
    (sLnk (plUp 1 0) {} 0).pkg.circuits = [] ∧ ((sLnk (plUp 1 0) {} 0).plink 3).trained = true ∧ 48 < (-49 : Int).natAbs ∧ (32 : Int).natAbs ≤ 32 ∧
    ((sLnk (plUp 1 0) {} 0).plink 3).bad = 0 ∧ 1 ≤ ((sLnk (plUp 0 1) {} 0).plink 3).bad ∧ ((sLnk (plUp 1 0) {} 0).plink 3).failed = false ∧
    1 ≤ ((sLnk (plUp 1 0) {} 0).plink 3).good ∧ (linksOf 0).contains 0 = true ∧ (linksOf 0).contains 16 = false ∧
    ((sLnk {} {} 0).die 0).spdm.session = true ∧ ((sLnk {} {} 0).die 1).spdm.session = false ∧ (sLnk {} {} 0).wheel + 4 ≤ 24 ∧ 23 < (sLnk {} {} 0).wheel + 4 ∧ ((sLnk {} {} 0).link 0).closed = none ∧
    ((sLnk {} (kSt 20) 0).link 0).staged = some (2, 20, 77) ∧ 20 * 1024 = (sLnk {} (kSt 20) 0).clock ∧ (sLnk {} (kSt 20) 0).linkKeyed 0 = true ∧
    ((sLnk {} (kSt 20) 0).link 0).again = false ∧ ((sLnk {} (kSt 20) 16).link 16).staged = some (2, 20, 77) ∧ (sLnk {} (kSt 20) 16).linkKeyed 16 = false ∧
    (((sLnk {} (kSt 20) 0).link 0).ws + 1) * 1024 ≤ (sLnk {} (kSt 20) 0).clock ∧ ((sLnk {} (kSt 20) 0).link 0).staged.isSome = true ∧
    (sLnk (plUp 1 0) {} 115).linkCarries 115 = true := by decide

def sDieOpen : State :=
  { sLnk {} {} 0 with dies := [(0, { trust := { state := 3, wo := 20, fails := 1, sess := 255 } })] }
def sAuto : State :=
  { sLnk (plUp 1 0) { secret := some 5, ws := 3, epoch := 4 } 115 with clock := (3 + 2 ^ 21 - 4) * 1024 }

theorem wit_LinkEvents_keys :
    ((sDieOpen.die 0).trust.state = 3 ∧ (sDieOpen.die 0).trust.wo * 1024 = sDieOpen.clock) ∧
    (sAuto.linkKeyed 115 = true ∧ (sAuto.link 115).staged = none ∧ (sAuto.link 115).secret.isSome = true ∧
      sAuto.clock = ((sAuto.link 115).ws + 2 ^ 21 - 4) * 1024) := by decide

/-- A host's record: kernel 1, footprint of one tile's link cores, argument 2. -/
def foot1 : Nat := 1 * 2 ^ 21 + 1 * 2 ^ 10
def recBody (seq : Nat) : List Byte :=
  leBytes 4 seq ++ leBytes 1 2 ++ leBytes 1 0 ++ leBytes 1 1 ++ leBytes 1 0 ++ leBytes 8 4 ++ leBytes 8 6 ++ leBytes 8 foot1 ++ leBytes 8 2
    ++ leBytes 8 8 ++ leBytes 8 (2 ^ 63 + 2 ^ 61 + 4 * 2 ^ 56 + 0x1000) ++ leBytes 8 0x100 ++ leBytes 8 0 ++ leBytes 8 0 ++ leBytes 8 0 ++ leBytes 8 0
    ++ leBytes 8 0 ++ leBytes 8 0 ++ leBytes 8 0xCAFE ++ leBytes 8 0
def sub1 (seq : Nat) : Submission := { part := 1, who := none, die := 0, body := recBody seq, arg := .null, argGiven := false, d := 0 }
def sTab (l : List (Nat × Task)) (v : Vf) : State :=
  { pack1 fl (runs 1 [0, 0, 0, 0, 0, 0, 0, 0] []) with
    dies := [(0, { trust := { state := 4 }, tasks := l, nextFresh := 5 }), (1, { trust := { state := 4 } })]
    parts := [(1, { active := true, tab := [(0, 0), (1, 1)], shares := [(0, 8)], vf := v, ktab := [(1, over' 4 all 0x4000 0x1000)], atab := [(2, over' 4 all 0x8000 0x100)] })] }
def sSub (seq : Nat) : State := { sTab [] { busy := true, lastAcc := 9 } with subs := [(3, sub1 seq)] }
def codeT : Cap := over' 4 all 0x4000 0x1000
def task1 (st : TaskState) : Task :=
  { part := 1, host := true, seq := 10, ord := 3, kinds := 1, n := 1, code := codeT, entry := 0x4004, arg := .null, state := st, ctag := 0xCAFE }

def errorOf {ε α : Type} (e : Except ε α) : Option ε := match e with | .ok _ => none | .error x => some x
def sEnds : State := { sSub 10 with agenda := [(5000, .taskCompletion 0 7)] }
/-- The record of a fibre, which names no argument of a table (R97). -/
def subF : Submission := { sub1 0 with who := some fl, body := (recBody 0).take 32 ++ leBytes 16 0 ++ (recBody 0).drop 48 }
def sSubF (b : Submission) : State := { sSub 10 with subs := [(3, b)] }
theorem wit_TaskEvents_fibre :
    errorOf ((sSubF subF).recordCheck subF) = none ∧ (State.takeEntry ((sSubF subF).die subF.die)).isSome = true ∧ subF.who = some fl ∧ subF.answer = none ∧
    (errorOf ((sSubF { sub1 10 with who := some fl }).recordCheck { sub1 10 with who := some fl })).isSome = true := by decide +kernel

theorem wit_TaskEvents :
    (tfind (sSub 10).subs 3 = some (sub1 10) ∧ (sub1 10).answer = none ∧ (sSub 10).endsDue = false ∧ (sub1 10).who = none ∧ sEnds.endsDue = true) ∧
    tfind (sSub 10).subs 4 = none ∧
    (errorOf ((sSub 11).recordCheck (sub1 11)) = some 2 ∧ errorOf ((sSub 10).recordCheck (sub1 10)) = none) ∧
    (State.takeEntry ((sSub 10).die 0)).map (·.1) = some 5 := by decide +kernel

def sAns : State :=
  { sTab [] {} with
    fibres := [(fl, { runs 1 [0, 0, 0, 0, 0, 0, 0, 0] [] with status := .parked, cont := .taskq 4 })]
    subs := [(3, { sub1 10 with who := some fl, answer := some 8 })] }
def runT : Task := { task1 .running with tiles := [0], going := [⟨0, 0, 0⟩] }
def endT : Task := { task1 .running with tiles := [0] }
def vHeld (posting : Option Nat) : Vf := { held := [(0, 7), (0, 8)], cqen := true, cqbase := 0x10000, cqsize := 16, cqtail := 15, cqhead := 2, posting, cseq := 0xFFFFFFFF }
def xlHost : Xlat := { part := 1, space := 6, va := 0x10000, sz := 0, attr := 0, pr := true, pw := true, pa := 0x9000 }
def sPost (posting : Option Nat) : State :=
  let s := sTab [(7, { task1 .waitPost with status := 4 })] (vHeld posting)
  { s with dies := (6, { gw := { cache := [xlHost] } }) :: s.dies }

def sNoPage : State := sTab [(7, { task1 .waitPost with status := 4 })] (vHeld none)
def sFullQ : State := sTab [(7, { task1 .waitPost with status := 4 })] { vHeld none with cqtail := 1 }

theorem wit_TaskEvents_run :
    (tfind sAns.subs 3 = some { sub1 10 with who := some fl, answer := some 8 } ∧ (sAns.fib fl).cont = .taskq 4) ∧
    ((sTab [(7, task1 .queued)] {}).nextPlace 0 = some (7, task1 .queued, (0, 0), [0])) ∧
    ((tget {} ((sTab [(7, runT)] {}).die 0).tasks 7).going = [⟨0, 0, 0⟩] ∧ (sTab [(7, runT)] {}).freeSlot ⟨0, 0, 0⟩ 0 224 = some 1) ∧
    ((sTab [] {}).nextPlace 0 = none) ∧
    (tget {} ((sTab [(7, endT)] {}).die 0).tasks 7 = endT ∧ endT.state = .running ∧ endT.fibres = 0 ∧ endT.pendCores = [] ∧ endT.going = []) := by
  decide +kernel

theorem wit_CompletionEvents :
    (((sPost none).vf 1).held = (0, 7) :: [(0, 8)] ∧ ((sPost none).vf 1).cqen = true ∧ (sPost none).stopped 1 = false ∧ ((sPost none).vf 1).posting = none ∧
      State.cqFull ((sPost none).vf 1) = false ∧ ((sPost none).hostPa 1 (((sPost none).vf 1).cqbase.toNat + 32 * ((sPost none).vf 1).cqtail)).isSome = true ∧
      (sPost none).errors = [] ∧ Memory.wf (sPost none).mem = true) ∧
    ((sNoPage.vf 1).held = (0, 7) :: [(0, 8)] ∧ sNoPage.hostPa 1 ((sNoPage.vf 1).cqbase.toNat + 32 * (sNoPage.vf 1).cqtail) = none) ∧
    (State.cqFull (sFullQ.vf 1) = true ∧ (sFullQ.vf 1).posting = none ∧ (sTab [] {}).vf 1 = {}) ∧
    (((sPost (some 0x99)).vf 1).posting = some 0x99 ∧ (sPost (some 0x99)).errors = []) := by decide +kernel

def qry (ix : Nat) (poll : Bool) (answer : Option Word) : Query := { who := fl, part := 1, die := 0, ix, ord := 3, poll, answer }
def sQry (t : Task) (q : Query) : State :=
  { sTab [(7, t)] {} with
    fibres := [(fl, { runs 1 [0, 0, 0, 0, 0, 0, 0, 0] [] with status := .parked, cont := .task 4 3 })], queries := [(3, q)] }

theorem wit_CompletionEvents_query :
    (∀ t ∈ [task1 .done, task1 .waitPost, task1 .queued, task1 .running, { task1 .done with ord := 4 }],
      tfind (sQry t (qry 7 false none)).queries 3 = some (qry 7 false none) ∧ tfind ((sQry t (qry 7 false none)).die 0).tasks 7 = some t) ∧
    (tfind (sQry {} (qry 8 false none)).queries 3 = some (qry 8 false none) ∧ tfind ((sQry {} (qry 8 false none)).die 0).tasks 8 = none) ∧
    (let q := { qry 7 true none with part := 63 }
     tfind (sQry (task1 .done) q).queries 3 = some q ∧ 48 ≤ q.part ∧ tfind (sQry (task1 .done) q).queries 4 = none) ∧
    ((task1 .done).part ≠ 2 ∧ 2 < 48) ∧
    (tfind (sQry {} (qry 7 false (some 5))).queries 3 = some (qry 7 false (some 5)) ∧ ((sQry {} (qry 7 false (some 5))).fib fl).cont = .task 4 3) ∧
    (∀ st ∈ [TaskState.queued, .running], let w := word (7 * 2 ^ 32 + 3)
      tfind ((sTab [(7, task1 st)] {}).die 0).tasks (field w 43 32) = some (task1 st) ∧ field w 63 44 = 0 ∧ ((sTab [(7, task1 st)] {}).part 1).active = true ∧
      (task1 st).part = 1 ∧ (task1 st).ord = field w 31 0) ∧
    ((sTab [] { msiDefer := [2] }).vf 1).msiDefer.contains 2 = true ∧
    (let s := { sPost (some 0x99) with queries := [(3, { qry 7 false none with here := true })] }
     tfind s.queries 3 = some { qry 7 false none with here := true } ∧ (s.vf 1).posting = some 0x99 ∧ (s.vf 1).held = (0, 7) :: [(0, 8)] ∧
     (s.vf 1).cqen = true ∧ s.stopped 1 = false) ∧
    (sQry (task1 .waitPost) (qry 7 false none)).dieOpen 0 = true ∧
    (let s := { sQry (task1 .waitPost) (qry 7 false none) with dies := [(0, { tasks := [(7, task1 .waitPost)] })] }
     tfind s.queries 3 = some (qry 7 false none) ∧ tfind (s.die 0).tasks 7 = some (task1 .waitPost) ∧ s.dieOpen 0 = false) := by decide

/-! ## Witnesses: the host's registers, device registers, gateways -/

def sVf (v : Vf) (act : Bool) : State :=
  { pack1 fl (runs 1 [] []) with parts := [(1, { active := act, winBase := 0x10000, winLen := 0x10000, vf := v })] }
def vcq (size head : Nat) : Vf := { cqbase := 0x10000, cqsize := word size, cqhead := word head }

theorem wit_HostPortEvents :
    ((sVf {} true).vf 1).busy = false ∧ ((sVf { busy := true } true).vf 1).busy = true ∧ ((sVf {} true).vf 1).cqen = false ∧
    ((0x1F000 : Word).toNat % 4096 = 0 ∧ 0x10000 ≤ (0x1F000 : Word).toNat ∧ (0x1F000 : Word).toNat + 1 ≤ 0x10000 + 0x10000) ∧
    (0x1F800 : Word).toNat % 4096 ≠ 0 ∧ ¬ (0x20000 : Word).toNat + 1 ≤ 0x10000 + 0x10000 ∧ (4 ≤ 4 ∧ (16 : Word).toNat = 2 ^ 4) ∧
    (16 ≤ 16 ∧ (65536 : Word).toNat = 2 ^ 16) ∧
    (((sVf (vcq 16 15) true).vf 1).cqbase.toNat % 4096 = 0 ∧ 0x10000 + 32 * 16 ≤ 0x10000 + 0x10000 ∧
      ((sVf (vcq 16 15) true).vf 1).cqhead.toNat < ((sVf (vcq 16 15) true).vf 1).cqsize.toNat) ∧
    ((sVf (vcq 16 16) true).vf 1).cqsize.toNat ≤ ((sVf (vcq 16 16) true).vf 1).cqhead.toNat ∧ ((sVf { cqen := true } true).vf 1).cqen = true ∧
    (15 : Word).toNat < ((sVf (vcq 16 15) true).vf 1).cqsize.toNat ∧ ((sVf (vcq 16 15) true).vf 1).cqsize.toNat ≤ (16 : Word).toNat ∧
    ((sVf {} true).vf 1).txbusy = false ∧ ((sVf { txbusy := true, mbitail := 15, mbihead := 1 } true).vf 1).txbusy = true ∧
    (15 + 1) % 16 ≠ 1 ∧ (15 + 1) % 16 = ((sVf { txbusy := true, mbitail := 15, mbihead := 0 } true).vf 1).mbihead ∧
    ((sVf {} true).part 1).active = true ∧ ((sVf {} true).vf 1).mbrx.length < 16 ∧
    16 ≤ ((sVf { mbrx := List.replicate 16 [] } true).vf 1).mbrx.length ∧ ((sVf {} false).part 1).active = false := by decide

/-- One cluster, its trace unit, and the management core. -/
def sReg (cl : Cluster) (mgrun : Bool) : State :=
  { pack1 fl (runs 1 [] []) with
    clusters := [(2, cl)], dies := [(0, { granules := [(5, 1)], mwinDie := [(255, (7, 9))] })]
    pkg := { start := { phase := 2 }, mgcode := over' 7 all 0 0x1000, mgrun } }
/-- A claim of the trace memory in granule 5. -/
def claim : Word := word (1 + 5 * 2 ^ 40)

theorem wit_RegisterEvents :
    ((sReg {} false).part 1).active = true ∧ (63 : Word).toNat < 64 ∧ 64 ≤ (64 : Word).toNat ∧
    (field (word (2 ^ 63 + 5 * 2 ^ 53 + 0x5000)) 62 56 = 0 ∧ field (word (2 ^ 63 + 5 * 2 ^ 53 + 0x5000)) 11 0 = 0 ∧ field (word (2 ^ 63 + 5 * 2 ^ 53 + 0x5000)) 55 53 < 6) ∧
    6 ≤ field (word (6 * 2 ^ 53)) 55 53 ∧ field (word 1) 11 0 ≠ 0 ∧ (0x4000 ≤ 0x4FF0 ∧ 0x4FF0 < 0x5000 ∧ field (0x7000 : Word) 63 52 = 0) ∧
    (1000 ≤ field (1000 : Word) 15 0 ∧ field (3000 : Word) 15 0 ≤ 3000 ∧ field (999 : Word) 15 0 < 1000 ∧ 3000 < field (3001 : Word) 15 0) ∧
    (((sReg {} false).modPkg fun k => { k with start := { k.start with phase := 3 } }).pkg.start.phase = 3 ∧ (sReg {} false).pkg.start.phase ≠ 3) ∧
    ((1 : Word).toNat.testBit 0 = true ∧ (sReg {} false).pkg.mgrun = false ∧ (sReg {} true).pkg.mgrun = true) ∧
    (claim.toNat.testBit 0 = true ∧ claim.toNat.testBit 61 = false ∧ ((sReg {} false).cluster 2).trOwner = 0 ∧
      tfind ((sReg {} false).die 0).granules (field claim 46 40) = some 1) ∧
    (((sReg { trTake := some claim, trOwner := 1 } false).cluster 2).trTake = some claim ∧ ((sReg { trTake := some claim, trOwner := 1 } false).cluster 2).trOwner = 1) := by
  decide

/-- A page table of three levels in the HBM of die 0, whose one leaf is the page of 1 GiB at 0. -/
def tables (leaf : Nat) : List Host.Cell :=
  setBytes (setBytes (setBytes [] (paOf 4 0 0x100000) (leBytes 8 (2 ^ 63 + 2 ^ 62 + 0x101000))) (paOf 4 0 0x101000) (leBytes 8 (2 ^ 63 + 2 ^ 62 + 0x102000)))
    (paOf 4 0 0x102000) (leBytes 8 leaf)
def leaf1 : Nat := 2 ^ 63 + 9 * 2 ^ 58 + 2 ^ 55 + 0x40000000
def walk1 (owed : Option Nat) : Walk :=
  { id := 3, part := 1, space := 4, va := 5, root := word (2 ^ 63 + 0x100000), waiters := [4], running := true, owed }
def aWalk : Access := { accOf (.load 2 3) 4 0x5008 8 none with atRoot := true, stage := .walking }
def xWalk : Xlat := { part := 1, space := 4, va := 0, sz := 9, attr := 0, pr := true, pw := false, pa := 0x40000000 }
def sWalkGw (leaf : Nat) (owed : Option Nat) : State :=
  { sAcc aWalk (.access 4) with mem := tables leaf, dies := [(0, { trust := { state := 4 }, gw := { walks := [walk1 owed] } })] }

theorem wit_GatewayEvents_walk :
    (∀ o ∈ [none, some 3, some 0], let s := sWalkGw leaf1 o
      s.tablesOpen 0 (walk1 o).root = true ∧ (s.die 0).gw.walks = [walk1 o] ∧ (walk1 o).id = 3 ∧ (walk1 o).running = true ∧ (walk1 o).waiters = [4] ∧ s.stopped (walk1 o).part = false) ∧
    ((walk1 none).owed = none ∧ (walk1 none).root.toNat.testBit 63 = true ∧
      (sWalkGw leaf1 none).walkReads ((walk1 none).va * 4096) (field (walk1 none).root 55 53) 4 (field (walk1 none).root 52 12 * 4096) ≠ 0) ∧
    (sWalkGw leaf1 (some 0)).access 4 = some aWalk ∧ aWalk.op = .load 2 3 ∧ aWalk.stage = .walking ∧ aWalk.atRoot = true ∧ isService aWalk.who.core = false ∧
    (sWalkGw leaf1 (some 0)).home aWalk.who.core 4 aWalk.va = some (.gateway 0 0x5008) ∧
    (sWalkGw leaf1 (some 0)).walkUnder (walk1 none).root 0 1 4 ((walk1 none).va * 4096) = some xWalk ∧
    (sWalkGw leaf1 (some 0)).xlatHeld 0 4 0x5008 xWalk = true ∧ (sWalkGw leaf1 (some 0)).xlatHeld 0 4 0x500F xWalk = true ∧ xWalk.pr = true ∧ xWalk.va ≤ 0x5008 ∧ 0x5008 < xWalk.va + pageBytes xWalk.sz ∧
    (sWalkGw 0 (some 0)).walkUnder (walk1 none).root 0 1 4 ((walk1 none).va * 4096) = none := by decide +kernel

def aServe : Access := { accOf (.load 2 3) 4 0x5008 8 (some (paOf 4 0 0x40005008)) with stage := .queued, due := 4990 }
def sServe : State := { sAcc aServe (.access 4) with dies := [(0, { trust := { state := 4 }, gw := { queue := [(4, 0)] } })] }
/-- INVCMD for partition 1, space 4, pages of 4 KiB. -/
def inv : Word := word (1 * 2 ^ 56 + 4 * 2 ^ 52)
def sInv (g : Gateway) (l : List (Nat × Access)) : State := { pack1 fl (runs 1 [] []) with flight := l, dies := [(0, { gw := g })] }
def cached1 : Gateway := { cache := [xl true, { xl true with va := 0x8000 }], invva := 0x4000 }

theorem wit_GatewayEvents :
    (let s := { sWalkGw leaf1 none with dies := [(0, { trust := { state := 1 }, gw := { walks := [walk1 none] } })] }
     s.tablesOpen 1 (walk1 none).root = false ∧ s.access 4 = some aWalk ∧ aWalk.op = .load 2 3) ∧
    ((sServe.die 0).gw.saves = [] ∧ (sServe.die 0).gw.queue = [(4, 0)] ∧ tget 0 (sServe.die 0).gw.paid 4 = 0 ∧ sServe.access 4 = some aServe ∧ aServe.part < 48 ∧ sServe.stopped aServe.part = false ∧ aServe.pieces = [] ∧
      sServe.windowLate aServe (paOf 4 0 0x40005008) = false ∧ sServe.readError (paOf 4 0 0x40005008) 8 = none ∧ serviceUnits aServe ≤ 48 ∧
      sServe.home aServe.who.core 4 aServe.va = some (.gateway 0 0x5008)) ∧
    (4 ≤ field inv 55 52 ∧ field inv 55 52 ≤ 6 ∧ field inv 51 48 ≤ 9 ∧ ((sInv cached1 []).die 0).gw.done = true ∧
      (sInv cached1 []).usersOf 0 (field inv 61 56) 4 0x4000 4096 = [] ∧ (sInv cached1 []).usersOf 0 (field inv 61 56) 4 0 (2 ^ 56) = [] ∧
      (sInv cached1 [(4, aServe)]).usersOf 0 (field inv 61 56) 4 0 (2 ^ 56) ≠ []) ∧
    (field (0 : Word) 55 52 < 4 ∧ 6 < field (word (7 * 2 ^ 52)) 55 52) ∧
    (((sInv { cached1 with done := false } []).die 0).gw.done = false ∧ ((sInv { cached1 with done := false } []).die 0).gw.invWait = [] ∧
      State.heldInv 0 ((sInv { cached1 with done := false } []).die 0).gw.invHeld = none ∧
      ((sInv { cached1 with done := false } []).die 0).gw.invDisp = []) ∧
    ((State.heldInv 0 ((sInv { cached1 with done := false, invHeld := [inv] } []).die 0).gw.invHeld).isSome = true ∧ 9 < field (word (4 * 2 ^ 52 + 10 * 2 ^ 48)) 51 48) ∧
    ((sInv { cached1 with done := false, invWait := [4] } []).die 0).gw.invWait ≠ [] := by decide

/-! ## Witnesses: stops, resets, reconfiguration -/

def gsWord (p w : Nat) : Word := word (p * 2 ^ 56 + w)
/-- Partition 1 in a GSSTAT state, with its context areas in place or not. -/
def sGs (gs : Nat) (areas : Bool) : State :=
  let s := pack1 fl (runs 1 [1, 2] [])
  { s with
    tiles := [(0, { ptag := 1, rbuf := [((1, false), { flits := [rfl1 false, { rfl1 false with part := 2 }] })] }), (1, { ptag := 1 })]
    parts := [(1, { active := true, tab := [(0, 0), (1, 1)], gs, stopW := 2, resumeW := 9, heldEv := [(5001, .busyExpiry fl)], deferred := [] })]
    dies := [(0, { trust := { state := 4 }, tasks := [(3, { part := 1, state := .running })]
                   gw := { cache := [{ part := 1, space := 4, va := 0, sz := 9, attr := 0, pr := true, pw := true, pa := 0 }] }
                   ctxbase := if areas then [(1, word (2 ^ 63 + 0x100000))] else [] })]
    pkg := { start := { phase := 2 }, circuits := [circ1 2] } }

theorem wit_SwitchEvents :
    (field (gsWord 1 8) 61 56 = 1 ∧ field (gsWord 1 8) 55 48 = 0 ∧ field (gsWord 1 8) 47 0 = 8 ∧ (sGs 0 true).wheel = 4) ∧
    (((sGs 1 true).part 1).gs ≠ 0 ∧ ((sGs 0 true).part 1).gs = 0 ∧ field (gsWord 1 7) 47 0 < (sGs 0 true).wheel + 4) ∧
    (∃ d ∈ (sGs 0 false).diesOf 1, (tget 0 ((sGs 0 false).die d).ctxbase 1).toNat.testBit 63 = false) ∧
    (∀ d ∈ (sGs 0 true).diesOf 1, (tget 0 ((sGs 0 true).die d).ctxbase 1).toNat.testBit 63 = true) ∧
    (((sGs 2 true).part 1).gs ≠ 3 ∧ ((sGs 3 true).part 1).gs = 3 ∧ 48 ≤ field (gsWord 48 8) 61 56) ∧
    (((sGs 1 true).part 1).gs = 1 ∧ ((sGs 2 true).part 1).gs = 2 ∧ (sGs 2 true).isDue (.partitionLost 1) = false) ∧
    (((sGs 4 true).part 1).gs = 4 ∧ ((sGs 5 true).part 1).gs = 5 ∧ ((sGs 5 true).part 1).staged = []) := by decide +kernel

/-- A block write of a stopped partition that waits for the resume. -/
def aLane : Access := accOf (.laneWrite 2 (List.replicate 32 7)) 1 0x2000 32 (some memPa)
def sStaged : State :=
  { sGs 5 true with
    flight := [(4, aLane)], parts := [(1, { active := true, tab := [(0, 0), (1, 1)], gs := 5, stopW := 2, resumeW := 9, staged := [4] })] }
theorem wit_SwitchEvents_staged :
    (sStaged.part 1).gs = 5 ∧ (sStaged.part 1).staged = [4] ∧ sStaged.access 4 = some aLane ∧ aLane.stage ≠ .performed ∧ aLane.pieces = [] ∧
    aLane.space ≤ 3 ∧ aLane.pa = some memPa ∧ sStaged.windowLate aLane memPa = false ∧ sStaged.errors = [] ∧ Memory.wf sStaged.mem = true := by
  decide +kernel

def PageThere (s : State) (a : Nat) : Bool := match s.cached 0 1 4 a with | some x => x.pw | none => false
theorem wit_SwitchEvents_save :
    (sGs 2 true).diesOf 1 = [0] ∧ ∀ u ∈ (sGs 2 true).saveUnits 1 0, ∀ i, i < u.2.2 / 4096 →
      PageThere (sGs 2 true) (field (tget 0 ((sGs 2 true).die 0).ctxbase 1) 52 12 * 4096 + u.2.1 + 4096 * i) = true := by decide +kernel

def sDie (st : Nat) : State :=
  { pack1 fl (runs 1 [] []) with
    dies := [(0, { trust := { state := st, reason := 2, fails := 2 }, gw := { cache := [xl true, { xl true with va := 0x8000 }, { xl true with va := 0xA000 }] } })]
    cores := [(fl.core, { fpst := 3, lease := some 0 })], gangs := [(0, gang1)] }

theorem wit_ResetEvents :
    (1 ≤ ((sDie 1).die 0).trust.state ∧ ((sDie 4).die 0).trust.state ≤ 4 ∧ 2 ≤ ((sDie 4).die 0).trust.state) ∧
    ((sDie 4).flight = [] ∧ (sDie 4).moves = [] ∧ (sDie 4).messages = [] ∧ (sDie 4).walkers = [] ∧ (sDie 4).pkg.circuits = [] ∧
      (sDie 4).flitsAt (State.nodeOn 0) = [] ∧ (sDie 4).unreplied 0 = []) ∧
    (((sDie 0).die 0).trust.state = 0 ∧ ((sDie 5).die 0).trust.state = 5) ∧
    (((sDie 4).fib fl).status ≠ .free ∧ ((sDie 4).core fl.core).lease = some 0 ∧ ((sDie 4).fib ⟨fl.core, 0⟩).status ≠ .free ∧
      ((sDie 4).fib ⟨fl.core, 0⟩).pendFault = none) ∧
    tfind ((sDie 4).tile 0).slots (1, 2) = none := by decide

def rcHead (m : Nat) : List Byte := leBytes 2 m ++ leBytes 2 1 ++ leBytes 4 0xABCD ++ List.replicate 24 0
/-- RESIDUE of partition 1 to a share. -/
def rcRes (share : Nat) : List Byte := [7, 0, 1, 0, BitVec.ofNat 8 share] ++ List.replicate 27 0
def sRc (rc : Reconf) (share : Nat) : State :=
  let s := pack1 fl (runs 1 [] [])
  { s with pkg := { start := { phase := 2 }, rc }, mem := setBytes [] (paOf 6 0 0x1000) (rcHead 1 ++ rcRes share) }
def resE : RcEntry := { op := 7, defer := false, p := 1, data := [5] ++ List.replicate 27 0 }
/-- ADD_TILE of tile 2 as logical tile 9. -/
def addE : RcEntry := { op := 3, defer := false, p := 1, data := [2, 0, 9, 0] ++ List.replicate 24 0 }
def rcU (s : State) : State := s.modPkg fun k => { k with rc := { k.rc with tag := 0xABCD } }
def rcRun (s : State) : Except (Nat × Nat) (List RcEntry) := State.rcCheck (rcU s) [s.readBytes (paOf 6 0 0x1020) 32] 0 ⟨rcU s, rcU s, rcU s⟩

theorem wit_ResetEvents_lists :
    ((sRc { busy := true } 5).pkg.rc.busy = true ∧ (sRc { addr := 0x1020 } 5).pkg.rc.addr.toNat % 64 ≠ 0 ∧ (sRc {} 5).pkg.start.warmWait = false) ∧
    ((sRc { addr := 0x1000 } 5).pkg.rc.busy = false ∧ (0x1000 : Word).toNat % 64 = 0 ∧ (sRc { addr := 0x1000 } 5).readBytes (paOf 6 0 0x1000) 32 = rcHead 1 ∧
      sliceNat (rcHead 1) 0 2 = 1 ∧ sliceNat (rcHead 1) 2 2 = 1 ∧ (∀ x ∈ (rcHead 1).drop 8, x = 0) ∧ ((sRc { addr := 0x1000 } 5).parts.flatMap fun p : Nat × Part => p.2.deferred) = []) ∧
    (errorOf (rcRun (sRc { addr := 0x1000 } 5)) = none ∧ (errorOf (rcRun (sRc { addr := 0x1000 } 0))).isSome = true) ∧
    (resE.op = 7 ∧ resE.wait = false ∧ (sRc { busy := true, list := [resE] } 5).pkg.rc.list = [resE] ∧ addE.op = 3 ∧ addE.wait = false ∧
      (sRc { busy := true, list := [resE] } 5).flrRuns = false ∧ ((sRc { busy := true } 5).part resE.p).deferred = [] ∧ ({ resE with wait := true } : RcEntry).wait = true) ∧
    ((sRc { busy := true } 5).modPkg fun k => { k with start := { k.start with phase := 3 } }).pkg.start.phase = 3 ∧ (sRc {} 5).pkg.start.phase ≠ 3 := by decide +kernel

def sDefer (run : Bool) (flr : Nat) (busy : Bool) (l : List RcEntry) : State :=
  let s := sRc { busy } 5
  { s with parts := [(1, { active := true, tab := [(0, 0)], deferred := l, flr })]
           dies := [(0, { trust := { state := 4 }, tasks := [(3, { part := 1, state := if run then .running else .done })] })] }

theorem wit_ResetEvents_waiting :
    (sDefer false 2 true []).flrRuns = true ∧ (sDefer false 2 true []).pkg.rc.busy = true := by decide

theorem wit_ResetEvents_deferred :
    (((sDefer false 0 false [resE]).parts.flatMap fun p : Nat × Part => p.2.deferred) = [resE] ∧ ((sDefer false 0 false [resE]).part 1).deferred = [resE] ∧ resE.p = 1 ∧ (∀ k, k < 6 → (sDefer false 0 false [resE]).boundary 1 k = true)) ∧
    (sDefer true 0 false [resE]).boundary 1 0 = false ∧ ((sDefer false 0 false []).part 1).flr = 0 ∧
    (((sDefer false 1 true []).part 1).flr = 1 ∧ (sDefer false 1 true []).pkg.rc.busy = true) ∧
    (((sDefer false 1 false []).part 1).flr = 1 ∧ (sDefer false 1 false []).pkg.rc.busy = false ∧ ((sDefer false 1 false []).part 1).deferred = []) ∧
    ((sDefer false 2 false []).part 1).flr = 2 := by decide

/-! ## Witnesses: trust, power, meters -/

def sTrust (tr : Trust) (phase : Nat) : State := { pack1 fl (runs 1 [] []) with dies := [(0, { trust := tr })], pkg := { start := { phase } } }

theorem wit_AttestationEvents :
    (((sTrust {} 1).die 0).trust.state = 0 ∧ (sTrust {} 1).pkg.start.phase ≠ 3) ∧
    (((sTrust { state := 1, retry := true } 1).die 0).trust.state = 1 ∧ ((sTrust { state := 1, retry := true } 1).die 0).trust.retry = true ∧
      (sTrust { state := 1, retry := true } 1).pkg.start.phase ≠ 0 ∧ (sTrust { state := 1, retry := true } 1).pkg.start.phase ≠ 3) ∧
    (∀ st ∈ [3, 8, 10], ((sTrust { state := 2, step := st } 1).die 0).trust.state = 2 ∧ ((sTrust { state := 2, step := st } 1).die 0).trust.step = st ∧
      ((sTrust { state := 2, step := st } 1).die 0).trust.late = 0 ∧ Memory.wf (sTrust { state := 2, step := st } 1).mem = true) ∧
    (sTrust { state := 1, retry := true } 1).startFailed = false ∧ 0 < ((sTrust { state := 2, late := 1 } 1).die 0).trust.late ∧
    (sTrust { state := 2, deadline := 5000 } 1).clock ≤ ((sTrust { state := 2, deadline := 5000 } 1).die 0).trust.deadline ∧
    (((sTrust { state := 2, busies := 15 } 1).die 0).trust.busies < 16 ∧ 16 ≤ ((sTrust { state := 2, busies := 16 } 1).die 0).trust.busies) ∧
    ((sTrust { state := 2, deadline := 4999 } 1).die 0).trust.deadline < (sTrust { state := 2 } 1).clock ∧ ((sTrust { state := 3 } 1).die 0).trust.state ≠ 2 := by
  decide

/-- A request of so many bytes that begins with version, code and two parameter bytes. -/
def req (ver code p1 p2 n : Nat) (l : List Byte) : List Byte :=
  let b := [BitVec.ofNat 8 ver, BitVec.ofNat 8 code, BitVec.ofNat 8 p1, BitVec.ofNat 8 p2] ++ l
  b ++ List.replicate (n - b.length) 0
def sSpdm (st : Nat) (hs : Bool) (q : List Byte) : State :=
  { pack1 fl (runs 1 [] []) with
    dies := [(0, { trust := { state := 2 }, spdm := { state := st, handshake := hs } })]
    pkg := { start := { phase := 2 }, spdm := { state := st }, doe := { s0 := spdmObject q } } }
def spdmReqs : List (Nat × List Byte) :=
  [(0, req 0x10 0x84 0 0 4 []), (3, req 0x10 0x84 0 0 4 []), (1, req 0x12 0xE1 0 0 20 []), (2, req 0x12 0xE3 0 0 32 [32, 0]), (3, req 0x12 0x81 0 0 4 []),
   (3, req 0x12 0x82 0 0 8 [0, 0, 64, 0]), (3, req 0x12 0x83 0 0 36 []), (3, req 0x12 0xE0 0 0xFF 4 []), (3, req 0x12 0xE0 0 0 4 []), (1, req 0x11 0xE1 0 0 20 []), (0, req 0x12 0xE1 0 0 20 [])]

theorem wit_SpdmRequests : ∀ r ∈ [0, 6], ∀ x ∈ spdmReqs, let s := sSpdm x.1 false x.2
    s.spdmHeard r x.2 = true ∧ s.pkg.doe.s1 = [] ∧ (s.spdm r).state = x.1 ∧ s.noEntropy r = false := by decide

theorem wit_SpdmRequests_fields :
    (∀ x ∈ [(req 0x10 0x84 0 0 4 [], 1), (req 0x12 0xE1 0 0 20 [], 5), (req 0x12 0xE3 0 0 32 [32, 0], 8), (req 0x12 0x81 0 0 4 [], 1),
      (req 0x12 0x82 0 0 8 [0, 0, 64, 0], 2), (req 0x12 0x83 0 0 36 [], 9), (req 0x12 0xE0 0 0xFF 4 [], 1)], ceilDiv x.1.length 4 = x.2) ∧
    32 ≤ sliceNat (req 0x12 0xE3 0 0 32 [32, 0]) 4 2 ∧ (State.measBlocks 6 0xFF).isSome = true ∧ (State.measBlocks 0 0).isSome = true ∧
    (∀ hs ∈ [true, false], let s := sSpdm 3 hs (req 0x12 0xE5 0 0 36 [])
      s.spdmHeard 0 (req 0x12 0xE5 0 0 36 []) = true ∧ (s.spdm 0).handshake = hs) ∧
    (sSpdm 3 false (req 0x12 0xE4 0 0 600 [])).spdmHeard 0 (req 0x12 0xE4 0 0 600 []) = true := by decide

def doeObj (n : Nat) : List (BitVec 32) := [0x0101AB, BitVec.ofNat 32 n] ++ List.replicate (n - 2) 5
def sDoe (q : Doe) (phase : Nat) : State :=
  { pack1 fl (runs 1 [] []) with
    dies := [(0, { trust := { state := 4 }, allot := 100, spentTok := 95, hot := 1 }), (1, { allot := 100, spentTok := 100 })], pkg := { start := { phase }, doe := q } }

theorem wit_DoeAndPowerEvents :
    (sDoe {} 2).pkg.doe.held = none ∧ ((sDoe {} 2).core .root).strmWait = [] ∧ (sDoe { held := some (doeObj 3) } 2).pkg.doe.held = some (doeObj 3) ∧
    (∀ n ∈ [3, 1024], (lget 0 (doeObj n) 0).toNat % 2 ^ 24 = 0x0101AB ∧ 3 ≤ (doeObj n).length ∧ (doeObj n).length ≤ 1024 ∧
      (lget 0 (doeObj n) 1).toNat % 2 ^ 18 = (doeObj n).length) ∧
    (sDoe { s0 := List.replicate 1021 0 } 2).pkg.doe.s0.length + 3 ≤ 1024 ∧ 1024 < (sDoe { s0 := List.replicate 1022 0 } 2).pkg.doe.s0.length + 3 ∧
    (sDoe {} 2).pkg.start.phase ≠ 0 ∧ (sDoe {} 2).pkg.start.phase ≠ 3 ∧ (sDoe {} 0).pkg.start.phase = 0 ∧ (sDoe {} 3).pkg.start.phase = 3 := by decide +kernel

theorem wit_DoeAndPowerEvents_wfe (q : Doe) : ∀ f : FibreRef, f.core = .root → ∀ b m, ((sDoe q 2).fib f).cont ≠ .wfe b m := by
  intro f hf b m
  have h : (sDoe q 2).fib f = {} := by
    simp only [sDoe, pack1, State.fib, tget]
    have : ((fl, runs 1 [] []).1 == f) = false := by
      rcases f with ⟨c, n⟩
      subst hf
      rfl
    simp_all
  rw [h]
  simp

/-! ## Witnesses: metering requests -/

theorem lget_pad (l : List Byte) (n i : Nat) : lget 0 (l ++ List.replicate n 0) i = lget 0 l i := by
  induction l generalizing i with
  | nil =>
    induction n generalizing i with
    | zero => rfl
    | succ n ih => cases i with
      | zero => rfl
      | succ i => exact ih i
  | cons x l ih => cases i with
    | zero => rfl
    | succ i => exact ih i
theorem lget_past (l : List Byte) (i : Nat) (h : l.length ≤ i) : lget 0 l i = 0 := by
  induction l generalizing i with
  | nil => rfl
  | cons x l ih => cases i with
    | zero => simp at h
    | succ i => exact ih i (by simpa using h)
theorem front_any (u : Nat → Bool) (l : List Byte) (n m : Nat)
    (h : ((List.range l.length).any fun i => !u i && lget 0 l i != 0) = false) :
    ((List.range m).any fun i => !u i && lget 0 (l ++ List.replicate n 0) i != 0) = false := by
  rw [List.any_eq_false] at h ⊢
  intro i _
  rw [lget_pad]
  by_cases hi : i < l.length
  · exact h i (List.mem_range.mpr hi)
  · simp only [lget_past l i (Nat.le_of_not_lt hi)]
    simp

/-- A request block (R324): its code, flags, meter, two table indices, an address or region, a length. -/
def front (code flags n ks as v len : Nat) : List Byte :=
  leBytes 1 code ++ leBytes 1 flags ++ leBytes 2 n ++ leBytes 2 ks ++ leBytes 2 as ++ leBytes 8 0 ++ leBytes 8 v ++ leBytes 8 len
def blk (code flags n ks as v len : Nat) : List Byte := front code flags n ks as v len ++ List.replicate 736 0

theorem blockBad_front {code n : Nat} {l : List Byte}
    (h : ((List.range l.length).any fun i => !((usedSpans code).any fun u => decide (u.1 ≤ i) && decide (i < u.1 + u.2)) && lget 0 l i != 0) = false)
    (k : let b := l ++ List.replicate n 0; (decide (3 ≤ code) && (sliceNat b 2 2 == 0 || decide (4095 < sliceNat b 2 2)) ||
      ((code == 1 || code == 2 || code == 4) && decide (255 < sliceNat b 4 2)) ||
      (code == 4 && (decide (63 < sliceNat b 6 2) || decide (1 < sliceNat b 1 1))) || code == 0 || decide (9 < code)) = false) :
    blockBad code (l ++ List.replicate n 0) = false := by
  simp only [blockBad, front_any _ _ _ _ h]
  simp only [Bool.or_eq_false_iff] at k ⊢
  exact ⟨⟨⟨⟨⟨k.1.2, k.2⟩, trivial⟩, k.1.1.1.1⟩, k.1.1.1.2⟩, k.1.1.2⟩
def mreq (b : List Byte) (wn : Option Nat) (answer : Option Word) : MtReq :=
  { id := 3, who := fl, part := 1, cap := over' 1 all 0x4000 0x2000, addr := 0x4000, d := 2, block := b, wn, atRoot := true, answer }
def kcap : Cap := Cap.spanning 2 0 1 (2 ^ Cap.permR + 2 ^ Cap.permX + 2 ^ Cap.permG) (4095 * 2 ^ 20 + 0x3000) 4096
def sMt (r : MtReq) (m : Meter) (mem : List Host.Cell) : State :=
  { pack1 fl { runs 1 [0, 0, 0, 0, 0, 0, 0, 0] [] with status := .parked, cont := .mtrq 2 3 } with
    mem, dies := [(0, { trust := { state := 4 }, granules := [] })]
    parts := [(1, { active := true, tab := [(0, 0), (1, 1)], ktab := [(1, kcap)], kernels := [(kcap, [7])] })]
    pkg := { start := { phase := 2 }, meters := [(7, m)], mtrq := [r] } }
def mOpen : Meter := { isOpen := true, owner := some 1, seq := 5, count := 9 }
def isOk {ε α : Type} (e : Except ε α) : Bool := match e with | .ok _ => true | .error _ => false

theorem wit_MeterEvents :
    (∀ w ∈ [none, some 9], let s := sMt (mreq (blk 9 0 7 0 0 0 0) w none) mOpen []
      s.mtrqFind 3 = some (mreq (blk 9 0 7 0 0 0 0) w none) ∧ s.mtrqHead = some (mreq (blk 9 0 7 0 0 0 0) w none)) ∧
    (let s := sMt (mreq [] none (some 77)) mOpen [];
      s.mtrqFind 3 = some (mreq [] none (some 77)) ∧ (s.fib fl).cont = .mtrq 2 3) ∧
    blockBad 9 (blk 9 0 0 0 0 0 0) = true := by decide +kernel

theorem wit_MeterEvents_blocks :
    blockBad 1 (blk 1 0 0 1 0 0 0) = false ∧ blockBad 2 (blk 2 0 0 1 0 0 0) = false ∧ blockBad 3 (blk 3 0 7 0 0 0 0) = false ∧ blockBad 4 (blk 4 0 7 1 2 (2 ^ 56 + 0x8000) 0x2000) = false ∧ blockBad 5 (blk 5 0 7 0 0 0 0) = false ∧ blockBad 6 (blk 6 0 7 0 0 0 0) = false ∧ blockBad 7 (blk 7 0 7 0 0 0 0) = false ∧ blockBad 8 (blk 8 0 7 0 0 0 0) = false ∧ blockBad 9 (blk 9 0 4095 0 0 0 0) = false := by
  refine ⟨?_, ?_, ?_, ?_, ?_, ?_, ?_, ?_, ?_⟩ <;> exact blockBad_front (by decide) (by decide)

theorem wit_MeterEvents_states :
    let s := sMt (mreq (blk 5 0 7 0 0 0 0) none none) mOpen []
    (s.meter 7).isOpen = true ∧ s.meterOpen 7 = true ∧ (s.meter 7).owner = some 1 ∧ s.othersInFlight (mreq (blk 5 0 7 0 0 0 0) none none) = false ∧
    (let u := sMt (mreq (blk 3 0 7 0 0 0 0) none none) {} [];
      (u.meter 7).isOpen = false ∧ (u.meter 7).owner = none ∧ u.meterOpen 7 = false) ∧
    (let u := sMt (mreq (blk 8 0 7 0 0 0 0) none none) { owner := some 1 } [];
      (u.meter 7).isOpen = false ∧ (u.meter 7).owner = some 1) ∧
    (tfind (s.part 1).ktab 1 = some kcap ∧ kcap.tag = true ∧ kcap.sealOf = 2 ∧ tfind (s.part 1).ktab 2 = none) ∧
    (∀ x ∈ s.dies, x.2.sums = []) := by decide

theorem wit_MeterEvents_grant :
    let s := sMt (mreq (blk 4 0 7 1 2 (2 ^ 56 + 0x8000) 0x2000) none none) mOpen []
    let k := Cap.spanning 0 7 1 (2 ^ Cap.permR + 2 ^ Cap.permO + 2 ^ Cap.permG) 0x8000 0x2000
    baseBad 1 0x8000 = false ∧ 0x8000 + 0x2000 ≤ spaceEnd 1 ∧ k.bounds = ((0x8000 : Int), ((0x8000 + 0x2000 : Nat) : Int)) ∧
    (tget .null (s.part 1).ktab 1).tag = true ∧ (s.kernelMeters 1 (tget .null (s.part 1).ktab 1)).contains 7 = true ∧
    (match s.physPieces fl.core 1 1 0x8000 0x2000 true with | .ok ps => (s.coverRuns 7 (State.runsOf ps)).isSome | .error _ => false) = true := by decide +kernel

/-- A kernel image of four bytes at 0x4000 of tile 0: its manifest, signed with the prime 2^3072 - 47 as modulus, the key, the code. -/
def imgCode : List Byte := [1, 2, 3, 4]
def imgHash : List Byte := [159, 100, 167, 71, 225, 185, 127, 19, 31, 171, 182, 180, 71, 41, 108, 155, 111, 2, 1, 231, 159, 179, 197, 53, 110, 108, 119, 232, 155, 106, 128, 106]
def imgKeyHash : List Byte := [192, 183, 100, 71, 241, 130, 199, 29, 252, 149, 251, 106, 241, 198, 249, 97, 0, 137, 249, 248, 141, 172, 34, 59, 199, 79, 127, 206, 93, 27, 185, 96]
def manHash : List Byte := [130, 140, 143, 99, 143, 139, 96, 116, 185, 55, 74, 87, 171, 74, 28, 75, 96, 17, 237, 107, 200, 212, 124, 106, 243, 165, 45, 234, 123, 41, 8, 212]
def imgKey : List Byte := beBytes 384 (2 ^ 3072 - 47)
def imgSig : Nat :=
  0x7b2597390482f425504dbd76b13baf7098949f6462130374a51ca9ee04f0eed38b1576c9255092c7feb165bfb1e0179b651e89497c0134941e21d51e40289adf6ee08a6093c5703fd81aa606c45b85a2b2f26d08515d7c258a06e5deeded9fed6fbb64206d841708d63160a692dd82e18807aff5165f599b604912e1aa2cc6f8078eb465ed1ad1c4b48a16c76404940b1c49c17f5533efba86c6e9490ed28946a18bacc8c5173dd3db644aace9176d3cee593bb689268f10713ac002dcd6124c7bb03bc46bce14d0f2c61c637f8e4fe18de3aa56571d6051933fd46f07f276b07baf6e30c12a20c6b798bd4899dd3c6d50357b0e38dfcacad7e0e10848ca8897aa4f509e769e750b9ad68d0de02b2d239b3f140fe0c7241d276de3aa40faa95805254bfd9aa95a111ac435e109868e82382fee3661439decb252c1cd3974f12f8605cd529029904fdb65075f882145f90450a6e79d74b80656310de1b5823f703dc2fd0c5cb4c9db90da6fd4ccf48c520db6823a65cca8c9d11e2afdac9b81d9
def imgMan : List Byte :=
  leBytes 4 0x4E414D4B ++ leBytes 2 1 ++ [8, 1] ++ leBytes 4 4 ++ [1, 0, 0, 0] ++ leBytes 8 0x3000 ++ imgHash ++ imgKeyHash ++ leBytes 2 7 ++ List.replicate 38 0
    ++ beBytes 384 imgSig
def sSeal (man key : List Byte) : State :=
  sMt (mreq (blk 1 0 0 1 0 0 0) none none) mOpen
    (setBytes (setBytes [] (paOf 1 0 0x4400) imgCode) (paOf 1 0 0x4000) (man ++ key ++ List.replicate 128 0))

theorem wit_MeterEvents_seal :
    let s := sSeal imgMan imgKey
    let r := mreq (blk 1 0 0 1 0 0 0) none none
    isOk (s.checkCapAt r.who.core false r.cap 0x4000 1024 1 false false) = true ∧ isOk (s.checkCapAt r.who.core false r.cap 0x4400 4 1 false false) = true ∧
    (s.rootPieces r.who.core r.part r.cap.space 0x4000 1024 false).isSome = true ∧ (s.rootPieces r.who.core r.part r.cap.space 0x4400 4 false).isSome = true ∧
    isOk (s.checkCapAt r.who.core false r.cap 0x5C01 1024 1 false false) = false ∧
    (let c := over' 4 all 0x4000 0x2000
     isOk (s.checkCapAt r.who.core false c 0x4000 1024 1 false false) = true ∧ (s.rootPieces r.who.core r.part c.space 0x4000 1024 false).isSome = false) ∧
    State.manifestBad imgMan = false ∧ s.sealTargets 1 1 0x3000 = [(0, 0x3000), (1, 0x3000)] ∧
    (State.placeCode 1 (State.cwinWord false 0x3000 4) imgCode [(0, 0x3000), (1, 0x3000)] s).isSome = true := by decide +kernel

/-- What a region of memory reads as when another and then this one have been written. -/
theorem view_of {s : State} {c : CoreId} {p sp va a b n : Nat} {x y : List Byte} (hs : s.mem = setBytes (setBytes [] b y) a x) (hx : x.length = n)
    (hp : s.rootPieces c p sp va n false = some [(a, n)]) : s.viewBytes c p sp va n = x := by
  have h := getBytes_setBytes (m := setBytes [] b y) (a := a) (bs := x) (setBytes_wf b y (by decide))
  simp only [State.viewBytes, hp, State.readPieces, List.flatMap_cons, List.flatMap_nil, List.append_nil, State.readBytes, hs]
  rwa [hx] at h
theorem view_past {s : State} {c : CoreId} {p sp va a b n : Nat} {x y : List Byte} (hs : s.mem = setBytes (setBytes [] b y) a x) (hy : y.length = n)
    (ho : a + x.length ≤ b) (hp : s.rootPieces c p sp va n false = some [(b, n)]) : s.viewBytes c p sp va n = y := by
  have h := getBytes_setBytes (m := []) (a := b) (bs := y) (by decide)
  simp only [State.viewBytes, hp, State.readPieces, List.flatMap_cons, List.flatMap_nil, List.append_nil, State.readBytes, hs]
  rw [getBytes_setBytes_out (Or.inr ho)]
  rwa [hy] at h

theorem img_length : (imgMan ++ imgKey ++ List.replicate 128 0).length = 1024 := by decide +kernel

theorem seal_mem (man key : List Byte) :
    (sSeal man key).mem = setBytes (setBytes [] (paOf 1 0 0x4400) imgCode) (paOf 1 0 0x4000) (man ++ key ++ List.replicate 128 0) := rfl
theorem seal_head (man key : List Byte) : (sSeal man key).rootPieces fl.core 1 1 0x4000 1024 false = some [(paOf 1 0 0x4000, 1024)] := rfl
theorem seal_code (man key : List Byte) : (sSeal man key).rootPieces fl.core 1 1 0x4400 4 false = some [(paOf 1 0 0x4400, 4)] := rfl

theorem wit_MeterEvents_image :
    let s := sSeal imgMan imgKey
    s.viewBytes fl.core 1 1 0x4000 1024 = imgMan ++ imgKey ++ List.replicate 128 0 ∧ s.viewBytes fl.core 1 1 0x4400 4 = imgCode :=
  ⟨view_of (seal_mem _ _) img_length (seal_head _ _), view_past (seal_mem _ _) rfl (by rw [img_length]; decide) (seal_code _ _)⟩

/-- The encoded message that the signature carries. -/
def imgEm : Nat :=
  0x42a5f7bb8b29f4928c418634d2ade4bc3d00927061349e1f1232d6066035de97350109f1c276ec7fff163c303bf6adf297840021542ad504ff58c449099411c3c1e5334992c21e44b009ac00c2a0d009ed47f3bcf9b2a322e269813bdf67447f5f22fa034ad50dbebec10c03a7b1a0f8ce12771900c7e53ae8509f7e8f173e8257d72f5ae45049c8449685e76ab7674776423a9e04b492868ffb7f049591f114f01017d6d8b211e67042faa7a8ed3bdac0ebca01e999530b491cf1e5ff14914e3525ceaf11fb9eb75682f980b1966a0f6259b9d767cd44dec919c2d9b22c70739e1957b0fa69aa5677263ad01f9a2b787eb3c3774afdcbd9077dfe448378cf99c02e50c811b37e70a3ab7eaf1d87e22da5d799b7a10de181f2dbc9e474c6ef58bf95f3b5dd56361608f78467065ace17f90491beaf72fd3885374c7397ac5faf1b01e566aa2eac0999433ad66eea5d37b03a8b3db7c3c96ea0f9f99610ae554a45175bc526da451033c322eef86287a4bea324306d16a0f5d5679975b10654bc
theorem sha_code : sha256 imgCode = imgHash := by decide +kernel
theorem sha_key : sha256 imgKey = imgKeyHash := by decide +kernel
theorem sha_manifest : sha256 (imgMan.take 128) = manHash := by decide +kernel
theorem rsa_sig : powMod (2 ^ 3072 - 47) 17 imgSig 65537 = imgEm := by decide +kernel
theorem pss_salt : pssSalt (beBytes 384 imgEm) = List.replicate 32 0 := by decide +kernel
theorem pss_encode : pssEncode manHash (List.replicate 32 0) = beBytes 384 imgEm := by decide +kernel

/-- R438 on a signature made outside the model; the salt is 32 zero bytes. -/
theorem wit_MeterEvents_signature : pssVerify imgKey (sha256 (imgMan.take 128)) (beBytes 384 imgSig) = true := by
  have hk : beNat imgKey = 2 ^ 3072 - 47 := by decide +kernel
  have hx : beNat (beBytes 384 imgSig) = imgSig := by decide +kernel
  simp only [pssVerify, sha_manifest, hk, hx, rsa_sig, pss_salt, pss_encode]
  decide +kernel
theorem wit_MeterEvents_forged : pssVerify imgKey manHash (beBytes 384 (2 ^ 3072 - 1)) = false := by decide +kernel

/-- The outline of a request that has its snapshot wheel; a die's sums. -/
def sSums : State := { sMt (mreq (blk 5 0 7 0 0 0 0) (some 4) none) mOpen [] with dies := [(0, { sums := [(3, 7, 64, 0)] })] }
theorem wit_MeterEvents_statement :
    (let s := sMt (mreq (blk 5 0 7 0 0 0 0) (some 4) none) mOpen [];
      (mreq (blk 5 0 7 0 0 0 0) (some 4) none).wn = some 4 ∧ (mreq (blk 5 0 7 0 0 0 0) (some 4) none).block ≠ [] ∧ ∀ x ∈ s.dies, x.2.sums = []) ∧
    ((sSums.die 0).sums = [(3, 7, 64, 0)]) ∧ ((sMt (mreq (blk 5 0 7 0 0 0 0) (some 4) none) {} []).meter 7).isOpen = false := by decide

/-! ## Witnesses: the debug core, starts, lanes, the step, decoding -/

/-- DBGCMD: an op code, the first fibre of the math core of tile 0, a register and a word in it. -/
def dbgCmd (op r i : Nat) : Word := word (op * 2 ^ 56 + fibreId fm * 2 ^ 32 + r * 2 ^ 16 + i)
def sDbg (halted allowed : Bool) (arg : Nat) : State :=
  { pack1 fm (runs 1 [1, 2, 3, 4, 5, 6, 7, 8] [over' 1 all 0x2000 0x1000, .null, .null, over' 1 all 0x3000 0x1000]) with
    mem := setBytes [] (paOf 1 0 0x2010) [1, 2, 3], cores := [(fm.core, { halted })], clusters := [(0, { armed := 2 ^ 47 + 4, xi := true })]
    parts := [(1, { active := true, tab := [(0, 0), (1, 1)], dbgen := allowed })]
    pkg := { start := { phase := 2 }, dbg := { arg := word arg, data := 0x123456789ABCDEF } } }

theorem wit_DebugEvents :
    (dbgTarget (dbgCmd 4 0x1007 0) = fm ∧ dbgReg (dbgCmd 4 0x1007 0) = 0x1007 ∧ dbgWord (dbgCmd 4 0x1013 1) = 1 ∧ field (dbgCmd 4 0x1007 0) 63 56 = 4 ∧
      fm.valid = true ∧ (dbgTarget (word (4 * 2 ^ 56 + 7 * 2 ^ 50))).valid = false) ∧
    ((sDbg true true 0).dbgDenied fm.core = false ∧ (sDbg true false 0).dbgDenied fm.core = true ∧ isService fm.core = false) ∧
    (((sDbg false true 0).core fm.core).halted = false ∧ ((sDbg true true 0).core fm.core).halted = true) ∧
    (((sDbg true true 0).fib fm).status ≠ .free ∧ ({ sDbg true true 0 with fibres := [] }.fib fm).status = .free) ∧
    (0x1013 - 0x1010 < ((sDbg true true 0).fib fm).k.length) ∧
    (let s := sDbg true true 0x2010;
      s.dbgWindow fm (lget .null (s.fib fm).k 0) false = false ∧ s.dbgWindow fm (lget .null (s.fib fm).k 0) true = false ∧ (0x2010 : Word).toNat % 8 = 0 ∧
      s.checkCapAt fm.core false (lget .null (s.fib fm).k 0) 0x2010 8 State.pR false false = .ok (.mem (paOf 1 0 0x2010)) ∧
      s.checkCapAt fm.core false (lget .null (s.fib fm).k 0) 0x2010 8 State.pW true false = .ok (.mem (paOf 1 0 0x2010)) ∧
      s.dbgPieces fm (lget .null (s.fib fm).k 0) true = .ok [(paOf 1 0 0x2010, 8)] ∧ Memory.wf s.mem = true) ∧
    (let s := sDbg true true 0x2FFC; s.checkCapAt fm.core false (lget .null (s.fib fm).k 0) 0x2FFC 8 State.pR false false = .error 7 ∧
      s.checkCapAt fm.core false (lget .null (s.fib fm).k 0) 0x2FFC 8 State.pW true false = .error 7) ∧
    (((sDbg true true 0).cluster 0).xi = true ∧ bitN ((sDbg true true 0).cluster 0).armed 47 = true) :=
  ⟨by decide, by decide, by decide, by decide, by decide, ⟨by decide, by decide, by decide, rfl, rfl, rfl, by decide⟩, ⟨rfl, rfl⟩, by decide⟩

/-- A package in a phase and a lifecycle state. -/
def sStart (phase lc fails : Nat) (recovery act : Bool) : State :=
  { pack1 fl (runs 1 [] []) with
    mem := setBytes (setBytes [] (paOf 1 0 0x100) [5]) (paOf 6 0 0x200) [6]
    parts := [(1, { active := act })], pkg := { start := { phase, lc, fails, recovery } } }

theorem wit_StartEvents :
    ((sStart 2 3 0 false false).pkg.start.lc ≠ 4 ∧ (sStart 2 3 0 false false).pkg.start.fails ≠ 3 ∧ (sStart 2 3 0 false false).pkg.start.phase = 2) ∧
    ((sStart 3 3 3 true false).pkg.start.recovery = true ∧ (sStart 3 3 3 true false).pkg.start.phase ≠ 2) ∧
    ((sStart 2 4 0 false false).pkg.start.lc = 4 ∧ (sStart 2 3 3 false false).pkg.start.fails = 3 ∧ (sStart 2 3 3 false false).pkg.start.recovery = false) ∧
    ((∃ p ∈ (sStart 2 0 0 false true).parts, p.2.active = true) ∧ (∀ p ∈ (sStart 2 0 0 false false).parts, p.2.active = false)) ∧
    (outside (paOf 6 0 0x200) = true ∧ outside (paOf 1 0 0x100) = false ∧ romAt (paOf 1 0 0x100) = false) := by decide

/-- Lane types and modifiers at the ends of their ranges. -/
theorem wit_VectorIntegerAndMoves : (∀ t ∈ [(0 : BitVec 3), 3], t.toNat < 4) ∧ (∀ t ∈ [(0 : BitVec 3), 2], t.toNat < 3) ∧ 4 ≤ (4 : BitVec 3).toNat ∧
    (∀ m ∈ [(8 : BitVec 4), 15], 8 ≤ m.toNat ∧ m.getLsbD 3 = true) ∧ (1 : BitVec 4).toNat / 2 = 0 ∧ (3 : BitVec 4).toNat / 2 = 1 := by decide

/-- Lane 0 of v1 is 1.5, of v2 a quiet NaN, of v3 -2. -/
def cVec : Core := { v := [(1, 0x3FC00000), (2, 0x7FC00001), (3, 0xC0000000)] }
theorem wit_VectorFloatLanes :
    4 ≤ (6 : BitVec 3).toNat ∧ laneFmt 6 = fmt32 ∧ fpDecode fmt32 (laneOf (vOf cVec 1) 32 0) = .fin false 0xC00000 (-23) ∧
    fpDecode fmt32 (laneOf (vOf cVec 2) 32 0) = .nan ∧ fpDecode fmt32 (laneOf (vOf cVec 3) 32 0) = .fin true 0x800000 (-22) := by decide +kernel

/-- A fibre on sealed code in its own store: ADD g1, g2, g3, then the word 0; its fetch buffer is empty, or holds the line. -/
def codeBytes : List Byte := leBytes 4 0x04A60000 ++ leBytes 4 0
def sRun (pc : Nat) (buf : Bool) : State :=
  let x := { runs 1 [0, 0, 20, 30, 0, 0, 0, 0] [.null, .null, .null, .null] with
    pc := word pc, code := kcap, fbuf := if buf then some (pc / 64 * 64, codeBytes ++ List.replicate 56 0) else none }
  { pack1 fl x with
    mem := setBytes [] (paOf 1 0 0x3000) codeBytes, todo := [fl.core], opened := 5000
    tiles := [(0, { ptag := 1, cwin := [(0, State.cwinWord false 0x3000 8)] })]
    pkg := { start := { phase := 2 } } }

def RunHyps (pc : Nat) (buf : Bool) : Prop :=
  let s := sRun pc buf
  let x := s.fib fl
  s.inputs = [] ∧ s.pkg.start.powered = true ∧ (∀ a ∈ s.agenda, s.clock < a.1) ∧ s.opened = s.clock ∧ s.semWork = [] ∧ s.todo = fl.core :: [] ∧ s.pick fl.core = some 0 ∧
  (x.pendFault = none ∧ x.pendStop = false) ∧ x.pendUe = false ∧ s.breakpoint fl.core x.pc.toNat = false ∧
  errorOf (s.fetchCheck fl) = none ∧ okOf (.reg 0 0 0) (s.fetchCheck fl) = .mem (paOf 1 0 (pc % 2 ^ 20)) ∧ State.inBuffer x x.pc.toNat = buf ∧ State.localCode fl.core (.mem (paOf 1 0 (pc % 2 ^ 20))) = true ∧
  s.readError (paOf 1 0 (pc % 2 ^ 20)) 4 = none ∧ x.pc.toNat % 4 = 0

theorem wit_StepRunsDecoded : RunHyps 0xFFF03000 false ∧ RunHyps 0xFFF03000 true ∧ RunHyps 0xFFF03004 false ∧ RunHyps 0xFFF03004 true :=
  ⟨by unfold RunHyps; decide +kernel, by unfold RunHyps; decide +kernel, by unfold RunHyps; decide +kernel, by unfold RunHyps; decide +kernel⟩

theorem wit_StepRunsDecoded_words :
    (sRun 0xFFF03000 false).readBytes (paOf 1 0 0x3000) 4 = leBytes 4 0x04A60000 ∧ State.bufWord ((sRun 0xFFF03000 true).fib fl) 0xFFF03000 = leBytes 4 0x04A60000 ∧
    decode (leBytes 4 0x04A60000) = .ok (.add 1 2 3, []) ∧
    (sRun 0xFFF03004 false).readBytes (paOf 1 0 0x3004) 4 = leBytes 4 0 ∧ State.bufWord ((sRun 0xFFF03004 true).fib fl) 0xFFF03004 = leBytes 4 0 ∧
    decode (leBytes 4 0) = .error .reservedMajor := by
  simp only [ok_iff, error_iff]
  decide +kernel

/-- What the step of the first of these states does: g1 is 50. -/
theorem test_step_add : (match step (sRun 0xFFF03000 false) with | .next t => (t.fib fl).g | _ => []) = [0, 50, 20, 30, 0, 0, 0, 0] := by decide +kernel

theorem wit_StepKeepsMemory : State.reset.MemOk ∧ ∃ t, step State.reset = .next t := ⟨by unfold State.MemOk; decide, ⟨_, rfl⟩⟩
theorem wit_EncodeDecode : ∀ x ∈ [((.add 1 2 3 : Instr), (0x04A60000 : BitVec 32)), (.addi 7 7 0x7FF, 0x0BF007FF)], x.1.wellFormed = true ∧ encode x.1 = some x.2 := by decide
theorem wit_DecodeIsExact : decodeWord (0x04A60000 : BitVec 32).toNat = .ok (.add 1 2 3) := rfl

/-! ## Witnesses: lanes, blocks, refusals, units, contexts, attestation, the debug core's windows, starts. What rests on the free root
certificate or on a free key has none (logs 9 and 10). -/

/-- A source register with an error, an instruction that reads it; a release that retires; a fibre that waits for a remote access. -/
def sUe : State := { sDisp false with cores := [(fm.core, { ((sDisp false).core fm.core) with regUe := [2] })] }
def sFree : State :=
  { sSlot 1 with cores := [(fm.core, { running := [{ disp 6 (.mrel 3) [] with doneAt := 4000, frees := true }] })] }
theorem wit_DispatchStartAndRetire_errors :
    State.readsError (sUe.core fm.core) (.vadd 1 2 3 3 0) = true ∧ State.readsError ((sDisp false).core fm.core) (.vadd 1 2 3 3 0) = false ∧
    (sUe.core fm.core).running = [] ∧ (sUe.core fm.core).disp = [disp 5 (.vadd 1 2 3 3 0) []] ∧ (sUe.die 0).vgate = false ∧
    ((sFree.core fm.core).running = [{ disp 6 (.mrel 3) [] with doneAt := 4000, frees := true }] ∧ sFree.stopped (sFree.partOf fm.core) = false ∧
      vmemOf (.mrel 3) = none ∧ shapeOp (disp 6 (.mrel 3) []) = none ∧ ∀ y ∈ sFree.fibres, y.2.status ≠ .parked) ∧
    (∀ y ∈ (sRet 5000).fibres, retested y.2.cont = false) := by decide

/-- Vector loads and stores through a capability of the own tile store at 0x2000; mask register 0 leaves lanes 0 and 4 on, and register 9
holds the index of lane 0. -/
def vCap (n : Nat) : Cap := over' 1 all 0x2000 n
def dMem (i : Instr) (n : Nat) : Disp := { seq := 5, slot := 0, i, pc := 0x1000, g := List.replicate 8 0, k := [vCap n, .null, .null, .null], pl := 1 }
def sMemV (i : Instr) (n : Nat) : State :=
  { pack1 fm (runs 1 [] []) with cores := [(fm.core, { disp := [dMem i n], v := [(9, 0x20), (3, 0x55)], m := [(0, 0x11)] })] }
def vmemCases : List (Instr × Nat × Nat × Nat) :=
  [(.vld 3 0 8 0 0 0, 4, 0x2000, 0x2010), (.vst 3 0 8 0 0 0, 4, 0x2000, 0x2010), (.vgth 3 0 8 9 0, 4, 0x2020, 0x2000), (.vsct 3 0 8 9 1, 8, 0x2020, 0x2000)]

theorem wit_DispatchStartAndRetire_lanes : ∀ c ∈ vmemCases,
    let s := sMemV c.1 0x1000
    let x := s.core fm.core
    let last := if c.2.1 = 4 then 4 else 2
    s.stopped (s.partOf fm.core) = false ∧ (s.die 0).vgate = false ∧ x.disp = [dMem c.1 0x1000] ∧ x.running = [] ∧ x.memFree ≤ s.clock ∧
    State.readsError x c.1 = false ∧ (vCap 0x1000).space < 4 ∧ s.flight = [] ∧
    ((List.range (128 / c.2.1)).filter fun j => (mOf x 0).toNat.testBit (j * c.2.1 / 4)) = [0, last] ∧
    (∀ a ∈ [c.2.2.1, c.2.2.2], s.readError (paOf 1 0 a) c.2.1 = none) := by decide

/-- Both lanes pass their checks; with a capability of 16 bytes the lane at 0x2010 fails with subcode 4. -/
def laneChecks (i : Instr) (n size : Nat) (l : List (Nat × Nat)) : Except (Nat × Nat × Nat) (List (Nat × Nat × Nat × List (Nat × Nat))) :=
  (sMemV i size).vmemCheck fm.core (dMem i size) (vCap size) n (vmemWrites i) l
def passed (n : Nat) (l : List (Nat × Nat)) : List (Nat × Nat × Nat × List (Nat × Nat)) := l.map fun x => (x.1, x.2, n, [(paOf 1 0 x.2, n)])
theorem wit_DispatchStartAndRetire_checks :
    laneChecks (.vld 3 0 8 0 0 0) 4 0x1000 [(0, 0x2000), (4, 0x2010)] = .ok (passed 4 [(0, 0x2000), (4, 0x2010)]) ∧
    laneChecks (.vst 3 0 8 0 0 0) 4 0x1000 [(0, 0x2000), (4, 0x2010)] = .ok (passed 4 [(0, 0x2000), (4, 0x2010)]) ∧
    laneChecks (.vgth 3 0 8 9 0) 4 0x1000 [(0, 0x2020), (4, 0x2000)] = .ok (passed 4 [(0, 0x2020), (4, 0x2000)]) ∧
    laneChecks (.vsct 3 0 8 9 1) 8 0x1000 [(0, 0x2020), (2, 0x2000)] = .ok (passed 8 [(0, 0x2020), (2, 0x2000)]) ∧
    laneChecks (.vld 3 0 8 0 0 0) 4 16 [(0, 0x2000), (4, 0x2010)] = .error (4, 0x2010, 4) ∧
    laneChecks (.vst 3 0 8 0 0 0) 4 16 [(0, 0x2000), (4, 0x2010)] = .error (4, 0x2010, 4) := ⟨rfl, rfl, rfl, rfl, rfl, rfl⟩

/-- A vector store of two lanes that retires, and a SHAPE transposition of a block in the own store. -/
def dOut : Disp := { dMem (.vst 3 0 8 0 0 0) 0x1000 with doneAt := 4000, out := [(0x2000, [(paOf 1 0 0x2000, 4)], [1, 2, 3, 4]), (0x2010, [(paOf 1 0 0x2010, 4)], [5, 6, 7, 8])], flags := 1 }
def sOut : State := { pack1 fm (runs 1 [] []) with cores := [(fm.core, { running := [dOut] })] }
theorem wit_DispatchStartAndRetire_retire :
    sOut.stopped (sOut.partOf fm.core) = false ∧ (sOut.core fm.core).running = [dOut] ∧ dOut.reads = 0 ∧ dOut.doneAt ≤ sOut.clock ∧ dOut.fault = none ∧ dOut.wr = [] ∧
    dOut.frees = false ∧ sOut.errors = [] ∧ (∀ y ∈ sOut.fibres, y.2.status ≠ .parked) ∧
    dOut.out = ([(0x2000, paOf 1 0 0x2000, [1, 2, 3, 4]), (0x2010, paOf 1 0 0x2010, [5, 6, 7, 8])] : List (Nat × Nat × List Byte)).map
      (fun o => (o.1, [(o.2.1, o.2.2.length)], o.2.2)) ∧
    ∀ a ∈ [0x2000, 0x2010], paKind (paOf 1 0 a) = 1 ∧ paIdx (paOf 1 0 a) = coreTile fm.core ∧ sOut.windowFault (paOf 1 0 a) 4 0 false true = false := by decide

/-- SHAPE instructions from 0x4000 to 0x8000 of the own store. -/
def dShape (i : Instr) : Disp :=
  { seq := 5, slot := 0, i, pc := 0x1000, g := [0, 0, 0, 0, 0, 0, 0, 1], k := [over' 1 all 0x4000 0x2000, over' 1 all 0x8000 0x2000, .null, .null], pl := 1 }
def sShape (i : Instr) : State := { pack1 fs (runs 1 [] []) with cores := [(fs.core, { disp := [dShape i] })] }
def shapeUnitsAt (a n align : Nat) : List (Nat × Nat × Nat × List (Nat × Nat)) :=
  (shapeUnits a n align).map fun u => (0, u.1, u.2, [(paOf 1 0 a + (u.1 - a), u.2)])
/-- The operands of an instruction with its spans in the own store pass their checks. -/
def shapePasses (i : Instr) : Prop :=
  ∃ o, shapeOp (dShape i) = some o ∧ o.sc.space = 1 ∧ o.dc.space = 1 ∧ o.sa = 0x4000 ∧ o.da = 0x8000 ∧
    (sShape i).shapeCheck fs.core (dShape i) o = .ok (shapeUnitsAt o.sa o.sn o.salign, shapeUnitsAt o.da o.dn o.dalign)

theorem wit_DispatchStartAndRetire_shape :
    (∀ i ∈ [Instr.qtrn 0 7 0 1, .qscl 0 7 0 1 0, .qenc 0 7 0 1 0, .qdec 0 7 0 1 0 0], let s := sShape i; let x := s.core fs.core
      s.stopped (s.partOf fs.core) = false ∧ (s.die 0).vgate = false ∧ x.disp = [dShape i] ∧ x.running = [] ∧ x.sfuFree ≤ s.clock ∧
      State.readsError x i = false ∧ s.flight = [] ∧ s.errors = [] ∧ s.poison = []) ∧
    shapePasses (.qtrn 0 7 0 1) ∧ shapePasses (.qscl 0 7 0 1 0) ∧
    (∀ k < 4096, paKind (paOf 1 0 0x4000 + k) = 1 ∧ paIdx (paOf 1 0 0x4000 + k) = coreTile fs.core) := by
  refine ⟨by decide, ⟨_, rfl, rfl, rfl, rfl, rfl, rfl⟩, ⟨_, rfl, rfl, rfl, rfl, rfl, rfl⟩, ?_⟩
  intro k hk
  have h : paOf 1 0 0x4000 + k = paOf 1 0 (0x4000 + k) := by simp only [paOf]; omega
  rw [h]
  exact ⟨by simp only [paKind, paOf]; omega, by simp only [paIdx, paOf]; show _ = 0; omega⟩
/-- A block of 1,024 equal elements in format 1 with a tile exponent; FP32 values. -/
def blockOf (t x : Nat) : List Byte :=
  [BitVec.ofNat 8 t] ++ List.replicate 16 0 ++ [1, 0, 0] ++ List.replicate 12 0 ++ List.replicate 1024 (BitVec.ofNat 8 x)
def wellFormed1 (bs : List Byte) : Bool := bs.length == 1056 && lget 0 bs 17 == 1#8 && (List.range 12).all fun i => lget 0 bs (20 + i) == 0
def fp32s (x : Nat) : List Byte := (List.replicate 1024 (leBytes 4 x)).flatMap id

theorem lget_after (h l : List Byte) (n : Nat) : lget 0 (h ++ l) (h.length + n) = lget 0 l n := by
  induction h with
  | nil => rw [List.length_nil, Nat.zero_add]; rfl
  | cons x h ih => rw [List.length_cons, Nat.add_right_comm]; exact ih
theorem lget_same (v : Byte) (n i : Nat) (h : i < n) : lget 0 (List.replicate n v) i = v := by
  induction n generalizing i with
  | zero => omega
  | succ n ih => cases i with
    | zero => rfl
    | succ i => exact ih i (by omega)
theorem elem_same (t x i j : Nat) (hi : i < 32) (hj : j < 32) : elemAt false (blockOf t x) i j = (BitVec.ofNat 8 x).toNat := by
  have h := lget_after ([BitVec.ofNat 8 t] ++ List.replicate 16 0 ++ [1, 0, 0] ++ List.replicate 12 0) (List.replicate 1024 (BitVec.ofNat 8 x)) (32 * i + j)
  rw [lget_same _ _ _ (by omega)] at h
  show (lget 0 (blockOf t x) (32 + 32 * i + j)).toNat = _
  rw [← h, Nat.add_assoc]
  rfl

/-- Elements of 1 and of 0 in format 1; scales by 1 and by -1, within the range and beyond both its ends; a NaN tile; no format of the form. -/
theorem wit_DispatchStartAndRetire_blocks :
    (∀ t ∈ [0, 127, 254, 255], wellFormed1 (blockOf t 0x38) = true ∧ wellFormed1 (blockOf t 0) = true ∧ tileExp (blockOf t 0x38) = t) ∧
    (BitVec.ofNat 9 1).toInt = 1 ∧ (BitVec.ofNat 9 511).toInt = -1 ∧ elemVal 1 (blockOf 127 0x38) 31 31 = .fin false 8 (-3) ∧
    formOk 1 ((blockOf 127 0).set 17 3) = false := by decide +kernel
theorem wit_DispatchStartAndRetire_zeros (i j : Nat) (hi : i < 32) (hj : j < 32) : ∃ e, elemVal 1 (blockOf 127 0) i j = .fin false 0 e := by
  have h : elemAt (1 == 2) (blockOf 127 0) i j = 0 := elem_same 127 0 i j hi hj
  unfold elemVal
  rw [h]
  exact ⟨_, rfl⟩

/-- QENC to format 1 of ones, zeros and NaNs. -/
theorem wit_DispatchStartAndRetire_encoding :
    1 + 0 * 65536 = (1 : Word).toNat ∧ fpDecode fmt32 0x7FC00000 = .nan ∧ fpDecode fmt32 0x3F800000 = .fin false 0x800000 (-23) ∧
    (∀ x ∈ [0x3F800000, 0, 0x7FC00000], (fp32s x).length = 4096 ∧ leNat (((fp32s x).drop 4092).take 4) = x) := by decide +kernel

/-- The codes of 1, 2^-149, infinity, a NaN and -2, and an integer source at the ends of its range. -/
theorem wit_VectorFloatLanes_values :
    fpDecode fmt32 0x7F800000 = .inf false ∧ fpDecode fmt32 0xFF800000 = .inf true ∧ fpDecode fmt32 0x7FC00000 = .nan ∧ fpDecode fmt32 0xC0000000 = .fin true 0x800000 (-22) ∧
    (round fmt32 0 false (.fin false 1 0)).1 = 0x3F800000 ∧ (round fmt32 0 false (.fin false 1 (-149))).1 = 1 ∧ (round fmt32 0 false (.fin true 149 0)).1 = 0xC3150000 ∧
    signedLane 8 0x80 = -128 ∧ signedLane 32 0x7FFFFFFF = 2 ^ 31 - 1 ∧ laneWidth 0 = 8 ∧ laneWidth 6 = 32 := by decide +kernel

theorem tiles_of_die_1 : ∀ n < 256, tileNo 1 n ≠ coreNode wpkt.src.core ∧ tileNo 1 n ≠ ioNode := by decide +kernel

/-- The walk has arrived at die 1; its refusal has a way to the source. -/
theorem wit_WalkEvents_refusal :
    tfind { sWalk 15 none with walkers := [(9, { wpkt with arrived := some 3 })] }.walkers 9 = some { wpkt with arrived := some 3 } ∧
    ((sWalk 15 none).fib fl).cont = .walking 9 ∧ blockNode wpkt.die ≠ coreNode wpkt.src.core ∧ blockNode wpkt.die ≠ ioNode :=
  ⟨rfl, rfl, tiles_of_die_1 _ (Nat.mod_lt _ (by decide))⟩

/-- A lane of a vector load that has been read. -/
def aLaneRead : Access := { aRep (.laneRead 5) 4 with who := fm, va := 0x2000 }
def sLane : State :=
  { pack1 fm (runs 1 [] []) with
    flight := [(4, aLaneRead)], cores := [(fm.core, { running := [{ dMem (.vld 3 0 8 0 0 0) 0x1000 with reads := 1 }] })] }
theorem wit_AccessEvents_lane :
    sLane.access 4 = some aLaneRead ∧ aLaneRead.fault = none ∧ aLaneRead.op = .laneRead 5 ∧
    (sLane.core aLaneRead.who.core).running = [{ dMem (.vld 3 0 8 0 0 0) 0x1000 with reads := 1 }] ∧ (dMem (.vld 3 0 8 0 0 0) 0x1000).seq = 5 := by decide

/-- The completion's write has no unit yet, waits for one, has one. -/
def withUnit (s : State) (u : Option (Nat × Bool)) : State := s.modVf 1 fun v => { v with postUnit := u }
theorem wit_CompletionEvents_units :
    (∀ s ∈ [sPost none, sPost (some 0x99)], (s.vf 1).postUnit = none ∧ ((withUnit s (some (9, false))).vf 1).postUnit = some (9, false) ∧
      (((withUnit s (some (9, true))).vf 1).postUnit = some (9, true) ∧ ((withUnit s (some (9, true))).vf 1).held = (0, 7) :: [(0, 8)] ∧
        ((withUnit s (some (9, true))).vf 1).cqen = true ∧ (withUnit s (some (9, true))).stopped 1 = false ∧ (withUnit s (some (9, true))).errors = [] ∧
        Memory.wf (withUnit s (some (9, true))).mem = true)) ∧
    ((withUnit (sPost none) (some (9, true))).hostPa 1 0x101E0).isSome = true ∧ ((withUnit (sPost none) (some (9, true))).vf 1).posting = none ∧
    ((withUnit (sPost (some 0x99)) (some (9, true))).vf 1).posting = some 0x99 ∧ ((withUnit sNoPage (some (9, true))).vf 1).postUnit = some (9, true) ∧
    (let s := sTab [] { msiDefer := [2] }; tget 0 (s.vf 1).msiWheel 2 ≠ s.wheel + 1) ∧
    (let s := sTab [] { msiDefer := [2], msiWheel := [(2, 5)] }; tget 0 (s.vf 1).msiWheel 2 = s.wheel + 1) := by decide +kernel

/-- The stop sequence before and after slot 32 of W; a save whose last page has its units or lacks one. -/
def sSaving (paid : Nat) : State :=
  (sGs 2 true).modDie 0 fun x => { x with gw := { x.gw with saves := [{ part := 1, units := [(0, 65536, 4096)], paid }] } }
theorem wit_SwitchEvents_saving :
    (sGs 2 true).diesOf 1 = [0] ∧ ((sGs 2 true).part 1).stopW * 1024 + 32 ≤ (sGs 2 true).clock ∧ (sGs 2 true).savesLeft 1 = false ∧
    (let s := (sGs 2 true).modPart 1 fun x => { x with stopW := 5 }; (s.part 1).gs = 2 ∧ s.clock < (s.part 1).stopW * 1024 + 32) ∧
    (∀ n ∈ [63, 64], ((sSaving n).part 1).gs = 2 ∧ (sSaving n).isDue (.partitionLost 1) = false ∧ (sSaving n).diesOf 1 = [0] ∧
      ((sSaving n).die 0).gw.saves = { part := 1, units := [(0, 65536, 4096)], paid := n } :: [] ∧
      (sSaving n).pageUnits 1 0 ((sSaving n).partVa 1 0 (0, 65536, 4096) + 0) = 64) ∧
    ((sSaving 64).areaPa 1 0 ((sSaving 64).partVa 1 0 (0, 65536, 4096) + 0)).isSome = true ∧ (sSaving 64).errors = [] ∧ Memory.wf (sSaving 64).mem = true ∧
    (∀ y ∈ (sGs 5 true).cores, y.2.strmWait = []) := by decide +kernel

/-- A register of a core with and without a lease, a table entry of a circuit, a list that waits for a function-level reset to end. -/
theorem wit_ResetEvents_places :
    ((sDie 4).core fs.core).lease = none ∧ sFlit.tableEntry 1 1 0 = some (mkEntry 3 1 0 0 7) ∧ entryV (mkEntry 3 1 0 0 7) = true ∧
    (sDie 4).tableEntry 0 1 2 = none := by decide

/-- Answers that a die has given at each step, as the root finds them. -/
def sAnswer (x : Trust) (last : List Byte) : State :=
  { pack1 fl (runs 1 [] []) with
    dies := [(0, { trust := { x with state := 2, deadline := 9000 }, spdm := { last } })], pkg := { start := { phase := 1 } } }
def finishMac (x : Trust) : List Byte := hmac (leBytes 32 0) (sha256 (x.th ++ sha256 Config.packageChain ++ x.sent ++ [0x12, 0x65, 0, 0]))
theorem wit_AttestationEvents_answers :
    (∀ x ∈ [(1, spdmVersion), (2, spdmCapabilities 0), (3, spdmAlgorithms 0), (4, [0x12, 1, 0, 1]), (5, [0x12, 2, 0, 0, 2, 0, 9, 0, 1, 2])],
      (sAnswer { step := x.1 } x.2).answered 0 = true ∧ (sAnswer { step := x.1 } x.2).rootFinds 0 = none ∧ (sAnswer { step := x.1 } x.2).clock ≤ 9000) ∧
    (∀ n ∈ [1, 2], (sAnswer { step := 9, enc := n } [0x12, if n = 1 then 0x6A else 0x6B, 0, 0]).rootFinds 0 = none) ∧
    (∀ x ∈ [(1, [0x12, 0x7F, 1, 0], 7), (4, [0x12, 1, 0, 0], 2), (7, [0x12, 0x7F, 4, 0], 7), (8, [0x12, 0x7F, 4, 0], 7)],
      (sAnswer { step := x.1 } x.2.1).rootFinds 0 = some x.2.2) ∧
    ((sAnswer { step := 1 } []).answered 0 = false ∧ (sAnswer { step := 1 } []).pkg.start.recovery = false) ∧
    (stepReason 8 4 ≠ 7 ∧ stepReason 8 2 = 7) := by decide +kernel
theorem slice_after (m : List Byte) (h : m.length = 32) : slice ([0x12, 0x65, 0, 0] ++ m) 4 32 = m :=
  List.take_of_length_le (Nat.le_of_eq h)
theorem wit_AttestationEvents_finish :
    (sAnswer { step := 10 } ([0x12, 0x65, 0, 0] ++ finishMac {})).rootFinds 0 = none ∧ (sAnswer { step := 10 } ([0x12, 0x65, 0, 0] ++ finishMac {})).answered 0 = true := by
  have h : (finishMac {}).length = 32 := hmac_length _ _
  have e : ∀ m, m = finishMac {} → m.length = 32 →
      (sAnswer { step := 10 } ([0x12, 0x65, 0, 0] ++ m)).rootFinds 0 = none ∧ (sAnswer { step := 10 } ([0x12, 0x65, 0, 0] ++ m)).answered 0 = true := by
    intro m hm hl
    refine ⟨?_, rfl⟩
    show (if (0x65 : Nat) ≠ 0x65 then some 7 else if (slice ([0x12, 0x65, 0, 0] ++ m) 4 32 == finishMac {}) = true then none else some 4) = none
    rw [slice_after m hl, hm]
    simp
  exact e _ rfl h

/-- Answers that come too late, and none. -/
theorem wit_AttestationEvents_late :
    (let s := (sAnswer { step := 1 } spdmVersion).modDie 0 fun x => { x with trust := { x.trust with deadline := 4999 } }
     s.answered 0 = true ∧ (s.die 0).trust.state = 2 ∧ (s.die 0).trust.late = 0 ∧ (s.die 0).trust.deadline < s.clock) ∧
    (sAnswer { step := 1 } []).answered 0 = false ∧ ((sAnswer { step := 1 } []).die 0).trust.late = 0 := by decide

/-- What the encapsulated flow and FINISH ask of a die, and the root core's memory. -/
def sMutual (hs acc : Bool) : State := (sSpdm 3 hs []).modDie 0 fun x => { x with spdm := { x.spdm with accepted := acc } }
theorem wit_SpdmRequests_mutual :
    (∀ x ∈ spdmReqs, ∀ r ∈ [0, 6], State.heardBytes r x.2 = x.2) ∧ (sSpdm 3 false []).mextRuns = false ∧ Memory.wf (sSpdm 3 false []).mem = true ∧
    (∀ q ∈ [req 0x12 0xEA 0 0 4 [], req 0x12 0xEB 1 0 12 [0x12, 2, 0, 0, 2, 0, 0, 0], req 0x12 0xE5 0 0 36 []], (sMutual true false).spdmHeard 0 q = true) ∧
    (let body := (req 0x12 0xEB 1 0 14 [0x12, 2, 0, 0, 2, 0, 0, 0, 7, 8]).drop 4
     lget 0 body 1 = 2 ∧ sliceNat body 6 2 = 0 ∧ rootListed 0 (((sMutual true false).spdm 0).peer ++ slice body 8 (sliceNat body 4 2)) = false) ∧
    (((sMutual true false).spdm 0).handshake = true ∧ ((sMutual true false).spdm 0).accepted = false) ∧
    (((sMutual true true).spdm 0).accepted = true ∧ chainLeaf ((sMutual true true).spdm 0).peer = none) := by decide +kernel

theorem wit_DoeAndPowerEvents_power : ((sDoe {} 2).modPkg fun k => { k with mgrun := true }).pkg.mgrun = true ∧ (sDoe {} 2).pkg.mgrun = false := by decide

/-- The debug core in recovery, and a window of block 0x02 that is on, which a halted fibre at Root could write. -/
def sDbgReg : State :=
  { pack1 fm (runs 3 [] [over' 8 all 0x200000 0x10000, .null, .null, .null]) with
    cores := [(fm.core, { halted := true })], dies := [(0, { trust := { state := 4 }, mwinDie := [(0, (word (2 ^ 63 + 5 * 2 ^ 52), 0))] })]
    parts := [(1, { active := true, tab := [(0, 0)], dbgen := true })], pkg := { start := { phase := 2 }, dbg := { arg := 0x204000 } } }
theorem wit_DebugEvents_window :
    (sDbgReg.modPkg fun k => { k with start := { k.start with phase := 3 } }).pkg.start.phase = 3 ∧ sDbgReg.pkg.start.phase ≠ 3 ∧ fm.valid = true ∧
    sDbgReg.dbgDenied fm.core = false ∧ (sDbgReg.core fm.core).halted = true ∧ (sDbgReg.fib fm).status ≠ .free ∧
    (let c := lget .null (sDbgReg.fib fm).k 0
     sDbgReg.dbgWindow fm c true = false ∧ okAt (sDbgReg.checkCapAt fm.core true c 0x204000 8 State.pW true false) (.reg 0 2 0x4000) = true) ∧
    State.regTrap { sDbgReg with cur := fm } 0 2 0x4000 0x204000 0 false true = none ∧ sDbgReg.windowOn 0 0x4000 = true := by decide

/-- A step of a start fails without entropy; a record that is not genuine; the transitions of the lifecycle. -/
theorem wit_StartEvents_steps :
    (∀ w, ((sStart 3 3 3 true false).modPkg fun k => { k with entropyOk := false }).failingStep w = 1) ∧
    (let s := { sStart 2 3 0 false false with mem := setBytes [] (paOf 6 0 0x1000) (leBytes 2 0x104) }
     let bs := s.readBytes (paOf 6 0 0x1000) 512
     sliceNat bs 0 1 = 4 ∧ s.pkg.start.lc = 3 ∧ sliceNat bs 1 15 ≠ 0) := by decide +kernel

/-- FIPS 197, C.3: AES-256 of the block 00 11 22 ... under the key 00 01 02 ... -/
theorem test_aes256 : aes256 ((List.range 32).map (BitVec.ofNat 8)) ((List.range 16).map fun i => BitVec.ofNat 8 (17 * i)) =
    [0x8E, 0xA2, 0xB7, 0xCA, 0x51, 0x67, 0x45, 0xBF, 0xEA, 0xFC, 0x49, 0x90, 0x4B, 0x49, 0x60, 0x89] := by decide +kernel

end Sys2Proof.Tests
end

namespace Sys2Proof.Machine

/-! ## Memory that stays -/

theorem sameMemory_of_memory {s t : State} (h : t.memory = s.memory) : Claims.SameMemory s t := by
  obtain ⟨hm, h⟩ := Prod.mk.inj h
  obtain ⟨ht, h⟩ := Prod.mk.inj h
  obtain ⟨hp, he⟩ := Prod.mk.inj h
  exact ⟨fun a => by rw [Claims.byteAt, hm, Claims.byteAt], ht, hp, he⟩

theorem modPkg_memory (s : State) (h : Package → Package) : (s.modPkg h).memory = s.memory := rfl

/-! ## What the networks change (R26, R37 to R39) -/

/-- What the residue and the writing of slot tables may change: the tiles, the accesses that merge, the I/O die's buffers and its
slot tables. -/
def NetFrame (s t : State) : Prop :=
  t = { s with
    tiles := t.tiles, flight := t.flight
    pkg := { s.pkg with rbuf := t.pkg.rbuf, rwait := t.pkg.rwait, ioSlots := t.pkg.ioSlots } }

namespace NetFrame

theorem refl (s : State) : NetFrame s s := rfl

theorem trans {s t u : State} (h : NetFrame s t) (k : NetFrame t u) : NetFrame s u := by
  unfold NetFrame at h
  refine Eq.trans k ?_
  rw [h]

theorem foldl {α : Type} {h : State → α → State} (k : ∀ s a, NetFrame s (h s a)) (l : List α) (s : State) :
    NetFrame s (l.foldl h s) := by
  induction l generalizing s with
  | nil => exact refl s
  | cons a l ih => exact (k s a).trans (ih _)

theorem modTile (s : State) (n : Nat) (h : Tile → Tile) : NetFrame s (s.modTile n h) := rfl
theorem rbuf (s : State) (h : Package → List ((Nat × Bool) × RBuf)) : NetFrame s (s.modPkg fun p => { p with rbuf := h p }) := rfl
theorem rwait (s : State) (h : Package → List RFlit) : NetFrame s (s.modPkg fun p => { p with rwait := h p }) := rfl

end NetFrame

theorem modAccess_netFrame (s : State) (id : Nat) (h : Access → Access) : NetFrame s (s.modAccess id h) := by
  unfold State.modAccess
  split <;> rfl

theorem mergeFlit_netFrame {s t : State} {b : RBuf} {f : RFlit} (h : s.mergeFlit b f = some t) : NetFrame s t := by
  unfold State.mergeFlit at h
  split at h
  · rw [← Option.some.inj h]
    exact (modAccess_netFrame ..).trans (modAccess_netFrame ..)
  · cases h

theorem getD_netFrame {s t : State} {b : RBuf} {f : RFlit} (h : NetFrame s t) : NetFrame s ((s.mergeFlit b f).getD t) := by
  cases e : s.mergeFlit b f with
  | none => exact h
  | some u => exact mergeFlit_netFrame e

/-- A flit without an event merges into nothing: only atomics merge (R39). -/
theorem mergeFlit_no_event {s : State} {b : RBuf} {f : RFlit} (h : f.ev = none) : s.mergeFlit b f = none := by
  simp [State.mergeFlit, State.mergeAccess, h]

/-- One flit that waits at a tile is let into its local buffer, or waits on. -/
def letInStep (n : Nat) (acc : State × List RFlit) (fl : RFlit) : State × List RFlit :=
  let s := acc.1
  let b := tget {} (s.tile n).rbuf (4, fl.reply)
  let spent := tget 0 (s.tile n).rspent fl.part
  if State.roomIn b fl.part ∧ !s.stopped fl.part ∧ (48 ≤ fl.part ∨ spent < (s.part fl.part).residue) then
    (((s.mergeFlit b fl).getD (s.modTile n fun t => { t with
        rbuf := tset t.rbuf (4, fl.reply) { flits := b.flits ++ [{ fl with since := max fl.since (s.clock + 1) }] } })).modTile n
      fun t => { t with rspent := tset t.rspent fl.part (spent + 1) }, acc.2)
  else (s, acc.2 ++ [fl])

theorem letIn_eq (s : State) (n : Nat) : s.letIn n =
    ((s.tile n).rwait.foldl (letInStep n) (s, [])).1.modTile n fun t =>
      { t with rwait := ((s.tile n).rwait.foldl (letInStep n) (s, [])).2 } := rfl

/-- The same at the I/O die. -/
def letInIoStep (acc : State × List RFlit) (fl : RFlit) : State × List RFlit :=
  let s := acc.1
  let b := tget {} s.pkg.rbuf (4, fl.reply)
  if State.roomIn b fl.part ∧ !s.stopped fl.part then
    ((s.mergeFlit b fl).getD (s.modPkg fun p => { p with
        rbuf := tset p.rbuf (4, fl.reply) { flits := b.flits ++ [{ fl with since := max fl.since (s.clock + 1) }] } }), acc.2)
  else (s, acc.2 ++ [fl])

theorem letInIo_eq (s : State) : s.letInIo =
    (s.pkg.rwait.foldl letInIoStep (s, [])).1.modPkg fun p => { p with rwait := (s.pkg.rwait.foldl letInIoStep (s, [])).2 } := rfl

theorem foldl_fst_netFrame {α β : Type} {h : State × β → α → State × β} (k : ∀ p a, NetFrame p.1 (h p a).1) (l : List α)
    (p : State × β) : NetFrame p.1 (l.foldl h p).1 := by
  induction l generalizing p with
  | nil => exact .refl _
  | cons a l ih => exact (k p a).trans (ih _)

theorem letInStep_netFrame (n : Nat) (acc : State × List RFlit) (fl : RFlit) : NetFrame acc.1 (letInStep n acc fl).1 := by
  unfold letInStep
  simp only []
  split
  · dsimp only
    exact (getD_netFrame (.modTile ..)).trans (.modTile ..)
  · exact .refl _

theorem letInIoStep_netFrame (acc : State × List RFlit) (fl : RFlit) : NetFrame acc.1 (letInIoStep acc fl).1 := by
  unfold letInIoStep
  simp only []
  split
  · exact getD_netFrame (.rbuf ..)
  · exact .refl _

theorem letIn_netFrame (s : State) (n : Nat) : NetFrame s (s.letIn n) := by
  rw [letIn_eq]
  exact (foldl_fst_netFrame (letInStep_netFrame n) _ (s, [])).trans (.modTile ..)

theorem letInIo_netFrame (s : State) : NetFrame s s.letInIo := by
  rw [letInIo_eq]
  exact (foldl_fst_netFrame letInIoStep_netFrame _ (s, [])).trans (.rwait ..)

/-- An injection changes the network's buffers and the accesses that merge there, nothing else. -/
theorem inject_netFrame (s : State) (n : Nat) (f : RFlit) : NetFrame s (s.inject n f) := by
  unfold State.inject
  split
  · exact (NetFrame.rwait ..).trans (letInIo_netFrame _)
  · exact (NetFrame.modTile ..).trans (letIn_netFrame _ n)

theorem sendAtt_netFrame (s : State) (d : Nat) (to' : Bool) (n : Nat) (m : List Byte) : NetFrame s (s.sendAtt d to' n m) :=
  NetFrame.foldl (fun s _ => inject_netFrame s _ _) _ s

section
variable {s t : State} (h : NetFrame s t)
include h

theorem NetFrame.clock : t.clock = s.clock := by unfold NetFrame at h; rw [h]
theorem NetFrame.agenda : t.agenda = s.agenda := by unfold NetFrame at h; rw [h]
theorem NetFrame.cur : t.cur = s.cur := by unfold NetFrame at h; rw [h]
theorem NetFrame.fibres : t.fibres = s.fibres := by unfold NetFrame at h; rw [h]
theorem NetFrame.cores : t.cores = s.cores := by unfold NetFrame at h; rw [h]
theorem NetFrame.dies : t.dies = s.dies := by unfold NetFrame at h; rw [h]
theorem NetFrame.die (n : Nat) : t.die n = s.die n := by unfold NetFrame at h; rw [h]; rfl
theorem NetFrame.memory : t.memory = s.memory := by unfold NetFrame at h; rw [h]; rfl
theorem NetFrame.ic : t.pkg.ic = s.pkg.ic := by unfold NetFrame at h; rw [h]
theorem NetFrame.circuits : t.pkg.circuits = s.pkg.circuits := by unfold NetFrame at h; rw [h]
theorem NetFrame.links : t.pkg.links = s.pkg.links := by unfold NetFrame at h; rw [h]

end

/-! ## Where an injected flit is (R38) -/

/-- A flit without an event that comes last is then in the tile's local buffer or waits at the tile. -/
theorem letInStep_places (n : Nat) (acc : State × List RFlit) (f : RFlit) (h : f.ev = none) :
    ∃ since, { f with since } ∈ (letInStep n acc f).2 ∨
      { f with since } ∈ (tget {} ((letInStep n acc f).1.tile n).rbuf (4, f.reply)).flits := by
  unfold letInStep
  simp only [mergeFlit_no_event h, Option.getD_none]
  split
  · exact ⟨max f.since (acc.1.clock + 1), .inr (by simp)⟩
  · exact ⟨f.since, .inl (by simp)⟩

/-- An injected flit without an event, with the cycle from which it stands there. -/
theorem inject_places (s : State) {n : Nat} (f : RFlit) (hn : n ≠ ioNode) (h : f.ev = none) :
    ∃ since, { f with since } ∈ ((s.inject n f).tile n).rwait ∨
      { f with since } ∈ (tget {} ((s.inject n f).tile n).rbuf (4, f.reply)).flits := by
  obtain ⟨since, hp⟩ := letInStep_places n
    ((s.tile n).rwait.foldl (letInStep n) (s.modTile n fun t => { t with rwait := t.rwait ++ [f] }, [])) f h
  refine ⟨since, ?_⟩
  simpa [State.inject, hn, letIn_eq, List.foldl_append] using hp

end Sys2Proof.Machine

namespace Sys2Proof.Machine

/-! ## The circuit instructions (R44 to R52) -/

/-- The request of the executing fibre is on its way to the Intercalator, and the fibre waits for the result. -/
def CircuitAsked (s t : State) (d : BitVec 3) (fn : Nat) (v y : Word) : Prop :=
  t.me.status = .parked ∧ t.me.park = 7 ∧ t.me.cont = .circ d ∧ t.me.pc = s.me.pc ∧ t.me.g = s.me.g ∧ Claims.SameMemory s t ∧
  ∃ fl, (fl ∈ (t.tile (coreTile s.cur.core)).rwait ∨ fl ∈ (tget {} (t.tile (coreTile s.cur.core)).rbuf (4, false)).flits) ∧
    fl.dst = ioNode ∧ fl.reply = false ∧
    ∃ r, fl.req = some r ∧ r.who = s.cur ∧ r.part = s.partOf s.cur.core ∧ r.fn = fn ∧ r.a = v ∧ r.b = y

/-- A compute core's tile is no I/O die. -/
theorem coreTile_ne_ioNode {c : CoreId} (hv : c.valid = true) (hs : isService c = false) : coreTile c ≠ ioNode := by
  have hd : c.die < 6 ∧ c.tile < 256 := by
    simp only [CoreId.valid, isService, decide_eq_true_eq, beq_eq_false_iff_ne] at hv hs
    omega
  simp only [coreTile, tileNo, ioNode]
  omega

theorem circSend_asks (s : State) (fn : Nat) (d : BitVec 3) (v y : Word) (h : coreTile s.cur.core ≠ ioNode) :
    CircuitAsked s (s.circSend s.cur fn d v y []) d fn v y := by
  let f : RFlit := { reply := false, part := s.partOf s.cur.core, dst := ioNode, ev := none, since := s.clock + 1
                     req := some { who := s.cur, part := s.partOf s.cur.core, fn, a := v, b := y, block := [], tile := coreTile s.cur.core } }
  have hn := inject_netFrame (s.parkF s.cur 7 (.circ d)) (coreTile s.cur.core) f
  obtain ⟨since, hp⟩ := inject_places (s.parkF s.cur 7 (.circ d)) f h rfl
  have hme : (s.circSend s.cur fn d v y []).me = (s.parkF s.cur 7 (.circ d)).fib s.cur := by
    show State.fib (State.inject _ _ f) (State.inject _ _ f).cur = _
    rw [hn.cur, State.fib, hn.fibres]
    rfl
  rw [fib_parkF] at hme
  refine ⟨by rw [hme], by rw [hme], by rw [hme], by rw [hme]; rfl, by rw [hme]; rfl, sameMemory_of_memory hn.memory, ?_⟩
  exact ⟨{ f with since }, hp, rfl, rfl, _, rfl, rfl, rfl, rfl, rfl, rfl⟩

section
variable {s : State} (d a b : BitVec 3)

theorem exec_copen_tile (hg : groupRuns .link s.cur.core = true) (hv : copenBad (s.g a) = false) (hc : field (s.g a) 63 61 = 0)
    (h1 : 1 ≤ field (s.g a) 53 44) (h2 : field (s.g a) 53 44 ≤ 959) (ht : tileBad (s.g b) = false) :
    exec (.copen d a b 0) s = .next (s.circSend s.cur 0 d (s.g a) (s.g b) []) := by
  show execCopen d a b 0 s = _
  have hk : ¬ (field (s.g a) 53 44 = 0 ∨ 959 < field (s.g a) 53 44 ∨ (0 : BitVec 2) ≠ 0#2) := by
    simp
    omega
  rw [execCopen, guard_runs hg rfl]
  simp only [hv, hc, ht, hk]
  simp

theorem exec_cshut (hg : groupRuns .link s.cur.core = true) (hv : (s.g a).toNat < 4096) :
    exec (.cshut d a) s = .next (s.circSend s.cur 1 d (s.g a) 0 []) := by
  show execCshut d a s = _
  have h0 : (s.g a).toNat / 2 ^ 12 = 0 := Nat.div_eq_of_lt hv
  rw [execCshut, guard_runs hg rfl]
  simp only [h0, ne_eq, not_true_eq_false, if_false]

theorem exec_crsz (hg : groupRuns .link s.cur.core = true) (hv : (s.g a).toNat < 4096) (h1 : 1 ≤ (s.g b).toNat)
    (h2 : (s.g b).toNat ≤ 959) : exec (.crsz d a b) s = .next (s.circSend s.cur 2 d (s.g a) (s.g b) []) := by
  show execCrsz d a b s = _
  have h0 : (s.g a).toNat / 2 ^ 12 = 0 := Nat.div_eq_of_lt hv
  have hk : ¬ ((s.g b).toNat = 0 ∨ 959 < (s.g b).toNat) := by omega
  rw [execCrsz, guard_runs hg rfl]
  simp only [h0, hk, if_false, ne_eq, not_true_eq_false]

theorem exec_crszArm (hg : groupRuns .link s.cur.core = true) (h1 : field (s.g a) 63 32 = 0) (h2 : field (s.g a) 15 12 = 0)
    (h3 : field (s.g a) 31 16 ≠ 0) : exec (.crszArm d a b) s = .next (s.circSend s.cur 3 d (s.g a) (s.g b) []) := by
  show execCrszArm d a b s = _
  rw [execCrszArm, guard_runs hg rfl]
  simp [h1, h2, h3]

theorem exec_cqry_wrong_core (hg : groupRuns .link s.cur.core = false) : Claims.Traps (.cqry d a) s 2 (word (wordOf (.cqry d a)).toNat) := by
  show execCqry d a s = _
  rw [execCqry, guard_wrong_core hg]

theorem exec_cqry (hg : groupRuns .link s.cur.core = true) :
    exec (.cqry d a) s = .next (s.circSend s.cur 4 d (s.g a) 0 []) := by
  show execCqry d a s = _
  rw [execCqry, guard_runs hg rfl]

end

/-- Settles O24: each request passes its checks and leaves by `circSend`; a core of another kind fails the group's check. -/
theorem circuitRequests : Obligations.CircuitRequests := by
  unfold Obligations.CircuitRequests
  intro s d a b
  dsimp only
  refine ⟨fun hv hs hk => ?_, fun hk => ?_⟩
  · have hg : groupRuns .link s.cur.core = true := by simp [groupRuns, hs, hk]
    have sent (fn : Nat) (y : Word) := circSend_asks s fn d (s.g a) y (coreTile_ne_ioNode hv hs)
    exact ⟨fun h0 hc h1 h2 ht => ⟨_, exec_copen_tile d a b hg h0 hc h1 h2 ht, sent 0 _⟩,
      fun h0 => ⟨_, exec_cshut d a hg h0, sent 1 _⟩,
      fun h0 h1 h2 => ⟨_, exec_crsz d a b hg h0 h1 h2, sent 2 _⟩,
      fun h0 h1 h2 => ⟨_, exec_crszArm d a b hg h0 h1 h2, sent 3 _⟩,
      ⟨_, exec_cqry d a hg, sent 4 _⟩⟩
  · have hg : groupRuns .link s.cur.core = false := by simp [groupRuns, hk]
    exact exec_cqry_wrong_core d a hg

end Sys2Proof.Machine

namespace Sys2Proof.Machine

/-! ## The power of a die (R359) -/

/-- A die that spends tokens changes its own count, and its gates may be due. -/
theorem spend_frame (s : State) (d g : Nat) : ∃ l : List (Nat × Instr), (∀ z ∈ l, z.2 = .issueGate d) ∧
    s.spend d g = { s.modDie d (fun x => { x with spentTok := x.spentTok + Config.activity g }) with agenda := s.agenda ++ l } := by
  unfold State.spend State.schedOnce
  simp only []
  split
  · split
    · exact ⟨[], by simp, by rw [List.append_nil]; rfl⟩
    · exact ⟨[(s.clock, .issueGate d)], by simp, rfl⟩
  · exact ⟨[], by simp, by rw [List.append_nil]; rfl⟩

theorem spend_spentTok (s : State) (d g : Nat) : ((s.spend d g).die d).spentTok = (s.die d).spentTok + Config.activity g := by
  obtain ⟨l, -, h⟩ := spend_frame s d g
  simp [h, State.die, State.modDie, State.setDie]

theorem spend_agenda (s : State) (d g : Nat) : ∃ l, (s.spend d g).agenda = s.agenda ++ l ∧ ∀ z ∈ l, z.2 = .issueGate d := by
  obtain ⟨l, hl, h⟩ := spend_frame s d g
  exact ⟨l, by rw [h], hl⟩

@[simp] theorem spend_clock (s : State) (d g : Nat) : (s.spend d g).clock = s.clock := by
  obtain ⟨l, -, h⟩ := spend_frame s d g
  rw [h, State.modDie_clock]
@[simp] theorem spend_tiles (s : State) (d g : Nat) : (s.spend d g).tiles = s.tiles := by
  obtain ⟨l, -, h⟩ := spend_frame s d g
  rw [h, State.modDie_tiles]
@[simp] theorem spend_pkg (s : State) (d g : Nat) : (s.spend d g).pkg = s.pkg := by
  obtain ⟨l, -, h⟩ := spend_frame s d g
  rw [h, State.modDie_pkg]
theorem spend_memory (s : State) (d g : Nat) : (s.spend d g).memory = s.memory := by
  obtain ⟨l, -, h⟩ := spend_frame s d g
  rw [h]
  rfl

/-! ## A residue port (R37) -/

theorem rbufOf_setRbuf_same (s : State) (n q : Nat) (r : Bool) (b : RBuf) : (s.setRbuf n q r b).rbufOf n q r = b := by
  unfold State.setRbuf State.rbufOf
  split <;> simp

theorem robin_setRobin_same (s : State) (n k : Nat) (v : Nat × Nat) : (s.setRobin n k v).robin n k = v := by
  unfold State.setRobin State.robin
  split <;> simp

theorem rbufOf_setRobin (s : State) (n k q : Nat) (r : Bool) (v : Nat × Nat) : (s.setRobin n k v).rbufOf n q r = s.rbufOf n q r := by
  unfold State.setRobin State.rbufOf
  split <;> simp

/-- A flit that carries an event and has not waited leaves the network as that event, due at once. -/
theorem deliver_event (s : State) (f : RFlit) {e : Instr} (hp : f.part < 64) (hw : f.wait = 0) (hr : f.req = none) (he : f.ev = some e) :
    s.deliver f = s.now e := by
  have ha : State.isAtt f = false := by simp [State.isAtt, hp]
  simp [State.deliver, State.addWait, ha, hw, hr, he]

theorem robin_setRbuf (s : State) (n q k : Nat) (r : Bool) (b : RBuf) : (s.setRbuf n q r b).robin n k = s.robin n k := by
  unfold State.setRbuf State.robin
  split <;> simp

theorem rbufOf_now (s : State) (n q : Nat) (r : Bool) (e : Instr) : (s.now e).rbufOf n q r = s.rbufOf n q r := rfl
theorem robin_now (s : State) (n k : Nat) (e : Instr) : (s.now e).robin n k = s.robin n k := rfl

theorem rbufOf_spend (s : State) (n q d g : Nat) (r : Bool) : (s.spend d g).rbufOf n q r = s.rbufOf n q r := by
  simp [State.rbufOf, State.tile]

theorem robin_spend (s : State) (n k d g : Nat) : (s.spend d g).robin n k = s.robin n k := by
  simp [State.robin, State.tile]

theorem setRobin_netFrame {n : Nat} (hn : n ≠ ioNode) (s : State) (k : Nat) (v : Nat × Nat) : NetFrame s (s.setRobin n k v) := by
  rw [State.setRobin, if_neg hn]
  exact .modTile ..

theorem setRbuf_netFrame {n : Nat} (hn : n ≠ ioNode) (s : State) (q : Nat) (r : Bool) (b : RBuf) : NetFrame s (s.setRbuf n q r b) := by
  rw [State.setRbuf, if_neg hn]
  exact .modTile ..

/-- What a node's own port does with a flit that carries an event: the flit has left its buffer, its event is due in this cycle,
and the die has spent its tokens. -/
def PortSent (s t : State) (node q : Nat) (f : RFlit) (e : Instr) : Prop :=
  (t.rbufOf node q f.reply).flits = State.without f (s.rbufOf node q f.reply).flits ∧ Claims.SameMemory s t ∧
  (t.die (tileDie node)).spentTok = (s.die (tileDie node)).spentTok + Config.activity 4 ∧
  ∃ l, t.agenda = s.agenda ++ l ++ [(s.clock, e)] ∧ ∀ z ∈ l, z.2 = .issueGate (tileDie node)

/-- The round-robin state of a node is not among what `PortSent` speaks of. -/
theorem PortSent.of_setRobin {s t : State} {node q k : Nat} {f : RFlit} {e : Instr} {v : Nat × Nat} (hn : node ≠ ioNode)
    (h : PortSent (s.setRobin node k v) t node q f e) : PortSent s t node q f e := by
  have w := setRobin_netFrame hn s k v
  unfold PortSent at h
  rw [rbufOf_setRobin, w.clock, w.agenda, w.die] at h
  obtain ⟨hb, ⟨hm, ht, hp, he⟩, hd, ha⟩ := h
  have m := sameMemory_of_memory w.memory
  exact ⟨hb, ⟨fun a => (hm a).trans (m.1 a), ht.trans m.2.1, hp.trans m.2.2.1, he.trans m.2.2.2⟩, hd, ha⟩

section
variable {s : State} {node q : Nat} {f : RFlit} {e : Instr} (hn : node ≠ ioNode) (hq : q ≠ 4) (hr : f.req = none) (he : f.ev = some e)
  (hw : f.wait = 0) (hs : f.since = s.clock) (hp : f.part < 64)
include hn hq hr he hw hs hp

/-- A flit that reaches its node's own port without having waited is delivered there. -/
theorem sendFlit_own_port : s.sendFlit node 4 q f =
    ((s.setRbuf node q f.reply { flits := State.without f (s.rbufOf node q f.reply).flits }).spend (tileDie node) 4).now e := by
  have hc : (s.setRbuf node q f.reply { flits := State.without f (s.rbufOf node q f.reply).flits }).clock = s.clock :=
    (setRbuf_netFrame hn ..).clock
  unfold State.sendFlit
  simp only [hq, hn, if_false, if_true]
  exact deliver_event _ _ hp (by simp [hw, hs, hc]) hr he

theorem sendFlit_portSent : PortSent s (s.sendFlit node 4 q f) node q f e := by
  rw [sendFlit_own_port hn hq hr he hw hs hp]
  have w := setRbuf_netFrame hn s q f.reply { flits := State.without f (s.rbufOf node q f.reply).flits }
  have hb := rbufOf_setRbuf_same s node q f.reply { flits := State.without f (s.rbufOf node q f.reply).flits }
  generalize s.setRbuf node q f.reply { flits := State.without f (s.rbufOf node q f.reply).flits } = u at w hb ⊢
  obtain ⟨l, ha, hl⟩ := spend_agenda u (tileDie node) 4
  refine ⟨?_, sameMemory_of_memory ((spend_memory ..).trans w.memory), ?_, l, ?_, hl⟩
  · rw [rbufOf_now, rbufOf_spend, hb]
  · rw [← w.die]
    exact spend_spentTok u (tileDie node) 4
  · rw [State.now_agenda, ha, w.agenda, spend_clock, w.clock]

theorem sendFlit_own_port_robin (k : Nat) : (s.sendFlit node 4 q f).robin node k = s.robin node k := by
  rw [sendFlit_own_port hn hq hr he hw hs hp, robin_now, robin_spend, robin_setRbuf]

end

/-- A port with one request to send and no reply sends the request. -/
theorem exec_residueSlot_request {s : State} {node q : Nat} {f : RFlit} (h : s.residueFree node 4 = true)
    (hq : s.offers node 4 false = [(q, f)]) (hp : s.offers node 4 true = []) :
    ∃ v w, exec (.residueSlot node 4) s = .next (((s.setRobin node 8 v).setRobin node 9 w).sendFlit node 4 q f) := by
  show ∃ v w, execResidueSlot node 4 s = _
  unfold execResidueSlot
  simp only [h, hq, hp]
  exact ⟨_, _, rfl⟩

/-- A port with a reply and a request to send, and fewer than 8 replies in a row behind it, sends the reply and counts it. -/
theorem exec_residueSlot_reply {s : State} {node q q' : Nat} {f f' : RFlit} (h : s.residueFree node 4 = true)
    (hp : s.offers node 4 true = [(q, f)]) (hq : s.offers node 4 false = [(q', f')]) (hr : (s.robin node 9).2 < 8) :
    ∃ v w, w.2 = (s.robin node 9).2 + 1 ∧
      exec (.residueSlot node 4) s = .next (((s.setRobin node 9 v).setRobin node 9 w).sendFlit node 4 q f) := by
  show ∃ v w, _ ∧ execResidueSlot node 4 s = _
  unfold execResidueSlot
  simp only [h, hq, hp, hr]
  exact ⟨_, _, rfl, rfl⟩

theorem exec_residueSlot_taken {s : State} {node : Nat} (h : s.residueFree node 4 = false) :
    exec (.residueSlot node 4) s = .next s := by
  show execResidueSlot node 4 s = _
  simp [execResidueSlot, h]

/-! ## A finished move (R151, R231) -/

/-- What ends at gateways changes: the dies, and what is due. -/
def GatewayFrame (s t : State) : Prop := t = { s with dies := t.dies, agenda := t.agenda }

theorem GatewayFrame.trans {s t u : State} (h : GatewayFrame s t) (k : GatewayFrame t u) : GatewayFrame s u := by
  unfold GatewayFrame at h
  refine Eq.trans k ?_
  rw [h]

theorem schedOnce_gatewayFrame (s : State) (n : Nat) (e : Instr) : GatewayFrame s (s.schedOnce n e) := by
  unfold State.schedOnce
  split <;> rfl

theorem GatewayFrame.modGw (s : State) (n : Nat) (h : Gateway → Gateway) : GatewayFrame s (s.modGw n h) := rfl

theorem leaveGateways_gatewayFrame (s : State) (id : Nat) : GatewayFrame s (s.leaveGateways id) := by
  unfold State.leaveGateways
  refine List.foldlRecOn (motive := GatewayFrame s) _ _ rfl fun t h d _ => h.trans ?_
  dsimp only
  split
  · exact (GatewayFrame.modGw ..).trans (schedOnce_gatewayFrame ..)
  · exact .modGw ..

theorem sem_setSem_same (s : State) (c : CoreId) (n : Nat) (v : Nat × Bool) : (s.setSem c n v).sem c n = v := by
  unfold State.setSem State.sem
  split <;> simp [semGet]

/-- An increment of a semaphore: its count, or its overflow bit. -/
theorem sem_semInc_same (s : State) (c : CoreId) (n : Nat) : (s.semInc c n).sem c n =
    if (s.sem c n).1 = 65535 then ((s.sem c n).1, true) else ((s.sem c n).1 + 1, (s.sem c n).2) :=
  sem_setSem_same _ c n _

theorem moves_setSem (s : State) (c x : CoreId) (n : Nat) (v : Nat × Bool) : ((s.setSem c n v).core x).moves = (s.core x).moves := by
  unfold State.setSem
  split
  · by_cases h : x = c
    · simp [h]
    · rw [State.core_modCore_ne _ _ _ _ h]
  · rfl

theorem moves_semInc (s : State) (c x : CoreId) (n : Nat) : ((s.semInc c n).core x).moves = (s.core x).moves := moves_setSem ..

/-- An increment of a semaphore changes its core or tile, the semaphores that are to be served, and the fibres that it wakes. -/
theorem semInc_frame (s : State) (c : CoreId) (n : Nat) : s.semInc c n = { s with
    cores := (s.semInc c n).cores, tiles := (s.semInc c n).tiles, fibres := (s.semInc c n).fibres
    semOld := (s.semInc c n).semOld, semWork := (s.semInc c n).semWork } := by
  unfold State.semInc State.semChange State.setSem
  dsimp only
  split <;> rfl

/-- An event parks no fibre. -/
theorem latchOne_status_ne_parked {x : Fibre} (clock kind : Nat) (h : x.status ≠ .parked) :
    (State.latchOne clock kind x).status ≠ .parked := by
  unfold State.latchOne
  dsimp only
  split
  · exact h
  · split
    · split
      · exact h
      · simp
    · exact h

theorem tget_map_of_forall {α β : Type} [DecidableEq α] {P : β → Prop} {h : α × β → α × β} (hk : ∀ x, (h x).1 = x.1)
    (hp : ∀ x, P x.2 → P (h x).2)
    (d : β) (l : List (α × β)) (a : α) (hd : P (tget d l a)) : P (tget d (l.map h) a) := by
  induction l with
  | nil => exact hd
  | cons x l ih =>
    rw [List.map_cons, tget, hk]
    rw [tget] at hd
    split
    · rw [if_pos ‹_›] at hd
      exact hp x hd
    · rw [if_neg ‹_›] at hd
      exact ih hd

theorem latch_status_ne_parked {s : State} (kind : Nat) (who : FibreRef → Bool) {f : FibreRef} (h : (s.fib f).status ≠ .parked) :
    ((s.latch kind who).fib f).status ≠ .parked := by
  refine tget_map_of_forall (P := fun x : Fibre => x.status ≠ .parked) (fun x => ?_) (fun x hx => ?_) _ _ _ h
  · split <;> rfl
  · split
    · exact latchOne_status_ne_parked _ _ hx
    · exact hx

theorem mem_of_mem_tdel {α β : Type} [DecidableEq α] {l : List (α × β)} {a : α} {x : α × β} (h : x ∈ tdel l a) : x ∈ l := by
  induction l with
  | nil => exact h
  | cons y l ih =>
    rw [tdel] at h
    split at h
    · exact List.mem_cons_of_mem _ (ih h)
    · rcases List.mem_cons.mp h with rfl | h
      · exact List.mem_cons_self ..
      · exact List.mem_cons_of_mem _ (ih h)

/-- What is left of the package when a move has left the queue of its core. -/
def moveGone (s : State) (id : Nat) (c : CoreId) : State :=
  ({ s with moves := tdel s.moves id }.leaveGateways id).modCore c fun x => { x with moves := x.moves.filter (· != id) }

theorem moveGone_frame (s : State) (id : Nat) (c : CoreId) : moveGone s id c = { s with
    moves := tdel s.moves id, cores := (moveGone s id c).cores, dies := (moveGone s id c).dies, agenda := (moveGone s id c).agenda } := by
  have h := leaveGateways_gatewayFrame { s with moves := tdel s.moves id } id
  unfold GatewayFrame at h
  unfold moveGone
  rw [h]
  rfl

theorem moveGone_moves (s : State) (id : Nat) (c : CoreId) : (moveGone s id c).moves = tdel s.moves id := by
  rw [moveGone_frame]

theorem moveGone_fib (s : State) (id : Nat) (c : CoreId) : (moveGone s id c).fib = s.fib := by
  rw [moveGone_frame]
  rfl

theorem moveGone_memory (s : State) (id : Nat) (c : CoreId) : (moveGone s id c).memory = s.memory := by
  rw [moveGone_frame]
  rfl

theorem moveGone_core (s : State) (id : Nat) (c : CoreId) :
    (moveGone s id c).core c = { s.core c with moves := (s.core c).moves.filter (· != id) } := by
  have h := leaveGateways_gatewayFrame { s with moves := tdel s.moves id } id
  unfold GatewayFrame at h
  rw [moveGone, State.core_modCore_same, h]
  rfl

theorem moveGone_sem (s : State) (id n : Nat) (c : CoreId) : (moveGone s id c).sem c n = s.sem c n := by
  rw [State.sem, moveGone_core, State.tile, moveGone_frame]
  rfl

theorem fib_semChange (s : State) (c : CoreId) (n : Nat) (v : Nat × Bool) : (s.semChange c n v).fib = s.fib := by
  unfold State.semChange State.setSem
  dsimp only
  split <;> rfl

theorem semInc_status_ne_parked {s : State} (c : CoreId) (n : Nat) {f : FibreRef} (h : (s.fib f).status ≠ .parked) :
    ((s.semInc c n).fib f).status ≠ .parked :=
  latch_status_ne_parked _ _ ((fib_semChange s c n _).symm ▸ h)

/-- Where no move waits for an entry of the queue, none is found. -/
theorem find_checking_none {l : List (Nat × Move)} (h : ∀ x ∈ l, x.2.checking = false) (c : CoreId) (fib : FibreRef → Fibre) :
    l.find? (fun x => x.2.who.core == c && x.2.checking && (fib x.2.who).park == 11 && (fib x.2.who).cont == .move x.1) = none := by
  rw [List.find?_eq_none]
  intro x hx
  simp [h x hx]

theorem recheck_not_parked {s : State} {f : FibreRef} (h : (s.fib f).status ≠ .parked) : s.recheck f = s := by
  unfold State.recheck
  exact if_pos h

/-- A move of the queue whose fibre is not parked is done, where no move waits for its entry: nothing else happens. -/
theorem exec_moveCompletion {s : State} {id : Nat} {m : Move} (hm : s.move id = some m) (hc : ∀ x ∈ s.moves, x.2.checking = false)
    (hs : m.who.slot < 256) (hp : (s.fib m.who).status ≠ .parked) :
    exec (.moveCompletion id) s = .next ((moveGone s id m.who.core).semInc m.who.core m.sem) := by
  show execMoveCompletion id s = _
  have hfind : ∀ x ∈ ((moveGone s id m.who.core).semInc m.who.core m.sem).moves, x.2.checking = false := by
    rw [semInc_frame, moveGone_moves]
    exact fun x hx => hc x (mem_of_mem_tdel hx)
  have hstatus : (((moveGone s id m.who.core).semInc m.who.core m.sem).fib m.who).status ≠ .parked :=
    semInc_status_ne_parked _ _ ((moveGone_fib s id m.who.core).symm ▸ hp)
  unfold moveGone at *
  simp only [execMoveCompletion, hm, Nat.not_le.mpr hs, if_false, find_checking_none hfind]
  rw [recheck_not_parked hstatus]

/-- Settles O39: the flit that a port picks is sent by `sendFlit`; a finished move is `moveGone` and one increment. -/
theorem residueAndMoveEvents : Obligations.ResidueAndMoveEvents := by
  unfold Obligations.ResidueAndMoveEvents
  intro s node q q' id fl fl' e m
  refine ⟨fun hn hq hq' hf hr he hw hs hp => ⟨fun _ ho hp0 => ?_, fun _ _ ho ho' hrun => ?_⟩, exec_residueSlot_taken, ?_⟩
  · obtain ⟨v, w, h⟩ := exec_residueSlot_request hf ho hp0
    have hn' : node ≠ ioNode := Nat.ne_of_lt hn
    have hs' : fl.since = ((s.setRobin node 8 v).setRobin node 9 w).clock := by
      rw [(setRobin_netFrame hn' _ _ _).clock, (setRobin_netFrame hn' _ _ _).clock, hs]
    exact ⟨_, h, ((sendFlit_portSent hn' (Nat.ne_of_lt hq) hr he hw hs' hp).of_setRobin hn').of_setRobin hn'⟩
  · obtain ⟨v, w, hw2, h⟩ := exec_residueSlot_reply hf ho ho' hrun
    have hn' : node ≠ ioNode := Nat.ne_of_lt hn
    have hs' : fl.since = ((s.setRobin node 9 v).setRobin node 9 w).clock := by
      rw [(setRobin_netFrame hn' _ _ _).clock, (setRobin_netFrame hn' _ _ _).clock, hs]
    refine ⟨_, h, ((sendFlit_portSent hn' (Nat.ne_of_lt hq) hr he hw hs' hp).of_setRobin hn').of_setRobin hn', ?_⟩
    rw [sendFlit_own_port_robin hn' (Nat.ne_of_lt hq) hr he hw hs' hp, robin_setRobin_same, hw2]
  · intro hm hc hslot hpk
    refine ⟨_, exec_moveCompletion hm hc hslot hpk, ?_, ?_, sameMemory_of_memory ?_, ?_⟩
    · rw [State.move, semInc_frame, moveGone_moves, tfind_tdel_same]
    · rw [moves_semInc, moveGone_core]
      exact List.filter_congr fun x _ => by by_cases h : x = id <;> simp [h]
    · rw [semInc_frame]
      exact moveGone_memory s id m.who.core
    · rw [sem_semInc_same, moveGone_sem]

end Sys2Proof.Machine

namespace Sys2Proof.Machine

/-! ## What a trap changes (R256 to R258) -/

/-- What a trap, a fault or a wake of a fibre may change: fibres, cores, tiles, gangs, clusters, dies, moves, what is due, and memory by
a trace record. The package, the partitions, the flights, the messages and the clock stay. -/
def CoreFrame (s t : State) : Prop :=
  t = { s with
    agenda := t.agenda, fibres := t.fibres, cores := t.cores, tiles := t.tiles, gangs := t.gangs, clusters := t.clusters
    dies := t.dies, moves := t.moves, mem := t.mem, tags := t.tags, poison := t.poison, errors := t.errors }

namespace CoreFrame

theorem refl (s : State) : CoreFrame s s := rfl

theorem trans {s t u : State} (h : CoreFrame s t) (k : CoreFrame t u) : CoreFrame s u := by
  unfold CoreFrame at h
  refine Eq.trans k ?_
  rw [h]

theorem pkg {s t : State} (h : CoreFrame s t) : t.pkg = s.pkg := by
  unfold CoreFrame at h
  rw [h]

theorem ite {s t u : State} {c : Prop} [Decidable c] (h : CoreFrame s t) (k : CoreFrame s u) : CoreFrame s (if c then t else u) := by
  split
  · exact h
  · exact k

theorem foldl {α : Type} {s t : State} (h : CoreFrame s t) {g : State → α → State} (k : ∀ s a, CoreFrame s (g s a)) (l : List α) :
    CoreFrame s (l.foldl g t) :=
  List.foldlRecOn (motive := CoreFrame s) _ _ h fun u hu a _ => hu.trans (k u a)

section
variable {s t : State} (h : CoreFrame s t)
include h

theorem modFib (f : FibreRef) (g : Fibre → Fibre) : CoreFrame s (t.modFib f g) := h.trans rfl
theorem modCore (c : CoreId) (g : Core → Core) : CoreFrame s (t.modCore c g) := h.trans rfl
theorem modTile (n : Nat) (g : Tile → Tile) : CoreFrame s (t.modTile n g) := h.trans rfl
theorem setGang (n : Nat) (g : Gang) : CoreFrame s (t.setGang n g) := h.trans rfl
theorem modDie (n : Nat) (g : Die → Die) : CoreFrame s (t.modDie n g) := h.trans rfl
theorem modCluster (n : Nat) (g : Cluster → Cluster) : CoreFrame s (t.modCluster n g) := h.trans rfl
theorem writeBytes (a : Nat) (bs : List Byte) : CoreFrame s (t.writeBytes a bs) := h.trans rfl
theorem latch (n : Nat) (g : FibreRef → Bool) : CoreFrame s (t.latch n g) := h.trans rfl
theorem ready (f : FibreRef) : CoreFrame s (t.ready f) := h.trans rfl
theorem complete (f : FibreRef) : CoreFrame s (t.complete f) := h.trans rfl
theorem parkF (f : FibreRef) (n : Nat) (c : Cont) : CoreFrame s (t.parkF f n c) := h.trans rfl
theorem ringState (c : CoreId) (n st : Nat) : CoreFrame s (t.ringState c n st) := h.trans rfl

theorem schedOnce (n : Nat) (e : Instr) : CoreFrame s (t.schedOnce n e) := ite h (h.trans rfl)

theorem report (d p : Nat) (r : Report) : CoreFrame s (t.report d p r) := ite (modDie h ..) (latch (modDie h ..) ..)

theorem reportFibre (f : FibreRef) (k c : Nat) (a e : Word) : CoreFrame s (t.reportFibre f k c a e) := ite h (report h ..)

theorem leaveWaits (f : FibreRef) : CoreFrame s (t.leaveWaits f) := by
  refine h.trans ?_
  unfold State.leaveWaits
  exact ite rfl rfl

theorem wakePending (f : FibreRef) : CoreFrame s (t.wakePending f) := ite (ready (leaveWaits h _) _) h

theorem abandonPending (f : FibreRef) : CoreFrame s (t.abandonPending f) := ite (wakePending h _) h

theorem imprecise (f : FibreRef) (c : Nat) (e : Word) (n : Nat) : CoreFrame s (t.imprecise f c e n) :=
  ite (reportFibre h ..) (ite (modFib h ..) (wakePending (modFib h ..) _))

theorem wakeEng (c : CoreId) : CoreFrame s (t.wakeEng c) := by
  unfold State.wakeEng
  exact foldl h (fun u (f : FibreRef × Fibre) => ready (refl u) f.1) _

theorem ringStates (c : CoreId) (l : List Disp) (st : Nat) : CoreFrame s (l.foldl (fun u d => u.ringState c d.seq st) t) :=
  foldl h (fun u d => ringState (refl u) c d.seq st) l

theorem discardQueued (f : FibreRef) : CoreFrame s (t.discardQueued f) := by
  unfold State.discardQueued
  have ring := ringStates (modCore h f.core fun c => { c with disp := c.disp.filter fun d => d.slot != f.slot }) f.core
    ((t.core f.core).disp.filter fun d => d.slot == f.slot) 3
  have woken := schedOnce (wakeEng ring f.core)
  dsimp only
  split
  · split
    · exact ready (ite ring (woken ..)) f
    · exact ite ring (woken ..)
  · exact ite ring (woken ..)

theorem discardGangOp (o : GangOp) (a b : Nat) : CoreFrame s (t.discardGangOp o a b) := imprecise (ringState h ..) ..

theorem gangFault (n : Nat) (o : GangOp) (a b : Nat) : CoreFrame s (t.gangFault n o a b) := by
  unfold State.gangFault
  refine discardGangOp (discardQueued (foldl ?_ (fun u x => ringState (refl u) ..) _) _) ..
  exact setGang h n _

theorem gangBreak (n : Nat) : CoreFrame s (t.gangBreak n) := by
  unfold State.gangBreak
  exact foldl (setGang h n _) (fun u o => gangFault (refl u) n o 0 15) _

theorem breakFor (f : FibreRef) : CoreFrame s (t.breakFor f) := ite h (ite (gangBreak h _) h)

theorem exitCheck (f : FibreRef) : CoreFrame s (t.exitCheck f) := by
  unfold State.exitCheck
  dsimp only
  split
  · exact ite h (ite (abandonPending (schedOnce (parkF h ..) ..) _) (ite h (schedOnce h ..)))
  · exact h

theorem beginExit (f : FibreRef) : CoreFrame s (t.beginExit f) := exitCheck (parkF (leaveWaits h _) ..) _

theorem markFault (f : FibreRef) : CoreFrame s (t.markFault f) := ite (modDie h ..) h

theorem trace (f : FibreRef) (k : Nat) (p q : Word) : CoreFrame s (t.trace f k p q) := by
  unfold State.trace
  dsimp only
  split
  · exact h
  · split
    · exact modCluster (writeBytes h ..) ..
    · exact h

/-- A trap entry leaves the package, the partitions, the flights, the messages and the clock as they were. -/
theorem trapEntry (f : FibreRef) (c : Nat) (e : Word) (b : Bool) (p : Word) : CoreFrame s (t.trapEntry f c e b p) := by
  unfold State.trapEntry
  exact ite (beginExit (modFib (markFault (reportFibre h ..) _) ..) _) (breakFor (trace (modFib h ..) ..) _)

end

end CoreFrame

end Sys2Proof.Machine

namespace Sys2Proof.Machine

/-! ## Results of the Intercalator (R44) -/

theorem modAccess_tiles (s : State) (id : Nat) (h : Access → Access) : (s.modAccess id h).tiles = s.tiles := by
  unfold State.modAccess
  split <;> rfl

theorem mergeFlit_tiles {s t : State} {b : RBuf} {f : RFlit} (h : s.mergeFlit b f = some t) : t.tiles = s.tiles := by
  unfold State.mergeFlit at h
  split at h
  · rw [← Option.some.inj h, modAccess_tiles, modAccess_tiles]
  · cases h

theorem mergeFlit_getD_tiles {s t : State} (b : RBuf) (f : RFlit) (h : t.tiles = s.tiles) : ((s.mergeFlit b f).getD t).tiles = s.tiles := by
  cases e : s.mergeFlit b f with
  | none => exact h
  | some u =>
    exact mergeFlit_tiles e

/-- The I/O die's buffers are none of a tile. -/
theorem letInIo_tiles (s : State) : s.letInIo.tiles = s.tiles := by
  rw [letInIo_eq]
  refine List.foldlRecOn (motive := fun p : State × List RFlit => p.1.tiles = s.tiles) _ _ rfl fun p hp f _ => ?_
  unfold letInIoStep
  dsimp only
  split
  · dsimp only
    rw [mergeFlit_getD_tiles _ _ (State.modPkg_tiles ..), hp]
  · exact hp

theorem inject_ioNode_tiles (s : State) (f : RFlit) : (s.inject ioNode f).tiles = s.tiles := letInIo_tiles _

section
variable (s : State) (f : FibreRef) (p : Nat) (w : Word)

theorem circReply_netFrame : NetFrame (s.modIc fun i => { i with results := i.results ++ [(f, w)] }) (s.circReply f p w) :=
  inject_netFrame ..

theorem circReply_ic : (s.circReply f p w).pkg.ic = { s.pkg.ic with results := s.pkg.ic.results ++ [(f, w)] } :=
  (circReply_netFrame s f p w).ic
theorem circReply_circuits : (s.circReply f p w).pkg.circuits = s.pkg.circuits := (circReply_netFrame s f p w).circuits
theorem circReply_memory : (s.circReply f p w).memory = s.memory := (circReply_netFrame s f p w).memory
theorem circReply_tiles : (s.circReply f p w).tiles = s.tiles := inject_ioNode_tiles ..
theorem circReply_tile (n : Nat) : (s.circReply f p w).tile n = s.tile n := by rw [State.tile, circReply_tiles, State.tile]

end

theorem schedOnce_pkg (s : State) (n : Nat) (e : Instr) : (s.schedOnce n e).pkg = s.pkg := (CoreFrame.schedOnce (.refl s) n e).pkg

/-! ## Requests (R44) -/

/-- The Intercalator takes a request: its fibre's waiting is counted, and it has the next number. -/
def requestBegun (s : State) (r : CircReq) : State :=
  (s.modFib r.who fun x => { x with delay := x.delay + s.waitedSince r.part r.since }).modIc fun i =>
    { i with seq := (i.seq + 1) % 65536, accepted := (i.seq + 1) % 65536 }

theorem circTake_query {s : State} {r : CircReq} {c : Circuit} (h : r.fn = 4) (hc : s.circuit r.part (field r.a 11 0) = some c) :
    s.circTake r = (requestBegun s r).circReply r.who r.part (cqryWord c (s.slotsAhead c)) := by
  have hc' : (requestBegun s r).circuit r.part (field r.a 11 0) = some c := hc
  unfold requestBegun at hc'
  simp only [State.circTake, h, hc']
  rfl

/-- CSHUT, CRSZ and CRSZ.ARM of a handle that names no circuit fail with code 7. -/
theorem circTake_no_circuit {s : State} {r : CircReq} (h1 : 1 ≤ r.fn) (h3 : r.fn ≤ 3) (hc : s.circuit r.part (field r.a 11 0) = none) :
    s.circTake r = (requestBegun s r).circReply r.who r.part (circWord 7 0 (field r.a 11 0)) := by
  have hc' : (requestBegun s r).circuit r.part (field r.a 11 0) = none := hc
  have hn : State.circNamed r = field r.a 11 0 := if_neg (by omega)
  have hf : r.fn = 1 ∨ r.fn = 2 ∨ r.fn = 3 := by omega
  unfold requestBegun at hc'
  rcases hf with hf | hf | hf <;> simp only [State.circTake, hf, hc', State.circFail, hn] <;> rfl

/-- What the Intercalator does with a request that it answers at once. -/
def Answered (s t : State) (rest : List CircReq) (f : FibreRef) (w : Word) : Prop :=
  t.pkg.ic.results = s.pkg.ic.results ++ [(f, w)] ∧ t.pkg.ic.queue = rest ∧ t.pkg.circuits = s.pkg.circuits ∧ Claims.SameMemory s t

theorem exec_intercalatorRequest {s : State} {r : CircReq} {rest : List CircReq} (ha : s.pkg.ic.active = none) (hq : s.pkg.ic.queue = r :: rest) :
    exec .intercalatorRequest s = .next (
      let t := (s.modIc fun i => { i with queue := rest }).circTake r
      if rest.isEmpty then t else t.schedOnce t.clock .intercalatorRequest) := by
  show execIntercalatorRequest s = _
  simp only [execIntercalatorRequest, ha, hq]

/-- A request that is answered at once leaves its result, and the next request its turn. -/
theorem intercalatorRequest_answers {s : State} {r : CircReq} {rest : List CircReq} {w : Word} (ha : s.pkg.ic.active = none)
    (hq : s.pkg.ic.queue = r :: rest)
    (hw : (s.modIc fun i => { i with queue := rest }).circTake r =
      (requestBegun (s.modIc fun i => { i with queue := rest }) r).circReply r.who r.part w) :
    Claims.Completes .intercalatorRequest s fun t => Answered s t rest r.who w := by
  refine ⟨_, exec_intercalatorRequest ha hq, ?_⟩
  rw [hw]
  generalize hu : requestBegun (s.modIc fun i => { i with queue := rest }) r = u
  have hic : u.pkg.ic.results = s.pkg.ic.results ∧ u.pkg.ic.queue = rest ∧ u.pkg.circuits = s.pkg.circuits ∧ u.memory = s.memory := by
    subst hu
    exact ⟨rfl, rfl, rfl, rfl⟩
  obtain ⟨h1, h2, h3, h4⟩ := hic
  have answered (v : State) (hp : v.pkg = (u.circReply r.who r.part w).pkg) (hm : v.memory = (u.circReply r.who r.part w).memory) :
      Answered s v rest r.who w :=
    ⟨by rw [hp, circReply_ic, h1], by rw [hp, circReply_ic, h2], by rw [hp, circReply_circuits, h3],
      sameMemory_of_memory (hm.trans ((circReply_memory ..).trans h4))⟩
  dsimp only
  split
  · exact answered _ rfl rfl
  · exact answered _ (schedOnce_pkg ..) (schedOnce_memory ..)

/-! ## Configuration flits (R41, R42) -/

/-- The last configuration flit of a resize: the commit wheel is fixed, and the records are on their way both north and south. -/
theorem exec_configurationFlit_last {s : State} {m : Commit} {a : Nat} {rec : CRecord} (ha : s.pkg.ic.active = some m)
    (hq : m.queue = [(a, rec)]) (hf : m.fn = 2) (hr : m.remove = []) :
    exec .configurationFlit s = .next (
      let t := ((((s.now (.configForward rec.x 15)).now (.configForward rec.x 16)).modIc fun i => { i with
        active := none
        commits := i.commits ++ [{ m with queue := [], sent := m.sent ++ [(s.wheel, rec.x, a, [rec])], wc := s.wheel + 16 }] }).sched
          ((s.wheel + 16) * 1024) (.intercalation m.seq))
      t.schedOnce t.clock .intercalatorRequest) := by
  show execConfigurationFlit s = _
  have hc : [rec.x].eraseDups = [rec.x] := by simp [List.eraseDups_cons]
  simp [execConfigurationFlit, ha, hq, hf, hr, hc]
  rfl

theorem mem_schedOnce {s : State} {n : Nat} {e : Instr} {x : Nat × Instr} (h : x ∈ s.agenda) : x ∈ (s.schedOnce n e).agenda := by
  unfold State.schedOnce
  split
  · exact h
  · exact List.mem_append_left _ h

theorem isDue_of_mem {s : State} {n : Nat} {e : Instr} (h : (n, e) ∈ s.agenda) : s.isDue e = true :=
  List.any_eq_true.mpr ⟨_, h, beq_self_eq_true e⟩

/-- A configuration flit on its way south or north of the bridge row reaches its tile's router, which stages the records that are all
for this tile, and goes on to the next. -/
theorem exec_configForward_north {s : State} {m : Commit} {a x y : Nat} {recs : List CRecord} (ha : s.pkg.ic.active = none)
    (hc : s.pkg.ic.commits = [m]) (hd : s.dieOpen (tileDie (48 * y + x)) = true)
    (hl : ((s.tile (48 * y + x)).shadow.map fun st => st.recs.length).sum + recs.length ≤ 64)
    (hm : m.sent = [(s.wheel - (15 - y), x, a, recs)]) (hw : 15 - y ≤ s.wheel) (h1 : 1 ≤ y) (h15 : y ≤ 15) (hr : recs ≠ [])
    (hy : ∀ q ∈ recs, q.y = y) :
    exec (.configForward x y) s = .next ((s.modTile (48 * y + x) fun t => { t with shadow := t.shadow ++ [⟨m.seq, a, recs⟩] }).sched
      (s.clock + 1024) (.configForward x (y - 1))) := by
  show execConfigForward x y s = _
  have hf : recs.filter (fun r => r.y == y) = recs := by
    rw [List.filter_eq_self]
    intro q hq
    simp [hy q hq]
  have hs : s.wheel - (15 - y) + (15 - y) = s.wheel := Nat.sub_add_cancel hw
  have hsum : ((s.tile (48 * y + x)).shadow.map fun st => st.recs.length).foldl (· + ·) 0 =
      ((s.tile (48 * y + x)).shadow.map fun st => st.recs.length).sum := by
    rw [List.sum_eq_foldl]
  have ht : recs.take (64 - ((s.tile (48 * y + x)).shadow.map fun st => st.recs.length).sum) = recs := List.take_of_length_le (by omega)
  have hroom : 64 - ((s.tile (48 * y + x)).shadow.map fun st => st.recs.length).sum ≠ 0 := by
    have := List.length_pos_iff.mpr hr
    omega
  have h0 : y ≠ 0 := by omega
  have h31 : y ≠ 31 := by omega
  simp [execConfigForward, ha, hc, hm, h15, hs, hf, hr, hsum, ht, hroom, hd, h0, h31]

end Sys2Proof.Machine

namespace Sys2Proof.Machine

/-! ## Slot tables (R26, R43) -/

/-- The entries of a record, written into a tile's tables: slot 0 stays. -/
def putSlots (l : List ((Nat × Nat) × Entry)) (r : CRecord) : List ((Nat × Nat) × Entry) :=
  (recordSlots r).foldl (fun l z => if z = 0 then l else tset l (r.tbl, z) r.entry) l

theorem putRecord_write (s : State) (r : CRecord) :
    s.putRecord r true = s.modTile (48 * r.y + r.x) fun t => { t with slots := putSlots t.slots r } := rfl

/-- A slot that a record names holds its entry, and every other slot what it held. -/
theorem tfind_putSlots (l : List ((Nat × Nat) × Entry)) (r : CRecord) (k : Nat × Nat) :
    tfind (putSlots l r) k = if k.1 = r.tbl ∧ k.2 ∈ recordSlots r ∧ k.2 ≠ 0 then some r.entry else tfind l k := by
  have h (zs : List Nat) : tfind (zs.foldl (fun l z => if z = 0 then l else tset l (r.tbl, z) r.entry) l) k =
      if k.1 = r.tbl ∧ k.2 ∈ zs ∧ k.2 ≠ 0 then some r.entry else tfind l k := by
    induction zs generalizing l with
    | nil => simp
    | cons z zs ih =>
      rw [List.foldl_cons, ih]
      by_cases hk : k = (r.tbl, z)
      · subst hk
        by_cases hz : z = 0 <;> simp [hz]
      · have hold : tfind (if z = 0 then l else tset l (r.tbl, z) r.entry) k = tfind l k := by
          split
          · rfl
          · exact tfind_tset_ne _ _ hk
        have hne : k.1 = r.tbl → k.2 ≠ z := fun h1 h2 => hk (Prod.ext h1 h2)
        rw [hold]
        exact ite_congr (propext (by grind)) (fun _ => rfl) fun _ => rfl
  exact h _

/-- Every slot that one of some records names holds the entry of one of them. -/
theorem tfind_foldl_putSlots (recs : List CRecord) (l : List ((Nat × Nat) × Entry)) {k : Nat × Nat} (hk : k.2 ≠ 0)
    (h : ∃ q ∈ recs, k.1 = q.tbl ∧ k.2 ∈ recordSlots q) : ∃ q ∈ recs, tfind (recs.foldl putSlots l) k = some q.entry := by
  obtain ⟨back, rfl⟩ : ∃ back : List CRecord, recs = back.reverse := ⟨recs.reverse, recs.reverse_reverse.symm⟩
  induction back with
  | nil =>
    obtain ⟨q, hq, -⟩ := h
    cases hq
  | cons r back ih =>
    rw [List.reverse_cons] at h ⊢
    rw [List.foldl_append, List.foldl_cons, List.foldl_nil, tfind_putSlots]
    by_cases hr : k.1 = r.tbl ∧ k.2 ∈ recordSlots r ∧ k.2 ≠ 0
    · exact ⟨r, List.mem_append_right _ (List.mem_singleton_self r), if_pos hr⟩
    · obtain ⟨q, hq, ht, hs⟩ := h
      have hq' : q ∈ back.reverse := by
        rcases List.mem_append.mp hq with h | h
        · exact h
        · rw [List.mem_singleton] at h
          exact absurd ⟨h ▸ ht, h ▸ hs, hk⟩ hr
      obtain ⟨q', hm, he⟩ := ih ⟨q, hq', ht, hs⟩
      exact ⟨q', List.mem_append_left _ hm, (if_neg hr).trans he⟩

/-- The records of one tile change its tables and nothing else of it. -/
theorem foldl_putRecord_tile {n : Nat} (recs : List CRecord) (s : State) (h : ∀ q ∈ recs, 48 * q.y + q.x = n) :
    NetFrame s (recs.foldl (fun s r => s.putRecord r true) s) ∧
    (recs.foldl (fun s r => s.putRecord r true) s).tile n = { s.tile n with slots := recs.foldl putSlots (s.tile n).slots } := by
  induction recs generalizing s with
  | nil => exact ⟨.refl s, rfl⟩
  | cons r recs ih =>
    obtain ⟨hn, h⟩ := List.forall_mem_cons.mp h
    obtain ⟨hf, ht⟩ := ih (s.putRecord r true) h
    refine ⟨NetFrame.trans (.modTile ..) hf, ?_⟩
    rw [List.foldl_cons, ht, putRecord_write, hn, State.tile_modTile_same]
    rfl

/-! ## The commit of a COPEN (R43, R44) -/

/-- The state in which the records that a commit has staged at the one tile of the package have been written, and the I/O die's. -/
def openTables (s : State) (m : Commit) : State :=
  let u := s.applyStaged m [0, 1]
  (u.pkg.circuits.filter fun c => m.about c && c.state != 3).foldl (fun u c => u.putIo (ioEntries c.hops (circSlots c)) true) u

theorem putIo_netFrame (s : State) (l : List ((Nat × Nat) × Entry)) (w : Bool) : NetFrame s (s.putIo l w) := rfl

theorem foldl_putIo_tiles {α : Type} (e : α → List ((Nat × Nat) × Entry)) (w : Bool) (l : List α) (s : State) :
    (l.foldl (fun u c => u.putIo (e c) w) s).tiles = s.tiles :=
  List.foldlRecOn (motive := fun t : State => t.tiles = s.tiles) _ _ rfl fun _ h _ _ => h

/-- A circuit that waits for its commit is one that the commit is about. -/
theorem about_of_circuit {s : State} {m : Commit} {c : Circuit} (hc : s.circuit m.part m.cid = some c) (h1 : m.count = 1) (hw : c.wc ≤ m.wc) :
    m.about c = true := by
  have h := List.find?_some hc
  simp only [Bool.and_eq_true, beq_iff_eq] at h
  simp [Commit.about, h.1, h.2, h1, hw]

/-- The staged records of a commit are all that its one tile has, and each has its circuit: they are all written. -/
theorem applyStaged_one {s : State} {m : Commit} {n : Nat} {tl : Tile} {recs : List CRecord} {c : Circuit} (ht : s.tiles = [(n, tl)])
    (hs : tl.shadow = [⟨m.seq, 0, recs⟩]) (he : ∀ q ∈ recs, entryPtag q.entry = m.part ∧ entryCid q.entry = m.cid)
    (hc : s.circuit m.part m.cid = some c) (h3 : c.state ≠ 3) (hh : c.hops ≠ []) (ha : m.about c = true) :
    s.applyStaged m [0, 1] = recs.foldl (fun s r => s.putRecord r true) (s.modTile n fun t => { t with shadow := [] }) := by
  have hl : recs.filter (State.recordLive (s.modTile n fun t => { t with shadow := [] }) m) = recs := by
    rw [List.filter_eq_self]
    intro q hq
    have hc' : (s.modTile n fun t => { t with shadow := [] }).circuit m.part m.cid = some c := hc
    simp [State.recordLive, he q hq, hc', h3, hh, ha]
  have htile : s.tile n = tl := by simp [State.tile, ht, tget]
  have hm : (s.modTile n fun x => { x with shadow := x.shadow.filter fun st => !(st.seq == m.seq && [0, 1].contains st.action) }) =
      s.modTile n fun t => { t with shadow := [] } := by
    simp [State.modTile, htile, hs]
  have hf : [(n, tl)].filter (fun t : Nat × Tile => t.2.shadow.any fun st => st.seq == m.seq && [0, 1].contains st.action) = [(n, tl)] := by
    simp [hs]
  have hmine : tl.shadow.filter (fun st => st.seq == m.seq && [0, 1].contains st.action) = [⟨m.seq, 0, recs⟩] := by
    simp [hs]
  unfold State.applyStaged
  simp only [ht, hf, hmine, hm, hl, List.foldl_cons, List.foldl_nil]
  rfl

/-- A circuit at the commit of a COPEN. -/
def openedBy (m : Commit) (c : Circuit) : Circuit := if m.about c then { c with state := if c.state = 1 then 2 else c.state } else c

theorem openedBy_handle (m : Commit) (c : Circuit) : (openedBy m c).part = c.part ∧ (openedBy m c).cid = c.cid := by
  unfold openedBy
  split <;> exact ⟨rfl, rfl⟩

/-- A COPEN's commit: what is staged is written, its circuits are OPEN, and its result leaves. -/
theorem exec_intercalation_open {s : State} {m : Commit} (hc : s.pkg.ic.commits = [m]) (hf : m.fn = 0) (hr : m.remove = []) :
    exec (.intercalation m.seq) s = .next ((((openTables s m).modIc fun i => { i with
        commits := i.commits.filter fun x => x.seq != m.seq }).modPkg fun k => { k with
        circuits := k.circuits.map (openedBy m) }).circReply m.who m.part (circWord 0 m.wc m.cid)) := by
  show execIntercalation m.seq s = _
  simp [execIntercalation, hc, hf, hr, openTables]
  rfl

/-- An almanac's or a request's circuits change one by one: the first of a handle is the one that was. -/
theorem find_map_circuit {p cid : Nat} {l : List Circuit} {g : Circuit → Circuit} (hg : ∀ c, (g c).part = c.part ∧ (g c).cid = c.cid) :
    (l.map g).find? (fun c => c.part == p && c.cid == cid) = (l.find? fun c => c.part == p && c.cid == cid).map g := by
  have hkey : (fun c : Circuit => c.part == p && c.cid == cid) ∘ g = fun c => c.part == p && c.cid == cid := by
    funext c
    obtain ⟨hp, hc⟩ := hg c
    simp only [Function.comp, hp, hc]
  rw [List.find?_map, hkey]

section
variable {s : State} {m : Commit} {n : Nat} {tl : Tile} {recs : List CRecord} {c : Circuit} (ht : s.tiles = [(n, tl)])
  (hs : tl.shadow = [⟨m.seq, 0, recs⟩]) (hn : ∀ q ∈ recs, 48 * q.y + q.x = n)
  (he : ∀ q ∈ recs, entryPtag q.entry = m.part ∧ entryCid q.entry = m.cid) (hc : s.circuit m.part m.cid = some c)
  (h3 : c.state ≠ 3) (hh : c.hops ≠ []) (ha : m.about c = true)
include ht hs hn he hc h3 hh ha

theorem openTables_frame : NetFrame s (openTables s m) ∧
    (openTables s m).tile n = { tl with shadow := [], slots := recs.foldl putSlots tl.slots } := by
  obtain ⟨hf, hl⟩ := foldl_putRecord_tile recs (s.modTile n fun t => { t with shadow := [] }) hn
  have htl : s.tile n = tl := by simp [State.tile, ht, tget]
  rw [← applyStaged_one ht hs he hc h3 hh ha] at hf hl
  refine ⟨(NetFrame.modTile s n _).trans (hf.trans ?_), ?_⟩
  · exact NetFrame.foldl (fun u c => putIo_netFrame u ..) _ _
  · have htiles : (openTables s m).tiles = (s.applyStaged m [0, 1]).tiles := foldl_putIo_tiles ..
    rw [State.tile, htiles, ← State.tile.eq_1, hl, State.tile_modTile_same, htl]

end

/-- The commit of a COPEN whose records are staged at one tile (R43, R44). -/
theorem intercalation_opens {s : State} {m : Commit} {n : Nat} {tl : Tile} {recs : List CRecord} {c : Circuit} (hm : s.pkg.ic.commits = [m])
    (ht : s.tiles = [(n, tl)]) (hs : tl.shadow = [⟨m.seq, 0, recs⟩]) (hn : ∀ q ∈ recs, 48 * q.y + q.x = n)
    (he : ∀ q ∈ recs, entryPtag q.entry = m.part ∧ entryCid q.entry = m.cid) (hf : m.fn = 0) (h1 : m.count = 1) (hr : m.remove = [])
    (hc : s.circuit m.part m.cid = some c) (hst : c.state = 1) (hh : c.hops ≠ []) (hw : c.wc ≤ m.wc) :
    Claims.Completes (.intercalation m.seq) s fun t =>
      t.circuit m.part m.cid = some { c with state := 2 } ∧ t.pkg.ic.results = s.pkg.ic.results ++ [(m.who, circWord 0 m.wc m.cid)] ∧
      t.pkg.ic.commits = [] ∧ (t.tile n).shadow = [] ∧ Claims.SameMemory s t ∧
      ∀ q ∈ recs, ∀ z ∈ recordSlots q, z ≠ 0 → ∃ q' ∈ recs, tfind (t.tile n).slots (q.tbl, z) = some q'.entry := by
  have ha := about_of_circuit hc h1 hw
  obtain ⟨hN, hT⟩ := openTables_frame ht hs hn he hc (by omega) hh ha
  refine ⟨_, exec_intercalation_open hm hf hr, ?_⟩
  generalize openTables s m = u at hN hT
  rw [circReply_tile]
  refine ⟨?_, ?_, ?_, ?_, sameMemory_of_memory ((circReply_memory ..).trans hN.memory), fun q hq z hz h0 => ?_⟩
  · rw [State.circuit, circReply_circuits]
    show (u.pkg.circuits.map (openedBy m)).find? _ = _
    rw [find_map_circuit (openedBy_handle m), hN.circuits, ← State.circuit.eq_1, hc]
    simp [openedBy, ha, hst]
  · rw [circReply_ic]
    show u.pkg.ic.results ++ _ = _
    rw [hN.ic]
  · rw [circReply_ic]
    show u.pkg.ic.commits.filter _ = _
    simp [hN.ic, hm]
  · show (u.tile n).shadow = []
    rw [hT]
  · show ∃ q' ∈ recs, tfind (u.tile n).slots (q.tbl, z) = some q'.entry
    rw [hT]
    exact tfind_foldl_putSlots recs tl.slots h0 ⟨q, hq, rfl, hz⟩

end Sys2Proof.Machine

namespace Sys2Proof.Machine

/-! ## Stream registers (R50, R467, R468): what their waiters may change -/

theorem popWord_ic {s t : State} {c : CoreId} {n : Nat} {v : Word} (h : s.popWord c n = some (v, t)) : t.pkg.ic = s.pkg.ic := by
  have room (u : State) : u.doeRoom.pkg = u.pkg := by
    unfold State.doeRoom
    split
    · split
      · exact schedOnce_pkg ..
      · rfl
    · rfl
  unfold State.popWord at h
  split at h
  · split at h
    · cases h
      rw [room]
      rfl
    · cases h
  · dsimp only at h
    split at h
    · split at h
      · split at h <;> (cases h; rfl)
      · cases h
    · cases h

theorem pushWord_ic (s : State) (c : CoreId) (n : Nat) (v : Word) : (s.pushWord c n v).pkg.ic = s.pkg.ic := by
  unfold State.pushWord
  split
  · rfl
  · dsimp only
    split <;> rfl

/-- A waiter that tries again leaves the Intercalator as it was, whether it goes on, traps or waits. -/
theorem strmTry_ic (s : State) (f : FibreRef) : (s.strmTry f).pkg.ic = s.pkg.ic := by
  have trap (e : Nat) (w : Word) : (((s.leaveStrm f).ready f).trapEntry f e w false (s.fib f).pc).pkg.ic = s.pkg.ic := by
    rw [(CoreFrame.trapEntry (.refl _) ..).pkg]
    rfl
  unfold State.strmTry
  dsimp only
  split
  · split
    · rename_i h
      exact (popWord_ic h :)
    · split
      · exact trap _ _
      · rfl
  · split
    · exact trap _ _
    · split
      · rfl
      · exact pushWord_ic ..
  · rfl

theorem strmWake_ic (s : State) (c : CoreId) (n : Nat) : (s.strmWake c n).pkg.ic = s.pkg.ic :=
  List.foldlRecOn (motive := fun t : State => t.pkg.ic = s.pkg.ic) _ _ rfl fun _ h _ _ => (strmTry_ic ..).trans h

/-- No fibre waits on a stream register. -/
def NoStreamWaiters (s : State) : Prop := ∀ x ∈ s.cores, x.2.strmWait = []

/-- What holds of the default and of every listed value holds of what is read. -/
theorem tget_of_forall {α β : Type} [DecidableEq α] {P : β → Prop} {d : β} {l : List (α × β)} (hd : P d)
    (h : ∀ x ∈ l, P x.2) (k : α) :
    P (tget d l k) := by
  induction l with
  | nil => exact hd
  | cons x l ih =>
    rw [tget]
    split
    · exact h x (List.mem_cons_self ..)
    · exact ih fun y hy => h y (List.mem_cons_of_mem _ hy)

theorem NoStreamWaiters.core {s : State} (h : NoStreamWaiters s) (c : CoreId) : (s.core c).strmWait = [] :=
  tget_of_forall (P := fun x : Core => x.strmWait = []) rfl h c

theorem NoStreamWaiters.strmWake {s : State} (h : NoStreamWaiters s) (c : CoreId) (n : Nat) : s.strmWake c n = s := by
  rw [State.strmWake, h.core c]
  rfl

theorem mem_tset {α β : Type} [DecidableEq α] {l : List (α × β)} {k : α} {v : β} {x : α × β} (h : x ∈ tset l k v) :
    x ∈ l ∨ x = (k, v) := by
  induction l with
  | nil => exact .inr (List.mem_singleton.mp h)
  | cons y l ih =>
    rw [tset] at h
    split at h
    · rename_i hy
      rcases List.mem_cons.mp h with rfl | h
      · exact .inr (by rw [hy])
      · exact .inl (List.mem_cons_of_mem _ h)
    · rcases List.mem_cons.mp h with rfl | h
      · exact .inl (List.mem_cons_self ..)
      · exact (ih h).imp (List.mem_cons_of_mem _) id

theorem NoStreamWaiters.setStrm {s : State} (h : NoStreamWaiters s) (c : CoreId) (n : Nat) (r : Stream) :
    NoStreamWaiters (s.setStrm c n r) := by
  intro x hx
  rcases mem_tset hx with hx | rfl
  · exact h x hx
  · exact h.core c

theorem countTile_netFrame (s : State) (n id k : Nat) : NetFrame s (s.countTile n id k) := by
  unfold State.countTile
  dsimp only
  split <;> rfl

theorem countDrops_netFrame (s : State) (c : CoreId) (k : Nat) : NetFrame s (s.countDrops c k) := by
  unfold State.countDrops
  split
  · exact .refl s
  · exact (NetFrame.modTile ..).trans (countTile_netFrame ..)

/-- One register is released: its flits are counted as drops, and its waiters try again (R50). -/
def releaseRegister (s : State) (c : CoreId) (x : Nat × Stream) : State :=
  let s := if x.2.inj then (s.countDrops c (State.heldFlits x.2)).setStrm c x.1 { x.2 with bound := false, fifo := [], seen := [], part := [] }
    else s.setStrm c x.1 { x.2 with bound := false }
  s.strmWake c x.1

theorem releaseBindings_eq (s : State) (p cid : Nat) : s.releaseBindings p cid =
    (s.tilesOf p).foldl (fun s n => (List.range 3).foldl (fun s kind =>
      ((s.core (coreOf n kind)).streams.filter fun x : Nat × Stream => x.2.bound && x.2.cid == cid).foldl (fun s x =>
        releaseRegister s (coreOf n kind) x) s) s) s := rfl

/-- What one register's release keeps, the release of a circuit's bindings keeps. -/
theorem releaseBindings_keeps {P : State → Prop} (h : ∀ s c x, P s → P (releaseRegister s c x)) {s : State} (p cid : Nat) (hs : P s) :
    P (s.releaseBindings p cid) := by
  rw [releaseBindings_eq]
  exact List.foldlRecOn _ _ hs fun t ht n _ => List.foldlRecOn _ _ ht fun t ht kind _ => List.foldlRecOn _ _ ht fun t ht x _ => h t _ x ht

theorem releaseRegister_ic (s : State) (c : CoreId) (x : Nat × Stream) : (releaseRegister s c x).pkg.ic = s.pkg.ic := by
  unfold releaseRegister
  dsimp only
  rw [strmWake_ic]
  split
  · exact (countDrops_netFrame ..).ic
  · rfl

theorem releaseBindings_ic (s : State) (p cid : Nat) : (s.releaseBindings p cid).pkg.ic = s.pkg.ic :=
  releaseBindings_keeps (P := fun t => t.pkg.ic = s.pkg.ic) (fun t c x h => (releaseRegister_ic t c x).trans h) p cid rfl

theorem releaseRegister_quiet {s : State} (h : NoStreamWaiters s) (c : CoreId) (x : Nat × Stream) :
    NoStreamWaiters (releaseRegister s c x) ∧ (releaseRegister s c x).memory = s.memory := by
  have hn := countDrops_netFrame s c (State.heldFlits x.2)
  have hd : NoStreamWaiters (s.countDrops c (State.heldFlits x.2)) := by
    rw [NoStreamWaiters, hn.cores]
    exact h
  unfold releaseRegister
  dsimp only
  split
  · rw [(hd.setStrm c _ _).strmWake]
    exact ⟨hd.setStrm c _ _, hn.memory⟩
  · rw [(h.setStrm c _ _).strmWake]
    exact ⟨h.setStrm c _ _, rfl⟩

theorem releaseBindings_memory {s : State} (h : NoStreamWaiters s) (p cid : Nat) : (s.releaseBindings p cid).memory = s.memory :=
  (releaseBindings_keeps (P := fun t => NoStreamWaiters t ∧ t.memory = s.memory) (fun _ c x ht =>
    let k := releaseRegister_quiet ht.1 c x
    ⟨k.1, k.2.trans ht.2⟩) p cid ⟨h, rfl⟩).2

/-! ## The end of a CSHUT (R43, R50) -/

theorem putRecord_netFrame (s : State) (r : CRecord) (w : Bool) : NetFrame s (s.putRecord r w) := .modTile ..

theorem clearHops_netFrame (s : State) (c : Circuit) : NetFrame s (s.clearHops c) := by
  unfold State.clearHops
  exact (NetFrame.foldl (fun u r => putRecord_netFrame u r false) _ s).trans (putIo_netFrame ..)

theorem applyStaged_netFrame (s : State) (m : Commit) (acts : List Nat) : NetFrame s (s.applyStaged m acts) := by
  unfold State.applyStaged
  refine NetFrame.foldl (fun u t => ?_) _ s
  exact (NetFrame.modTile ..).trans (NetFrame.foldl (fun u st => NetFrame.foldl (fun u r => putRecord_netFrame u r _) _ u) _ _)

/-- The staged entries of a teardown are cleared, and its request is done. -/
def teardownDone (s : State) (m : Commit) : State :=
  (s.applyStaged m [2]).modIc fun i => { i with commits := i.commits.filter fun x => x.seq != m.seq }

/-- A circuit that is shut leaves the package: its entries, its bindings, its handle. -/
def circuitShut (s : State) (m : Commit) (c : Circuit) : State :=
  ((s.clearHops c).releaseBindings m.part m.cid).dropCircuit m.part m.cid

theorem exec_deferredClear_gone {s : State} {m : Commit} (hm : s.pkg.ic.commits = [m]) (hf : m.fn = 1)
    (hc : s.circuit m.part m.cid = none) : exec (.deferredClear m.seq) s =
      .next ((teardownDone s m).circReply m.who m.part (circWord 0 m.wc m.cid)) := by
  show execDeferredClear m.seq s = _
  have hc' : (teardownDone s m).circuit m.part m.cid = none := by
    rw [State.circuit, show (teardownDone s m).pkg.circuits = s.pkg.circuits from (applyStaged_netFrame ..).circuits]
    exact hc
  unfold teardownDone at *
  simp [execDeferredClear, hm, hf, hc']

theorem exec_deferredClear_shut {s : State} {m : Commit} {c : Circuit} (hm : s.pkg.ic.commits = [m]) (hf : m.fn = 1)
    (hc : s.circuit m.part m.cid = some c) (ha : m.about c = true) : exec (.deferredClear m.seq) s =
      .next ((circuitShut (teardownDone s m) m c).circReply m.who m.part (circWord 0 m.wc m.cid)) := by
  show execDeferredClear m.seq s = _
  have hc' : (teardownDone s m).circuit m.part m.cid = some c := by
    rw [State.circuit, show (teardownDone s m).pkg.circuits = s.pkg.circuits from (applyStaged_netFrame ..).circuits]
    exact hc
  have hl : ((teardownDone s m).circuit m.part m.cid).filter m.about = some c := by
    rw [hc', Option.filter_some, if_pos ha]
  unfold teardownDone at *
  simp [execDeferredClear, hm, hf, hl]
  rfl

/-- What a teardown's end leaves: no such circuit, its result, no request. -/
def ShutDone (s t : State) (m : Commit) : Prop :=
  t.circuit m.part m.cid = none ∧ t.pkg.ic.results = s.pkg.ic.results ++ [(m.who, circWord 0 m.wc m.cid)] ∧ t.pkg.ic.commits = [] ∧
  (NoStreamWaiters s → Claims.SameMemory s t)

theorem shutDone_circReply {s u : State} {m : Commit} (hm : s.pkg.ic.commits = [m])
    (hi : u.pkg.ic = { s.pkg.ic with commits := s.pkg.ic.commits.filter fun x => x.seq != m.seq }) (hc : u.circuit m.part m.cid = none)
    (hq : NoStreamWaiters s → u.memory = s.memory) : ShutDone s (u.circReply m.who m.part (circWord 0 m.wc m.cid)) m := by
  refine ⟨?_, ?_, ?_, fun h => sameMemory_of_memory ((circReply_memory ..).trans (hq h))⟩
  · rw [State.circuit, circReply_circuits]
    exact hc
  · rw [circReply_ic, hi]
  · rw [circReply_ic, hi]
    simp [hm]

theorem teardownDone_ic (s : State) (m : Commit) :
    (teardownDone s m).pkg.ic = { s.pkg.ic with commits := s.pkg.ic.commits.filter fun x => x.seq != m.seq } := by
  show { (s.applyStaged m [2]).pkg.ic with
    commits := (s.applyStaged m [2]).pkg.ic.commits.filter fun x => x.seq != m.seq } = _
  rw [(applyStaged_netFrame ..).ic]

theorem teardownDone_memory (s : State) (m : Commit) : (teardownDone s m).memory = s.memory := (applyStaged_netFrame s m [2]).memory

theorem circuitShut_ic (s : State) (m : Commit) (c : Circuit) : (circuitShut s m c).pkg.ic = s.pkg.ic := by
  show ((s.clearHops c).releaseBindings m.part m.cid).pkg.ic = _
  rw [releaseBindings_ic, (clearHops_netFrame ..).ic]

theorem circuitShut_circuit (s : State) (m : Commit) (c : Circuit) : (circuitShut s m c).circuit m.part m.cid = none := by
  unfold circuitShut State.dropCircuit State.circuit
  simp only [State.modPkg_pkg, List.find?_eq_none]
  intro z hz hk
  have h := (List.mem_filter.mp hz).2
  simp only [hk, Bool.not_true] at h
  exact Bool.false_ne_true h

theorem circuitShut_memory {s : State} (h : NoStreamWaiters s) (m : Commit) (c : Circuit) : (circuitShut s m c).memory = s.memory := by
  have hn := clearHops_netFrame s c
  have hq : NoStreamWaiters (s.clearHops c) := by
    rw [NoStreamWaiters, hn.cores]
    exact h
  exact (releaseBindings_memory hq ..).trans hn.memory

theorem deferredClear_shuts {s : State} {m : Commit} (hm : s.pkg.ic.commits = [m]) (hf : m.fn = 1)
    (ha : ∀ z, s.circuit m.part m.cid = some z → m.about z = true) :
    Claims.Completes (.deferredClear m.seq) s fun t => ShutDone s t m := by
  cases hc : s.circuit m.part m.cid with
  | none =>
    refine ⟨_, exec_deferredClear_gone hm hf hc, shutDone_circReply hm (teardownDone_ic ..) ?_ fun _ => teardownDone_memory ..⟩
    rw [State.circuit, show (teardownDone s m).pkg.circuits = s.pkg.circuits from (applyStaged_netFrame ..).circuits]
    exact hc
  | some c =>
    refine ⟨_, exec_deferredClear_shut hm hf hc (ha c hc), shutDone_circReply hm ?_ (circuitShut_circuit ..) fun h => ?_⟩
    · rw [circuitShut_ic, teardownDone_ic]
    · have hq : NoStreamWaiters (teardownDone s m) := by
        rw [NoStreamWaiters, show (teardownDone s m).cores = s.cores from (applyStaged_netFrame ..).cores]
        exact h
      exact (circuitShut_memory hq m c).trans (teardownDone_memory ..)

/-! ## The result at its fibre (R44, R53) -/

/-- The result stands in the fibre's register, and the waiting of its request has been counted. -/
def resultTaken (s : State) (f : FibreRef) (v : Word) (d : BitVec 3) : State :=
  (((s.modIc fun i => { i with results := tdel i.results f }).setGOf f d v).addDelay f.core 11 (s.fib f).delay).modFib f fun x =>
    { x with delay := 0 }

theorem resultTaken_fib (s : State) (f : FibreRef) (v : Word) (d : BitVec 3) :
    (resultTaken s f v d).fib f = { s.fib f with g := lset (s.fib f).g d.toNat v, delay := 0 } := by
  simp [resultTaken, State.addDelay, State.setGOf, State.modIc]

theorem resultTaken_memory (s : State) (f : FibreRef) (v : Word) (d : BitVec 3) : ((resultTaken s f v d).complete f).memory = s.memory := by
  simp [State.memory, resultTaken, State.addDelay, State.modIc]

theorem exec_circuitResult {s : State} {f : FibreRef} {v : Word} {d : BitVec 3}
    (hr : s.pkg.ic.results.find? (fun z => z.1 == f) = some (f, v)) (hc : (s.fib f).cont = .circ d) :
    exec (.circuitResult f) s = .next ((resultTaken s f v d).complete f) := by
  show execCircuitResult f s = _
  have hc' : ((s.modIc fun i => { i with results := tdel i.results f }).fib f).cont = .circ d := hc
  simp only [execCircuitResult, hr, hc']
  rfl

theorem circuitResult_completes {s : State} {f : FibreRef} {v : Word} {d : BitVec 3}
    (hr : s.pkg.ic.results.find? (fun z => z.1 == f) = some (f, v)) (hc : (s.fib f).cont = .circ d) :
    Claims.Completes (.circuitResult f) s fun t =>
      (t.fib f).g = lset (s.fib f).g d.toNat v ∧ (t.fib f).status = .ready ∧ (t.fib f).pc = (s.fib f).pc + 4 ∧ Claims.SameMemory s t := by
  refine ⟨_, exec_circuitResult hr hc, ?_⟩
  dsimp only
  rw [fib_complete, resultTaken_fib]
  exact ⟨rfl, rfl, rfl, sameMemory_of_memory (resultTaken_memory s f v d)⟩

/-! ## LOST circuits (R54), bursts (R36) -/

/-- A circuit that holds no entries and no positions. -/
def emptied (c : Circuit) : Circuit := { c with hops := [], posns := [], posnsOut := [] }

/-- A LOST circuit's entries and positions are free. -/
def freeLost (s : State) (c : Circuit) : State :=
  ((s.clearHops c).modCircuit c.part c.cid emptied).modPkg fun k => { k with
    plinks := k.plinks.map fun l : Nat × PLink =>
      (l.1, { l.2 with used := l.2.used.filter (fun u => u.2 != (c.part, c.cid))
                       usedOut := l.2.usedOut.filter fun u => u.2 != (c.part, c.cid) }) }

theorem exec_lostSlotsFree (s : State) : exec .lostSlotsFree s =
    .next ((s.pkg.circuits.filter fun c => c.state == 3).foldl freeLost s) := rfl

theorem freeLost_circuits (s : State) (c : Circuit) : (freeLost s c).pkg.circuits = s.pkg.circuits.map fun x =>
    if x.part == c.part && x.cid == c.cid then emptied x else x := by
  show ((s.clearHops c).modCircuit c.part c.cid _).pkg.circuits = _
  rw [← (clearHops_netFrame s c).circuits]
  rfl

theorem freeLost_memory (s : State) (c : Circuit) : (freeLost s c).memory = s.memory := by
  rw [freeLost, modPkg_memory, State.modCircuit, modPkg_memory, (clearHops_netFrame s c).memory]

/-- Exactly the circuits whose handles are freed lose their entries. -/
theorem foldl_freeLost_circuits (l : List Circuit) (s : State) : (l.foldl freeLost s).pkg.circuits = s.pkg.circuits.map fun x =>
    if l.any fun c => x.part == c.part && x.cid == c.cid then emptied x else x := by
  induction l generalizing s with
  | nil => simp
  | cons c l ih =>
    rw [List.foldl_cons, ih, freeLost_circuits, List.map_map]
    refine List.map_congr_left fun x _ => ?_
    cases h : x.part == c.part && x.cid == c.cid with
    | true =>
      simp only [Function.comp, List.any_cons, h, Bool.true_or, if_true]
      split <;> rfl
    | false => simp only [Function.comp, List.any_cons, h, Bool.false_or, Bool.false_eq_true, if_false]

theorem foldl_freeLost_memory (l : List Circuit) (s : State) : (l.foldl freeLost s).memory = s.memory :=
  foldl_memory _ _ _ freeLost_memory

theorem lostSlotsFree_frees (s : State) : Claims.Completes .lostSlotsFree s fun t =>
    (∀ z ∈ t.pkg.circuits, z.state = 3 → z.hops = []) ∧ t.pkg.circuits.length = s.pkg.circuits.length ∧ Claims.SameMemory s t := by
  refine ⟨_, exec_lostSlotsFree s, fun z hz h3 => ?_, ?_, sameMemory_of_memory (foldl_freeLost_memory ..)⟩
  · rw [foldl_freeLost_circuits] at hz
    obtain ⟨x, hx, rfl⟩ := List.mem_map.mp hz
    split at h3
    · rw [if_pos ‹_›]
      rfl
    · rename_i hn
      exact absurd (List.any_eq_true.mpr ⟨x, List.mem_filter.mpr ⟨hx, by simp [h3]⟩, by simp⟩) hn
  · rw [foldl_freeLost_circuits, List.length_map]

/-- The arm of this wheel becomes the running burst. -/
theorem burstStart_starts {s : State} {p cid n : Nat} {c : Circuit} (hc : s.circuit p cid = some c) (ha : c.armed = some (s.wheel, n))
    (h0 : s.slotNo = 0) : Claims.Completes (.burstStart p cid) s fun t =>
      t.circuit p cid = some { c with armed := none, burst := some (s.clock, n) } ∧ Claims.SameMemory s t := by
  refine ⟨_, rfl, ?_, sameMemory_of_memory rfl⟩
  have hw : s.wheel * 1024 = s.clock := by
    unfold State.wheel State.slotNo at *
    omega
  show (s.pkg.circuits.map _).find? _ = _
  rw [find_map_circuit, ← State.circuit.eq_1, hc]
  · have hk := List.find?_some hc
    simp only [Option.map_some, hk, if_true, ha, hw]
  · intro x
    split
    · dsimp only
      split
      · split <;> exact ⟨rfl, rfl⟩
      · exact ⟨rfl, rfl⟩
    · exact ⟨rfl, rfl⟩

end Sys2Proof.Machine

namespace Sys2Proof.Machine

/-! ## Circuit flits (R25, R58) -/

theorem modPkg_no_plinks {s : State} (h : s.pkg.plinks = []) (g : Nat × PLink → Nat × PLink) :
    (s.modPkg fun k => { k with plinks := k.plinks.map g }) = s := by
  have hm : s.pkg.plinks.map g = s.pkg.plinks := by rw [h]; rfl
  show { s with pkg := { s.pkg with plinks := s.pkg.plinks.map g } } = s
  rw [hm]

/-- Without package links nothing arrives from a peer, and no elastic buffer releases a flit. -/
theorem peerArrivals_no_plinks {s : State} (h : s.pkg.plinks = []) : s.peerArrivals = s := by
  unfold State.peerArrivals
  dsimp only
  rw [modPkg_no_plinks h, h]
  rfl

theorem releaseElastic_no_plinks {s : State} (h : s.pkg.plinks = []) : s.releaseElastic = s := by
  unfold State.releaseElastic
  dsimp only
  rw [modPkg_no_plinks h, h]
  rfl

theorem linkOpen_spend (s : State) (d g n m : Nat) : (s.spend d g).linkOpen n m = s.linkOpen n m := by
  obtain ⟨l, -, h⟩ := spend_frame s d g
  have hd (k : Nat) : (s.spend d g).dieOpen k = s.dieOpen k := by
    rw [h]
    by_cases hk : k = d <;> simp [State.dieOpen, State.die, State.modDie, State.setDie, tget_tset, hk]
  unfold State.linkOpen
  simp only [hd, spend_pkg, spend_clock]

/-- An entry that puts a flit out into an open link towards the neighbour, across the bridge row where the I/O die carries it. -/
theorem putFlit_neighbour {s : State} {n b : Nat} {e : Entry} {f : CFlit} (hb : b < 4)
    (hio : ∀ ch, State.bridgeOut n b = some ch → s.ioCarries ch s.slotNo (entryPtag e) (entryCid e) = true)
    (hl : s.linkOpen n (neighbour n b).1 = true) : s.putFlit n b e (some f) = (s.spend (tileDie n) 3).modPkg fun p =>
      { p with wires := p.wires ++ [((neighbour n b).1, (neighbour n b).2.1, s.clock + (neighbour n b).2.2, f)] } := by
  have h4 : b ≠ 4 := by omega
  have h5 : b ≠ 5 := by omega
  have hc : ((State.bridgeOut n b).all fun ch =>
      (s.spend (tileDie n) 3).ioCarries ch (s.spend (tileDie n) 3).slotNo (entryPtag e) (entryCid e)) = true := by
    rw [Option.all_eq_true]
    intro ch hch
    simpa [State.ioCarries, State.slotNo] using hio ch hch
  simp [State.putFlit, h4, h5, hc, linkOpen_spend, hl]

/-- An entry of a link port takes the flit that has arrived there in this slot. -/
theorem entryFlit_wire {n clock : Nat} {t : Tile} {e : Entry} {f : CFlit} (h : entrySrc e < 4) (loc : List ((Nat × Nat) × CFlit)) :
    State.entryFlit n t clock [(n, entrySrc e, clock, f)] loc e = some f := by
  have h5 : entrySrc e ≠ 5 := by omega
  have h6 : entrySrc e ≠ 6 := by omega
  unfold State.entryFlit
  simp [h]

/-- A tile with one entry in this slot, which passes the flit that has arrived on to a neighbour. -/
theorem tileFlits_one {s : State} {n b : Nat} {tl : Tile} {e : Entry} {f : CFlit} (ht : s.tile n = tl) (he : s.entriesNow tl = [(b, e)])
    (hl : entryLocal e = false) (hs : entrySrc e < 4) (hw : s.pkg.wires = [(n, entrySrc e, s.clock, f)]) :
    s.tileFlits n = s.putFlit n b e (some f) := by
  unfold State.tileFlits
  simp [ht, he, State.localFlits, hl, hw, entryFlit_wire hs]

theorem exec_circuitFlit_one {s : State} {n b : Nat} {tl : Tile} {e : Entry} {f : CFlit} (ht : s.tiles = [(n, tl)])
    (hp : s.pkg.plinks = []) (he : s.entriesNow tl = [(b, e)]) (hl : entryLocal e = false) (hs : entrySrc e < 4)
    (hw : s.pkg.wires = [(n, entrySrc e, s.clock, f)]) :
    exec .circuitFlit s = .next ((s.putFlit n b e (some f)).modPkg fun p => { p with
      wires := p.wires.filter fun w => decide ((s.putFlit n b e (some f)).clock < w.2.2.1) }) := by
  show execCircuitFlit s = _
  have htl : s.tile n = tl := by simp [State.tile, ht, tget]
  unfold execCircuitFlit
  simp [peerArrivals_no_plinks hp, releaseElastic_no_plinks hp, ht, he, tileFlits_one htl he hl hs hw]

theorem circuitFlit_forwards {s : State} {n b : Nat} {tl : Tile} {e : Entry} {f : CFlit} (ht : s.tiles = [(n, tl)])
    (hp : s.pkg.plinks = []) (he : s.entriesNow tl = [(b, e)]) (hb : b < 4) (hl : entryLocal e = false) (hs : entrySrc e < 4)
    (hio : ∀ ch, State.bridgeOut n b = some ch → s.ioCarries ch s.slotNo (entryPtag e) (entryCid e) = true)
    (hw : s.pkg.wires = [(n, entrySrc e, s.clock, f)]) (ho : s.linkOpen n (neighbour n b).1 = true) (h0 : 0 < (neighbour n b).2.2) :
    Claims.Completes .circuitFlit s fun t => Claims.SameMemory s t ∧
      t.pkg.wires = [((neighbour n b).1, (neighbour n b).2.1, s.clock + (neighbour n b).2.2, f)] ∧
      (t.die (tileDie n)).spentTok = (s.die (tileDie n)).spentTok + Config.activity 3 := by
  refine ⟨_, exec_circuitFlit_one ht hp he hl hs hw, ?_⟩
  rw [putFlit_neighbour hb hio ho]
  refine ⟨sameMemory_of_memory ?_, ?_, ?_⟩
  · rw [modPkg_memory, modPkg_memory, spend_memory]
  · simp [hw, h0]
  · rw [State.die_after_modPkg, State.die_after_modPkg, spend_spentTok]

/-! ## The statement -/

/-- The last configuration flit of a resize: what has been sent, when it commits, and what is due. -/
theorem configurationFlit_ends {s : State} {m : Commit} {a : Nat} {rec : CRecord} (ha : s.pkg.ic.active = some m)
    (hq : m.queue = [(a, rec)]) (hf : m.fn = 2) (hr : m.remove = []) :
    Claims.Completes .configurationFlit s fun t =>
      t.pkg.ic.active = none ∧ Claims.SameMemory s t ∧ t.isDue (.configForward rec.x 15) = true ∧ t.isDue (.configForward rec.x 16) = true ∧
      (s.clock / 1024 * 1024 + 16384, .intercalation m.seq) ∈ t.agenda ∧
      t.pkg.ic.commits = s.pkg.ic.commits ++
        [{ m with queue := [], sent := m.sent ++ [(s.wheel, rec.x, a, [rec])], wc := s.wheel + 16 }] := by
  refine ⟨_, exec_configurationFlit_last ha hq hf hr, ?_⟩
  have hw : s.clock / 1024 * 1024 + 16384 = (s.wheel + 16) * 1024 := by
    unfold State.wheel
    omega
  dsimp only
  rw [schedOnce_pkg, hw]
  refine ⟨rfl, sameMemory_of_memory (schedOnce_memory ..), isDue_of_mem (n := s.clock) (mem_schedOnce ?_),
    isDue_of_mem (n := s.clock) (mem_schedOnce ?_), mem_schedOnce ?_, rfl⟩ <;> simp [State.modIc]

/-- The record's tile has it staged, and the flit is due a wheel later at the next tile. -/
theorem configForward_stages {s : State} {m : Commit} {a x y : Nat} {recs : List CRecord} (ha : s.pkg.ic.active = none)
    (hc : s.pkg.ic.commits = [m]) (hd : s.dieOpen (tileDie (48 * y + x)) = true)
    (hl : ((s.tile (48 * y + x)).shadow.map fun st => st.recs.length).sum + recs.length ≤ 64)
    (hm : m.sent = [(s.wheel - (15 - y), x, a, recs)]) (hw : 15 - y ≤ s.wheel) (h1 : 1 ≤ y) (h15 : y ≤ 15) (hr : recs ≠ [])
    (hy : ∀ q ∈ recs, q.y = y) : Claims.Completes (.configForward x y) s fun t =>
      (t.tile (48 * y + x)).shadow = (s.tile (48 * y + x)).shadow ++ [⟨m.seq, a, recs⟩] ∧ Claims.SameMemory s t ∧
      (s.clock + 1024, .configForward x (y - 1)) ∈ t.agenda := by
  refine ⟨_, exec_configForward_north ha hc hd hl hm hw h1 h15 hr hy, ?_, sameMemory_of_memory rfl, ?_⟩
  · rw [State.tile_after_sched, State.tile_modTile_same]
  · simp

/-- Settles O40, one lemma for each event of the Intercalator and the circuits. -/
theorem circuitEvents : Obligations.CircuitEvents := by
  unfold Obligations.CircuitEvents
  intro s r rest c m a x y n b rec recs f v d tl e fl
  refine ⟨fun ha hq => ⟨fun h4 hc => ?_, fun h1 h3 hc => ?_⟩, configurationFlit_ends, configForward_stages, intercalation_opens,
    deferredClear_shuts, circuitResult_completes, lostSlotsFree_frees s, burstStart_starts, circuitFlit_forwards⟩
  · exact intercalatorRequest_answers ha hq (circTake_query h4 hc)
  · exact intercalatorRequest_answers ha hq (circTake_no_circuit h1 h3 hc)

end Sys2Proof.Machine

namespace Sys2Proof.Machine

/-! ## The random bit generator and the links (R315) -/

/-- What a draw of the generator may change. -/
def DrawFrame (s t : State) : Prop := t = { s with fresh := t.fresh, pkg := { s.pkg with drbg := t.pkg.drbg } }

theorem DrawFrame.trans {s t u : State} (h : DrawFrame s t) (k : DrawFrame t u) : DrawFrame s u := by
  unfold DrawFrame at h
  refine Eq.trans k ?_
  rw [h]

theorem DrawFrame.drbg (s : State) (g : Package → Drbg) : DrawFrame s (s.modPkg fun k => { k with drbg := g k }) := rfl

theorem drbgSeeded_drawFrame (s : State) : DrawFrame s s.drbgSeeded := by
  unfold State.drbgSeeded
  dsimp only
  split <;> rfl

theorem randomWord_drawFrame (s : State) : DrawFrame s s.randomWord.2 := by
  unfold State.randomWord
  dsimp only
  exact (drbgSeeded_drawFrame s).trans (.drbg ..)

theorem randomWords_drawFrame (n : Nat) (s : State) : DrawFrame s (State.randomWords n s).2 := by
  induction n generalizing s with
  | zero => rfl
  | succ n ih => exact (randomWord_drawFrame s).trans (ih _)

theorem drawSecret_drawFrame (s : State) : DrawFrame s s.drawSecret.2 := randomWords_drawFrame _ s

/-! ## What the root's messages to a die change (R304) -/

/-- What a message over an attestation channel, and what it makes due, may change: the networks' buffers, the accesses that merge
there, the dies, what is due, and the generator. The links, the fibres and memory stay. -/
def MessageFrame (s t : State) : Prop :=
  t = { s with
    tiles := t.tiles, flight := t.flight, dies := t.dies, agenda := t.agenda, fresh := t.fresh
    pkg := { s.pkg with rbuf := t.pkg.rbuf, rwait := t.pkg.rwait, ioSlots := t.pkg.ioSlots, drbg := t.pkg.drbg } }

namespace MessageFrame

theorem refl (s : State) : MessageFrame s s := rfl

theorem trans {s t u : State} (h : MessageFrame s t) (k : MessageFrame t u) : MessageFrame s u := by
  unfold MessageFrame at h
  refine Eq.trans k ?_
  rw [h]

theorem of_net {s t : State} (h : NetFrame s t) : MessageFrame s t := by
  unfold NetFrame at h
  rw [h]
  rfl

theorem of_draw {s t : State} (h : DrawFrame s t) : MessageFrame s t := by
  unfold DrawFrame at h
  rw [h]
  rfl

section
variable {s t : State} (h : MessageFrame s t)
include h

theorem clock : t.clock = s.clock := by unfold MessageFrame at h; rw [h]
theorem fibres : t.fibres = s.fibres := by unfold MessageFrame at h; rw [h]
theorem link (l : Nat) : t.link l = s.link l := by unfold MessageFrame at h; rw [h]; rfl
theorem memory : t.memory = s.memory := by unfold MessageFrame at h; rw [h]; rfl

theorem modDie (d : Nat) (g : Die → Die) : MessageFrame s (t.modDie d g) := h.trans rfl
theorem now (e : Instr) : MessageFrame s (t.now e) := h.trans rfl
theorem sendAtt (d : Nat) (to' : Bool) (n : Nat) (m : List Byte) : MessageFrame s (t.sendAtt d to' n m) :=
  h.trans (of_net (sendAtt_netFrame ..))
theorem vendorAnswer (d op st : Nat) : MessageFrame s (t.vendorAnswer d op st) := sendAtt (modDie h ..) ..
theorem askVendor (d op : Nat) (m : List Byte) : MessageFrame s (t.askVendor d op m) := sendAtt (modDie h ..) ..
theorem sendKey (d l epoch ws : Nat) (k : BitVec 256) : MessageFrame s (t.sendKey d l epoch ws k) := now (askVendor h ..) _
theorem sendOpen (d wo : Nat) : MessageFrame s (t.sendOpen d wo) := now (askVendor h ..) _

theorem keyAck (d : Nat) (e : Nat × Bool) : MessageFrame s (t.keyAck d e) := by
  unfold State.keyAck
  dsimp only
  split
  · exact h
  · split
    · exact sendOpen (modDie h ..) ..
    · exact modDie h ..

end

end MessageFrame

/-! ## Answers to vendor-defined messages (R304) -/

/-- A die that has answered a vendor-defined message, and what then holds of a link. -/
def Told (s t : State) (d l op status : Nat) (P : LinkKey → Prop) : Prop :=
  P (t.link l) ∧ (t.die d).spdm.last = vendorResponse op status ∧ Claims.SameMemory s t ∧ t.fibres = s.fibres

theorem vendorAnswer_die (s : State) (d op st : Nat) : (s.vendorAnswer d op st).die d = { s.die d with
    spdm := { (s.die d).spdm with last := if (s.die d).spdm.session then vendorResponse op st else [0x12, 0x7F, 4, 0] } } := by
  unfold State.vendorAnswer
  dsimp only
  rw [(sendAtt_netFrame ..).die, State.die_modDie_same]

theorem askVendor_die (s : State) (d op : Nat) (m : List Byte) : (s.askVendor d op m).die d = { s.die d with
    trust := { (s.die d).trust with sent := State.vendorRequest op m } } := by
  unfold State.askVendor
  dsimp only
  rw [(sendAtt_netFrame ..).die, State.die_modDie_same]

/-- A change of a die's trust leaves every die's responder as it was. -/
theorem modDie_spdm (s : State) (d e : Nat) {g : Die → Die} (hg : ∀ x, (g x).spdm = x.spdm) :
    ((s.modDie e g).die d).spdm = (s.die d).spdm := by
  by_cases h : d = e
  · rw [h, State.die_modDie_same, hg]
  · rw [State.die_modDie_ne _ _ _ _ h]

theorem askVendor_spdm (s : State) (d e op : Nat) (m : List Byte) : ((s.askVendor e op m).die d).spdm = (s.die d).spdm := by
  unfold State.askVendor
  dsimp only
  rw [(sendAtt_netFrame ..).die]
  exact modDie_spdm s d e fun _ => rfl

theorem keyAck_spdm (s : State) (d t : Nat) (e : Nat × Bool) : ((s.keyAck t e).die d).spdm = (s.die d).spdm := by
  unfold State.keyAck
  dsimp only
  split
  · rfl
  · split
    · exact (askVendor_spdm ..).trans (modDie_spdm s d t fun _ => rfl)
    · exact modDie_spdm _ _ _ fun _ => rfl

/-- Both ends of a link acknowledge its key. -/
def keyTaken (s : State) (d l : Nat) : State :=
  let s := s.keyAck d (l, true)
  if otherEnd l d < 6 then s.keyAck (otherEnd l d) (l, false) else s

theorem keyTaken_messageFrame (s : State) (d l : Nat) : MessageFrame s (keyTaken s d l) := by
  unfold keyTaken
  dsimp only
  split
  · exact .keyAck (.keyAck (.refl s) ..) ..
  · exact .keyAck (.refl s) ..

theorem keyTaken_spdm (s : State) (d l e : Nat) : ((keyTaken s d l).die e).spdm = (s.die e).spdm := by
  unfold keyTaken
  dsimp only
  split
  · rw [keyAck_spdm, keyAck_spdm]
  · rw [keyAck_spdm]

section
variable {s : State} {d l epoch ws : Nat} {secret : BitVec 256}

/-- A message in a session whose fields fit is not refused as malformed (R304). -/
theorem not_formatError (hs : (s.die d).spdm.session = true) (he : epoch < 2 ^ 32) (hw : ws < 2 ^ 64) :
    ¬((!(s.die d).spdm.session) = true ∨ 2 ^ 32 ≤ epoch ∨ 2 ^ 64 ≤ ws) := by
  rintro (h | h | h)
  · rw [hs] at h
    cases h
  · omega
  · omega

theorem exec_setLinkKey_ok (hs : (s.die d).spdm.session = true) (he : epoch < 2 ^ 32) (hw : ws < 2 ^ 64)
    (hl : (linksOf d).contains l = true) (h4 : s.wheel + 4 ≤ ws) :
    exec (.setLinkKey d l epoch ws secret) s = .next (keyTaken ((s.vendorAnswer d 1 0).stageKey l epoch ws secret) d l) := by
  show execSetLinkKey d l epoch ws secret s = _
  unfold execSetLinkKey
  rw [if_neg (not_formatError hs he hw), if_neg (by rw [hl]; decide), if_neg (by omega)]
  rfl

theorem exec_setLinkKey_late (hs : (s.die d).spdm.session = true) (he : epoch < 2 ^ 32) (hw : ws < 2 ^ 64)
    (hl : (linksOf d).contains l = true) (h4 : ws < s.wheel + 4) :
    exec (.setLinkKey d l epoch ws secret) s = .next ((s.vendorAnswer d 1 3).sendKey d l epoch (s.wheel + 4) secret) := by
  show execSetLinkKey d l epoch ws secret s = _
  unfold execSetLinkKey
  rw [if_neg (not_formatError hs he hw), if_neg (by rw [hl]; decide), if_pos h4]

theorem exec_setLinkKey_no_link (hs : (s.die d).spdm.session = true) (he : epoch < 2 ^ 32) (hw : ws < 2 ^ 64)
    (hl : (linksOf d).contains l = false) : exec (.setLinkKey d l epoch ws secret) s = .next (s.vendorAnswer d 1 2) := by
  show execSetLinkKey d l epoch ws secret s = _
  unfold execSetLinkKey
  rw [if_neg (not_formatError hs he hw), if_pos (by rw [hl]; decide)]

theorem exec_setLinkKey_no_session (hs : (s.die d).spdm.session = false) :
    exec (.setLinkKey d l epoch ws secret) s = .next (s.vendorAnswer d 1 1) := by
  show execSetLinkKey d l epoch ws secret s = _
  unfold execSetLinkKey
  rw [if_pos (by simp [hs])]

theorem exec_linkOpen_ok (hs : (s.die d).spdm.session = true) (h4 : s.wheel + 4 ≤ ws) (hw : ws < 2 ^ 64) :
    exec (.linkOpen d ws) s = .next (((s.vendorAnswer d 2 0).modDie d fun x => { x with
      trust := { x.trust with wo := ws } }).schedFirst (ws * 1024) (.dieOpen d)) := by
  show execLinkOpen d ws s = _
  unfold execLinkOpen
  rw [if_neg (by simp only [hs, Bool.not_true, Bool.false_eq_true, false_or, Nat.not_le]; exact hw), if_neg (by omega)]

theorem exec_linkOpen_no_session (hs : (s.die d).spdm.session = false) :
    exec (.linkOpen d ws) s = .next (s.vendorAnswer d 2 1) := by
  show execLinkOpen d ws s = _
  unfold execLinkOpen
  rw [if_pos (by simp [hs])]

theorem exec_closeLink_ok (hs : (s.die d).spdm.session = true) (hl : (linksOf d).contains l = true) :
    exec (.closeLink d l) s = .next (((s.vendorAnswer d 3 0).eraseKeys l).modLink l fun x =>
      { x with closed := some (min ((s.wheel + 1) * 1024) (x.closed.getD ((s.wheel + 1) * 1024))) }) := by
  show execCloseLink d l s = _
  unfold execCloseLink
  rw [if_neg (by simp [hs]), if_neg (by rw [hl]; decide)]

theorem exec_closeLink_no_link (hs : (s.die d).spdm.session = true) (hl : (linksOf d).contains l = false) :
    exec (.closeLink d l) s = .next (s.vendorAnswer d 3 2) := by
  show execCloseLink d l s = _
  unfold execCloseLink
  rw [if_neg (by simp [hs]), if_pos (by rw [hl]; decide)]

theorem exec_closeLink_no_session (hs : (s.die d).spdm.session = false) :
    exec (.closeLink d l) s = .next (s.vendorAnswer d 3 1) := by
  show execCloseLink d l s = _
  unfold execCloseLink
  rw [if_pos (by simp [hs])]

theorem schedFirst_die (s : State) (n : Nat) (e : Instr) (d : Nat) : (s.schedFirst n e).die d = s.die d := rfl

/-- Outside a session a die answers ERROR UnexpectedRequest, whatever the operation. -/
theorem vendorAnswer_no_session (hs : (s.die d).spdm.session = false) (op st : Nat) : s.vendorAnswer d op st =
    (s.modDie d fun y => { y with spdm := { y.spdm with last := [0x12, 0x7F, 4, 0] } }).sendAtt d false 4 [] := by
  unfold State.vendorAnswer
  simp [hs]

end

/-! ## A link's keys (R316, R317) -/

theorem link_modLink_same (s : State) (l : Nat) (h : LinkKey → LinkKey) : (s.modLink l h).link l = h (s.link l) := by
  simp [State.modLink, State.link, tmod]

theorem link_modLink_ne (s : State) {l k : Nat} (h : LinkKey → LinkKey) (e : l ≠ k) : (s.modLink k h).link l = s.link l := by
  exact tget_tset_ne _ _ _ e

theorem link_stageKey_same (s : State) (l epoch ws : Nat) (k : BitVec 256) :
    (s.stageKey l epoch ws k).link l = { s.link l with staged := some (epoch, ws, k) } := link_modLink_same ..

theorem link_eraseKeys_same (s : State) (l : Nat) : (s.eraseKeys l).link l =
    { s.link l with secret := none, staged := none, oldSecret := none, again := false } := by
  simp [State.eraseKeys, State.link, tmod]

/-- Memory and every fibre stay. -/
def Quiet (s t : State) : Prop := t.memory = s.memory ∧ t.fibres = s.fibres

namespace Quiet

theorem refl (s : State) : Quiet s s := ⟨rfl, rfl⟩
theorem of_message {s t : State} (h : MessageFrame s t) : Quiet s t := ⟨h.memory, h.fibres⟩

section
variable {s t : State} (h : Quiet s t)
include h

theorem sameMemory : Claims.SameMemory s t := sameMemory_of_memory h.1
theorem fibres : t.fibres = s.fibres := h.2
theorem trans {u : State} (k : Quiet t u) : Quiet s u := ⟨k.1.trans h.1, k.2.trans h.2⟩
theorem modPkg (g : Package → Package) : Quiet s (t.modPkg g) := ⟨h.1, h.2⟩
theorem modLink (l : Nat) (g : LinkKey → LinkKey) : Quiet s (t.modLink l g) := modPkg h _
theorem modPlink (l : Nat) (g : PLink → PLink) : Quiet s (t.modPlink l g) := modPkg h _
theorem eraseKeys (l : Nat) : Quiet s (t.eraseKeys l) := modPkg h _
theorem modDie (d : Nat) (g : Die → Die) : Quiet s (t.modDie d g) := ⟨h.1, h.2⟩
theorem sched (n : Nat) (e : Instr) : Quiet s (t.sched n e) := ⟨h.1, h.2⟩
theorem schedFirst (n : Nat) (e : Instr) : Quiet s (t.schedFirst n e) := ⟨h.1, h.2⟩
theorem stageKey (l epoch ws : Nat) (k : BitVec 256) : Quiet s (t.stageKey l epoch ws k) := sched (modLink h ..) ..

end

end Quiet

theorem vendorAnswer_messageFrame (s : State) (d op st : Nat) : MessageFrame s (s.vendorAnswer d op st) := .vendorAnswer (.refl s) ..

theorem vendorAnswer_quiet (s : State) (d op st : Nat) : Quiet s (s.vendorAnswer d op st) := .of_message (vendorAnswer_messageFrame ..)

section
variable {s : State} {d l epoch ws : Nat} {secret : BitVec 256} (hs : (s.die d).spdm.session = true)
include hs

theorem vendorAnswer_last (op st : Nat) : ((s.vendorAnswer d op st).die d).spdm.last = vendorResponse op st := by
  rw [vendorAnswer_die, hs]
  rfl

/-- A key in time is staged (R304, R317). -/
theorem setLinkKey_stages (he : epoch < 2 ^ 32) (hw : ws < 2 ^ 64) (hl : (linksOf d).contains l = true) (h4 : s.wheel + 4 ≤ ws) :
    Claims.Completes (.setLinkKey d l epoch ws secret) s fun t =>
      Told s t d l 1 0 fun y => y = { s.link l with staged := some (epoch, ws, secret) } := by
  have hk := keyTaken_messageFrame ((s.vendorAnswer d 1 0).stageKey l epoch ws secret) d l
  have hq := ((vendorAnswer_quiet s d 1 0).stageKey l epoch ws secret).trans (.of_message hk)
  refine ⟨_, exec_setLinkKey_ok hs he hw hl h4, ?_, ?_, hq.sameMemory, hq.fibres⟩
  · rw [hk.link, link_stageKey_same, (vendorAnswer_messageFrame ..).link]
  · rw [keyTaken_spdm]
    exact vendorAnswer_last hs 1 0

/-- A key that comes too late is refused (R304, R320). -/
theorem setLinkKey_refused_late (he : epoch < 2 ^ 32) (hw : ws < 2 ^ 64) (hl : (linksOf d).contains l = true)
    (h4 : ws < s.wheel + 4) :
    Claims.Completes (.setLinkKey d l epoch ws secret) s fun t => Told s t d l 1 3 fun y => y = s.link l := by
  have hk := (vendorAnswer_messageFrame s d 1 3).sendKey d l epoch (s.wheel + 4) secret
  refine ⟨_, exec_setLinkKey_late hs he hw hl h4, hk.link l, ?_, sameMemory_of_memory hk.memory, hk.fibres⟩
  exact (congrArg Spdm.last (askVendor_spdm ..)).trans (vendorAnswer_last hs 1 3)

/-- The root sends a key that came too late again, for a later wheel (R320). -/
theorem setLinkKey_late_sent_again (he : epoch < 2 ^ 32) (hw : ws < 2 ^ 64) (hl : (linksOf d).contains l = true)
    (h4 : ws < s.wheel + 4) : Claims.Completes (.setLinkKey d l epoch ws secret) s fun t =>
      (t.die d).trust.sent = State.vendorRequest 1 (leBytes 1 l ++ leBytes 4 epoch ++ leBytes 8 (s.wheel + 4) ++ leBytes 32 secret.toNat) ∧
      (s.clock, .setLinkKey d l epoch (s.wheel + 4) secret) ∈ t.agenda := by
  refine ⟨_, exec_setLinkKey_late hs he hw hl h4, ?_, ?_⟩
  · exact congrArg (fun x : Die => x.trust.sent) (askVendor_die ..)
  · have hc := ((vendorAnswer_messageFrame s d 1 3).askVendor d 1
      (leBytes 1 l ++ leBytes 4 epoch ++ leBytes 8 (s.wheel + 4) ++ leBytes 32 secret.toNat)).clock
    unfold State.sendKey
    rw [State.now_agenda, hc]
    exact List.mem_append_right _ (List.mem_singleton.mpr rfl)

/-- A link that is open closes with the next wheel, and its keys are gone (R304, R319). -/
theorem closeLink_closes (hl : (linksOf d).contains l = true) (hc : (s.link l).closed = none) :
    Claims.Completes (.closeLink d l) s fun t =>
      Told s t d l 3 0 fun y => y.closed = some ((s.wheel + 1) * 1024) ∧ y.secret = none := by
  have hq := ((vendorAnswer_quiet s d 3 0).eraseKeys l).modLink l fun x =>
    { x with closed := some (min ((s.wheel + 1) * 1024) (x.closed.getD ((s.wheel + 1) * 1024))) }
  refine ⟨_, exec_closeLink_ok hs hl, ?_, vendorAnswer_last hs 3 0, hq.sameMemory, hq.fibres⟩
  rw [link_modLink_same, link_eraseKeys_same, (vendorAnswer_messageFrame ..).link, hc]
  exact ⟨by simp, rfl⟩

/-- A die that is told its opening wheel opens in it (R299, R304). -/
theorem linkOpen_schedules (h4 : s.wheel + 4 ≤ ws) (hw : ws < 2 ^ 64) : Claims.Completes (.linkOpen d ws) s fun t =>
    (t.die d).trust.wo = ws ∧ t.isDue (.dieOpen d) = true ∧ Claims.SameMemory s t := by
  have hq := ((vendorAnswer_quiet s d 2 0).modDie d fun x => { x with trust := { x.trust with wo := ws } }).schedFirst
    (ws * 1024) (.dieOpen d)
  refine ⟨_, exec_linkOpen_ok hs h4 hw, ?_, isDue_of_mem (List.mem_cons_self ..), hq.sameMemory⟩
  rw [schedFirst_die, State.die_modDie_same]

end

end Sys2Proof.Machine

namespace Sys2Proof.Machine

/-! ## The rollover of a link (R315, R316, R321) -/

theorem rollLink_package {l : Nat} (h : 112 ≤ l ∧ l < 124) (s : State) (ws : Nat) : s.rollLink l ws =
    { s with fresh := s.fresh + 1 }.stageKey l ((s.link l).epoch + 1) ws (Config.sessionSecret l s.fresh) := by
  unfold State.rollLink
  exact if_pos h

theorem sendKeys_messageFrame (l epoch ws : Nat) (k : BitVec 256) (ds : List Nat) {s t : State} (h : MessageFrame s t) :
    MessageFrame s (ds.foldl (fun s d => s.sendKey d l epoch ws k) t) := by
  induction ds generalizing t with
  | nil => exact h
  | cons d ds ih => exact ih (h.sendKey ..)

/-- The root rolls another link with messages alone. -/
theorem rollLink_messageFrame {l : Nat} (h : ¬(112 ≤ l ∧ l < 124)) (s : State) (ws : Nat) : MessageFrame s (s.rollLink l ws) := by
  unfold State.rollLink
  dsimp only
  rw [if_neg h]
  exact sendKeys_messageFrame _ _ _ _ _ (.of_draw (drawSecret_drawFrame s))

theorem rollLink_quiet (s : State) (l ws : Nat) : Quiet s (s.rollLink l ws) := by
  by_cases h : 112 ≤ l ∧ l < 124
  · rw [rollLink_package h]
    exact ⟨rfl, rfl⟩
  · exact .of_message (rollLink_messageFrame h s ws)

/-- A ROLL for one link of a die. -/
def rollOne (s : State) (l : Nat) : State :=
  if (s.link l).staged.isSome then s.modLink l fun x => { x with again := true } else s.rollLink l ((s.clock + 1023) / 1024 + 4)

theorem exec_roll (s : State) (d : Nat) :
    exec (.roll d) s = .next (((linksOf d).filter fun l => s.linkKeyed l).foldl rollOne s) := rfl

theorem rollOne_quiet (s : State) (l : Nat) : Quiet s (rollOne s l) := by
  unfold rollOne
  split
  · exact (Quiet.refl s).modLink ..
  · exact rollLink_quiet ..

theorem rollAll_quiet (ls : List Nat) (s : State) : Quiet s (ls.foldl rollOne s) := by
  induction ls generalizing s with
  | nil => exact .refl s
  | cons l ls ih => exact (rollOne_quiet s l).trans (ih _)

theorem rollOne_staged {s : State} {l : Nat} (h : (s.link l).staged.isSome = true) :
    (rollOne s l).link l = { s.link l with again := true } := by
  unfold rollOne
  rw [if_pos h, link_modLink_same]

theorem rollOne_other {l k : Nat} (hk : ¬(112 ≤ k ∧ k < 124)) (h : l ≠ k) (s : State) : (rollOne s k).link l = s.link l := by
  unfold rollOne
  split
  · exact link_modLink_ne s _ h
  · exact (rollLink_messageFrame hk ..).link l

/-- A link with a rollover staged rolls again after it (R298, R316). -/
theorem rollAll_staged {l : Nat} (ls : List Nat) (hls : ∀ k ∈ ls, ¬(112 ≤ k ∧ k < 124)) (s : State)
    (h : (s.link l).staged.isSome = true) :
    (ls.foldl rollOne s).link l = if l ∈ ls then { s.link l with again := true } else s.link l := by
  induction ls generalizing s with
  | nil => rfl
  | cons k ls ih =>
    obtain ⟨hk, hrest⟩ := List.forall_mem_cons.mp hls
    rw [List.foldl_cons]
    by_cases e : l = k
    · subst e
      have hl := rollOne_staged h
      rw [ih hrest _ (by rw [hl]; exact h), hl, if_pos List.mem_cons_self]
      exact ite_self _
    · have hl := rollOne_other hk e s
      rw [ih hrest _ (by rw [hl]; exact h), hl]
      simp only [List.mem_cons, e, false_or]

/-- A die's links are die-edge links and bridge-row channels, no package links (R315). -/
theorem linksOf_not_package : ∀ d < 6, ∀ l ∈ linksOf d, ¬(112 ≤ l ∧ l < 124) := by decide

theorem roll_again {s : State} {d l : Nat} (hd : d < 6) (hl : (linksOf d).contains l = true) (hk : s.linkKeyed l = true)
    (hst : (s.link l).staged.isSome = true) : Claims.Completes (.roll d) s fun t =>
      t.link l = { s.link l with again := true } ∧ Claims.SameMemory s t ∧ t.fibres = s.fibres := by
  have hq := rollAll_quiet ((linksOf d).filter fun l => s.linkKeyed l) s
  refine ⟨_, exec_roll s d, ?_, hq.sameMemory, hq.fibres⟩
  rw [rollAll_staged _ (fun k hm => linksOf_not_package d hd k (List.mem_filter.mp hm).1) s hst]
  exact if_pos (List.mem_filter.mpr ⟨List.contains_iff_mem.mp hl, hk⟩)

/-! ## The switch, the erasure and the rollover of keys (R316, R317) -/

section
variable {s : State} {l epoch ws : Nat} {secret : BitVec 256}

/-- A link whose staged key has become its key, with the events that come of it (R316, R317). -/
def keySwitched (s : State) (l epoch ws : Nat) (secret : BitVec 256) : State :=
  let long := decide (112 ≤ l) && decide (l < 124)
  ((s.modLink l fun y =>
      { y with staged := none, oldSecret := (s.link l).secret, secret := some secret, epoch, ws, closed := none, again := false }).sched
    ((ws + 1 + b2n long) * 1024) (.keyErase l)).sched ((ws + (if long then 2 ^ 21 else 2 ^ 22) - 4) * 1024) (.autoRollover l)

theorem keySwitched_quiet (s : State) (l epoch ws : Nat) (secret : BitVec 256) : Quiet s (keySwitched s l epoch ws secret) :=
  (((Quiet.refl s).modLink ..).sched ..).sched ..

theorem link_keySwitched (s : State) (l epoch ws : Nat) (secret : BitVec 256) : (keySwitched s l epoch ws secret).link l =
    { s.link l with
      staged := none, oldSecret := (s.link l).secret, secret := some secret, epoch, ws, closed := none, again := false } :=
  link_modLink_same ..

/-- A staged key becomes the link's key in its wheel; the key it replaces stays for the flits on their way (R317). -/
theorem keySwitch_keyed (hx : (s.link l).staged = some (epoch, ws, secret)) (hw : ws * 1024 = s.clock) (hk : s.linkKeyed l = true)
    (ha : (s.link l).again = false) : Claims.Completes (.keySwitch l) s fun t =>
      ((t.link l).secret = some secret ∧ (t.link l).oldSecret = (s.link l).secret ∧ (t.link l).epoch = epoch ∧ (t.link l).ws = ws ∧
        (t.link l).staged = none ∧ (t.link l).closed = none) ∧ Claims.SameMemory s t ∧ t.fibres = s.fibres := by
  have he : exec (.keySwitch l) s = .next (keySwitched s l epoch ws secret) := by
    show execKeySwitch l s = _
    simp only [execKeySwitch, hx, hw, hk, ha, ne_eq, not_true_eq_false, Bool.not_true, Bool.false_eq_true, if_false]
    rfl
  have hq := keySwitched_quiet s l epoch ws secret
  refine ⟨_, he, ?_, hq.sameMemory, hq.fibres⟩
  rw [link_keySwitched]
  exact ⟨rfl, rfl, rfl, rfl, rfl, rfl⟩

/-- The switch of a link whose end may hold no keys is cancelled (R316). -/
theorem keySwitch_cancelled (hx : (s.link l).staged = some (epoch, ws, secret)) (hw : ws * 1024 = s.clock) (hk : s.linkKeyed l = false) :
    Claims.Completes (.keySwitch l) s fun t =>
      ((t.link l).secret = (s.link l).secret ∧ (t.link l).staged = none) ∧ Claims.SameMemory s t ∧ t.fibres = s.fibres := by
  have he : exec (.keySwitch l) s = .next (s.modLink l fun x => { x with staged := none, again := false }) := by
    show execKeySwitch l s = _
    simp [execKeySwitch, hx, hw, hk]
  have hq := (Quiet.refl s).modLink l fun x => { x with staged := none, again := false }
  refine ⟨_, he, ?_, hq.sameMemory, hq.fibres⟩
  rw [link_modLink_same]
  exact ⟨rfl, rfl⟩

/-- A wheel after its switch the key that a link had before is erased (R317). -/
theorem keyErase_erases (hl : l < 112) (hw : ((s.link l).ws + 1) * 1024 ≤ s.clock) : Claims.Completes (.keyErase l) s fun t =>
    t.link l = { s.link l with oldSecret := none } ∧ Claims.SameMemory s t ∧ t.fibres = s.fibres := by
  have hq := (Quiet.refl s).modLink l fun x =>
    if (x.ws + 1 + b2n (decide (112 ≤ l) && decide (l < 124))) * 1024 ≤ s.clock then { x with oldSecret := none } else x
  refine ⟨_, rfl, ?_, hq.sameMemory, hq.fibres⟩
  have hn : b2n (decide (112 ≤ l) && decide (l < 124)) = 0 := by
    rw [decide_eq_false (by omega)]
    rfl
  rw [link_modLink_same, hn]
  exact if_pos hw

/-- A package link's key is rolled four wheels before the end of its epoch (R316, R321). -/
theorem autoRollover_package (hl : 112 ≤ l ∧ l < 124) (hk : s.linkKeyed l = true) (hx : (s.link l).staged = none)
    (hsec : (s.link l).secret.isSome = true) (hw : s.clock = ((s.link l).ws + 2 ^ 21 - 4) * 1024) :
    Claims.Completes (.autoRollover l) s fun t =>
      (∃ k, (t.link l).staged = some ((s.link l).epoch + 1, (s.link l).ws + 2 ^ 21, k)) ∧ Claims.SameMemory s t ∧
      t.fibres = s.fibres := by
  have he : exec (.autoRollover l) s = .next (s.rollLink l ((s.link l).ws + 2 ^ 21)) := by
    show execAutoRollover l s = _
    unfold execAutoRollover
    dsimp only
    rw [if_pos hl, if_pos ⟨hsec, by rw [hx]; rfl, hw, hk⟩]
  have hq := rollLink_quiet s l ((s.link l).ws + 2 ^ 21)
  refine ⟨_, he, ⟨Config.sessionSecret l s.fresh, ?_⟩, hq.sameMemory, hq.fibres⟩
  rw [rollLink_package hl, link_stageKey_same]

end

/-! ## Package links (R58, R61, R62, R321) -/

theorem plink_modPlink_same (s : State) (l : Nat) (h : PLink → PLink) : (s.modPlink l h).plink l = h (s.plink l) :=
  tget_tset_same ..

/-- The rollover of a package link leaves the training of every link. -/
theorem plink_rollLink_package {k : Nat} (h : 112 ≤ k ∧ k < 124) (s : State) (ws l : Nat) :
    (s.rollLink k ws).plink l = s.plink l := by
  rw [rollLink_package h]
  rfl

/-- Where no circuit is open, none becomes LOST. -/
theorem loseOnLink_no_circuits {s : State} (h : s.pkg.circuits = []) (l : Nat) : s.loseOnLink l = s := by
  unfold State.loseOnLink State.loseCircuits
  rw [h]
  rfl

/-- An event after which a package link is as said; memory and fibres stay. -/
def LinkBecomes (i : Instr) (s : State) (l : Nat) (P : PLink → Prop) : Prop :=
  Claims.Completes i s fun t => P (t.plink l) ∧ Claims.SameMemory s t ∧ t.fibres = s.fibres

theorem linkBecomes_of_quiet {i : Instr} {s t : State} {l : Nat} {P : PLink → Prop}
    (he : exec i s = .next t) (hq : Quiet s t) (hp : P (t.plink l)) : LinkBecomes i s l P :=
  ⟨t, he, hp, hq.sameMemory, hq.fibres⟩

theorem linkBecomes_of_modPlink {i : Instr} {s : State} {l : Nat} {h : PLink → PLink} {P : PLink → Prop}
    (he : exec i s = .next (s.modPlink l h)) (hp : P (h (s.plink l))) : LinkBecomes i s l P :=
  linkBecomes_of_quiet he ((Quiet.refl s).modPlink l h) (by rw [plink_modPlink_same]; exact hp)

/-- A package link that has trained: in ALIGN_LOST, with its alignment's distance (R58). -/
def trainedLink (s : State) (l n : Nat) : State :=
  { s with fresh := s.fresh + 1 }.modPlink l fun p =>
    { p with d := n + 4, trained := true, lost := true, failed := false, peer := Config.peerPackage l s.fresh, good := 0, bad := 0 }

theorem plink_trainedLink (s : State) (l n : Nat) : (trainedLink s l n).plink l = { s.plink l with
    d := n + 4, trained := true, lost := true, failed := false, peer := Config.peerPackage l s.fresh, good := 0, bad := 0 } :=
  plink_modPlink_same ..

theorem trainedLink_quiet (s : State) (l n : Nat) : Quiet s (trainedLink s l n) := ⟨rfl, rfl⟩

section
variable {s : State} {l : Nat}

/-- A link that trains comes up in ALIGN_LOST with its alignment's distance (R58). -/
theorem linkTraining_trains {n : Nat} (hl : l < 12) (hn : n ≤ 1019) (hc : s.pkg.circuits = []) :
    LinkBecomes (.linkTraining l (some n)) s l fun q =>
      q.d = n + 4 ∧ q.trained = true ∧ q.lost = true ∧ q.failed = false ∧ q.good = 0 ∧ q.bad = 0 := by
  have he : exec (.linkTraining l (some n)) s = .next ((trainedLink s l n).rollLink (112 + l) (s.wheel + 4)) := by
    show execLinkTraining l (some n) s = _
    unfold execLinkTraining
    rw [loseOnLink_no_circuits hc, Option.filter_some, if_pos (decide_eq_true hn)]
    rfl
  refine linkBecomes_of_quiet he ((trainedLink_quiet ..).trans (rollLink_quiet ..)) ?_
  rw [plink_rollLink_package (by omega), plink_trainedLink]
  exact ⟨rfl, rfl, rfl, rfl, rfl, rfl⟩

/-- A link that does not train stays down (R58). -/
theorem linkTraining_fails (hc : s.pkg.circuits = []) :
    LinkBecomes (.linkTraining l none) s l fun q => q.trained = false ∧ q.lost = true := by
  have he : exec (.linkTraining l none) s = .next (s.modPlink l fun p => { p with trained := false, lost := true, good := 0, bad := 0 }) := by
    show execLinkTraining l none s = _
    unfold execLinkTraining
    rw [loseOnLink_no_circuits hc]
    rfl
  exact linkBecomes_of_modPlink he ⟨rfl, rfl⟩

section
variable (ht : (s.plink l).trained = true) {o : Int}
include ht

/-- A first Sync that is more than six slots off is counted (R62). -/
theorem syncMessage_first_bad (ho : 48 < o.natAbs) (hb : (s.plink l).bad = 0) :
    LinkBecomes (.syncMessage l o) s l fun q => q = { s.plink l with bad := 1, good := 0 } := by
  have he : exec (.syncMessage l o) s = .next (s.modPlink l fun p => { p with bad := p.bad + 1, good := 0 }) := by
    show execSyncMessage l o s = _
    simp [execSyncMessage, ht, ho, hb]
  refine linkBecomes_of_modPlink he ?_
  rw [hb]

/-- With a second one in a row alignment is lost (R62). -/
theorem syncMessage_second_bad (ho : 48 < o.natAbs) (hb : 1 ≤ (s.plink l).bad) (hc : s.pkg.circuits = []) :
    LinkBecomes (.syncMessage l o) s l fun q => q.lost = true ∧ q.bad = (s.plink l).bad + 1 := by
  have hkeep (g g' : PLink → PLink) : ((s.modPlink l g).modPlink l g').loseOnLink l = (s.modPlink l g).modPlink l g' :=
    loseOnLink_no_circuits (s := (s.modPlink l g).modPlink l g') hc l
  cases hlost : (s.plink l).lost with
  | true =>
    have he : exec (.syncMessage l o) s = .next (s.modPlink l fun p => { p with bad := p.bad + 1, good := 0 }) := by
      show execSyncMessage l o s = _
      simp [execSyncMessage, ht, ho, hlost]
    exact linkBecomes_of_modPlink he ⟨hlost, rfl⟩
  | false =>
    have he : exec (.syncMessage l o) s = .next ((s.modPlink l fun p => { p with bad := p.bad + 1, good := 0 }).modPlink l
        fun p => { p with lost := true }) := by
      show execSyncMessage l o s = _
      simp [execSyncMessage, ht, ho, hlost, hb, hkeep]
    refine linkBecomes_of_quiet he (((Quiet.refl s).modPlink ..).modPlink ..) ?_
    rw [plink_modPlink_same, plink_modPlink_same]
    exact ⟨rfl, rfl⟩

/-- With a second Sync in a row within four slots alignment is there again (R62). -/
theorem syncMessage_good (ho : o.natAbs ≤ 32) (hf : (s.plink l).failed = false) (hg : 1 ≤ (s.plink l).good) :
    LinkBecomes (.syncMessage l o) s l fun q =>
      q.good = (s.plink l).good + 1 ∧ q.bad = 0 ∧ q.lost = false ∧ q.locked = true := by
  have he : exec (.syncMessage l o) s = .next (s.modPlink l fun p => { p with
      good := p.good + 1, bad := 0, lost := p.lost && (p.failed || p.good == 0), locked := p.locked || decide (1 ≤ p.good) }) := by
    show execSyncMessage l o s = _
    simp [execSyncMessage, ht, ho, show ¬48 < o.natAbs by omega]
  refine linkBecomes_of_modPlink he ⟨rfl, rfl, ?_, ?_⟩
  · simp [hf, show (s.plink l).good ≠ 0 by omega]
  · simp [hg]

theorem syncInterval_sends : LinkBecomes (.syncInterval l) s l fun q => q = { s.plink l with
    syncs := (s.plink l).syncs + 1
    announces := (s.plink l).announces + if ((s.plink l).syncs + 1) % (Config.announceEvery + 1) = 0 then 1 else 0 } := by
  refine linkBecomes_of_modPlink rfl ?_
  simp [ht, b2n]

theorem pdelayReq_received : LinkBecomes (.pdelayReq l true) s l fun q =>
    q = { s.plink l with answered := (s.plink l).answered + 1 } := by
  refine linkBecomes_of_modPlink rfl ?_
  simp [ht]

theorem pdelayReq_sent : LinkBecomes (.pdelayReq l false) s l fun q =>
    q = { s.plink l with pdelays := (s.plink l).pdelays + 1 } := by
  refine linkBecomes_of_modPlink rfl ?_
  simp [ht]

theorem pdelayResp_measures (n : Nat) : LinkBecomes (.pdelayResp l n) s l fun q => q = { s.plink l with delay := n } :=
  linkBecomes_of_modPlink rfl (if_pos ht)

theorem announce_counts : LinkBecomes (.announce l) s l fun q =>
    q = { s.plink l with announced := (s.plink l).announced + 1 } :=
  linkBecomes_of_modPlink rfl (if_pos ht)

end

/-- A failure on a package link that carries flits takes its alignment, until it trains again (R321). -/
theorem authenticationFailure_package {w : Nat} (hl : 112 ≤ l ∧ l < 124) (hk : s.linkCarries l = true) (hc : s.pkg.circuits = []) :
    Claims.Completes (.authenticationFailure l w) s fun t =>
      (t.plink (l - 112)).lost = true ∧ (t.plink (l - 112)).failed = true ∧ Claims.SameMemory s t := by
  have hkeep (j : Nat) (g : PLink → PLink) : (s.modPlink j g).loseOnLink j = s.modPlink j g :=
    loseOnLink_no_circuits (s := s.modPlink j g) hc j
  have he : exec (.authenticationFailure l w) s = .next (s.modPlink (l - 112) fun p =>
      { p with lost := true, failed := true, good := 0, bad := 0 }) := by
    show execAuthenticationFailure l w s = _
    simp [execAuthenticationFailure, State.linkCarried, hk, hl, hkeep]
  have hq := (Quiet.refl s).modPlink (l - 112) fun p => { p with lost := true, failed := true, good := 0, bad := 0 }
  have hp := plink_modPlink_same s (l - 112) fun p => { p with lost := true, failed := true, good := 0, bad := 0 }
  exact ⟨_, he, congrArg PLink.lost hp, congrArg PLink.failed hp, hq.sameMemory⟩

end

/-! ## Far ports (R131) -/

/-- A far port whose link comes up is present and covers at most 512 GiB. -/
theorem farPortLink_up (s : State) (d w n : Nat) : Claims.Completes (.farPortLink d true w n) s fun t =>
    tget {} t.pkg.ports d = { present := true, up := true, width := w, mib := min n 524288 } ∧ Claims.SameMemory s t :=
  ⟨_, rfl, tget_tset_same .., sameMemory_of_memory rfl⟩

/-! ## The opening of a die (R299) -/

theorem restoreMeters_dies (s : State) : s.restoreMeters.dies = s.dies := by
  unfold State.restoreMeters
  dsimp only
  split <;> rfl

/-- A die that is not REJECTED keeps a start from ending in recovery: the check of the start leaves every die as it was (R351). -/
theorem startCheck_dies {s : State} {d : Nat} (hd : d < 6) (h : (s.die d).trust.state ≠ 5) : s.startCheck.dies = s.dies := by
  have hout : ¬((List.range 6).all fun d => (s.die d).trust.state == 5) = true := fun ha =>
    h (by simpa using List.all_eq_true.mp ha d (List.mem_range.mpr hd))
  unfold State.startCheck
  dsimp only
  rw [if_neg hout]
  split
  · rfl
  · split
    · split <;> rfl
    · exact restoreMeters_dies s

/-- A die that opens in this wheel (R299). -/
def openedDie (s : State) (d : Nat) : State :=
  s.modDie d fun x => { x with trust := { x.trust with
    state := 4, fails := 0, sess := ((s.die d).trust.sess + 1) % 256, wheel := s.wheel } }

theorem die_openedDie (s : State) (d : Nat) : (openedDie s d).die d = { s.die d with trust := { (s.die d).trust with
    state := 4, fails := 0, sess := ((s.die d).trust.sess + 1) % 256, wheel := s.wheel } } := State.die_modDie_same ..

/-- A KEYING die opens in the wheel that its OPEN named (R299). -/
theorem dieOpen_opens {s : State} {d : Nat} (hd : d < 6) (h3 : (s.die d).trust.state = 3) (hw : (s.die d).trust.wo * 1024 = s.clock) :
    Claims.Completes (.dieOpen d) s fun t =>
      (t.die d).trust.state = 4 ∧ (t.die d).trust.fails = 0 ∧ (t.die d).trust.sess = ((s.die d).trust.sess + 1) % 256 ∧
      (t.die d).trust.wheel = s.wheel := by
  have he : exec (.dieOpen d) s = .next (openedDie s d).startCheck := by
    show execDieOpen d s = _
    exact if_pos ⟨h3, hw⟩
  have hdies := startCheck_dies (s := openedDie s d) hd (by rw [die_openedDie]; exact (by decide : 4 ≠ 5))
  refine ⟨_, he, ?_⟩
  dsimp only
  rw [State.die, hdies, ← State.die, die_openedDie]
  exact ⟨rfl, rfl, rfl, rfl⟩

/-- Settles O41: a clause for each event of a link or die, from its effect and from what that effect leaves. -/
theorem linkEvents : Obligations.LinkEvents := by
  unfold Obligations.LinkEvents
  intro s l d epoch ws n w secret o p x tr links keys told
  refine ⟨linkTraining_trains, linkTraining_fails, fun ht => ⟨syncMessage_first_bad ht, syncMessage_second_bad ht, syncMessage_good ht,
      syncInterval_sends ht, pdelayReq_received ht, pdelayReq_sent ht, pdelayResp_measures ht n, announce_counts ht⟩,
    farPortLink_up s d w n, fun hs he hw => ⟨fun hl => ⟨setLinkKey_stages hs he hw hl, setLinkKey_refused_late hs he hw hl,
      setLinkKey_late_sent_again hs he hw hl, closeLink_closes hs hl⟩,
      fun hl => ⟨exec_setLinkKey_no_link hs he hw hl, exec_closeLink_no_link hs hl⟩⟩, fun hs => ⟨?_, ?_, ?_⟩,
    linkOpen_schedules, dieOpen_opens, keySwitch_keyed, keySwitch_cancelled, keyErase_erases,
    fun h h' => autoRollover_package ⟨h, h'⟩, roll_again, fun h h' => authenticationFailure_package ⟨h, h'⟩⟩
  · rw [exec_setLinkKey_no_session hs, vendorAnswer_no_session hs]
  · rw [exec_linkOpen_no_session hs, vendorAnswer_no_session hs]
  · rw [exec_closeLink_no_session hs, vendorAnswer_no_session hs]

end Sys2Proof.Machine

namespace Sys2Proof.Machine

/-! ## What is due stays due -/

theorem isDue_mono {s t : State} {e : Instr} (h : s.agenda ⊆ t.agenda) (d : s.isDue e = true) : t.isDue e = true := by
  simp only [State.isDue, List.any_eq_true] at d ⊢
  obtain ⟨x, hx, he⟩ := d
  exact ⟨x, h hx, he⟩

theorem agenda_subset_sched (s : State) (n : Nat) (e : Instr) : s.agenda ⊆ (s.sched n e).agenda := List.subset_append_left ..

theorem agenda_subset_schedOnce (s : State) (n : Nat) (e : Instr) : s.agenda ⊆ (s.schedOnce n e).agenda :=
  fun _ => mem_schedOnce

theorem isDue_schedOnce (s : State) (n : Nat) (e : Instr) : (s.schedOnce n e).isDue e = true := by
  unfold State.schedOnce
  split
  · assumption
  · exact isDue_of_mem (n := n) (by simp)

/-! ## The registers of a virtual function (R112) -/

@[simp] theorem vf_modVf_same (s : State) (p : Nat) (h : Vf → Vf) : (s.modVf p h).vf p = h (s.vf p) := by
  simp [State.vf, State.modVf]

theorem schedOnce_parts (s : State) (n : Nat) (e : Instr) : (s.schedOnce n e).parts = s.parts := by
  unfold State.schedOnce
  split <;> rfl

theorem schedOnce_fibres (s : State) (n : Nat) (e : Instr) : (s.schedOnce n e).fibres = s.fibres := by
  unfold State.schedOnce
  split <;> rfl

theorem vf_of_parts {s t : State} (h : t.parts = s.parts) (p : Nat) : t.vf p = s.vf p := by
  rw [State.vf, State.part, h]
  rfl

theorem CoreFrame.parts {s t : State} (h : CoreFrame s t) : t.parts = s.parts := by
  unfold CoreFrame at h
  rw [h]

theorem Quiet.modVf {s t : State} (h : Quiet s t) (p : Nat) (g : Vf → Vf) : Quiet s (t.modVf p g) := ⟨h.1, h.2⟩

theorem Quiet.schedOnce {s t : State} (h : Quiet s t) (n : Nat) (e : Instr) : Quiet s (t.schedOnce n e) :=
  h.trans ⟨schedOnce_memory .., schedOnce_fibres ..⟩

/-- The event leaves a virtual function's registers as u, and memory and the fibres as they were. -/
def VfBecomes (i : Instr) (s : State) (p : Nat) (u : Vf) : Prop :=
  Claims.Completes i s fun t => t.vf p = u ∧ Claims.SameMemory s t ∧ t.fibres = s.fibres

theorem vfBecomes_of_modVf {i : Instr} {s : State} {p : Nat} {g : Vf → Vf} (h : exec i s = .next (s.modVf p g)) :
    VfBecomes i s p (g (s.vf p)) :=
  have q := (Quiet.refl s).modVf p g
  ⟨_, h, vf_modVf_same s p g, q.sameMemory, q.fibres⟩

theorem vfBecomes_of_modVf_schedOnce {i e : Instr} {s : State} {p n : Nat} {g : Vf → Vf}
    (h : exec i s = .next ((s.modVf p g).schedOnce n e)) : VfBecomes i s p (g (s.vf p)) :=
  have q := ((Quiet.refl s).modVf p g).schedOnce n e
  ⟨_, h, (vf_of_parts (schedOnce_parts ..) p).trans (vf_modVf_same s p g), q.sameMemory, q.fibres⟩

/-! ## MSI-X (R117, R119) -/

/-- Whether a vector's message is sent or deferred, no other register of the virtual function changes. -/
theorem vf_msix (s : State) (p n : Nat) : ∃ a b c, (s.msix p n).vf p = { s.vf p with msiWheel := a, msiDefer := b, msiSent := c } := by
  have due : ∃ a b c, (s.msixDue p n).vf p = { s.vf p with msiWheel := a, msiDefer := b, msiSent := c } := by
    unfold State.msixDue
    dsimp only
    split
    · exact ⟨_, _, _, by rw [State.msixSend, vf_modVf_same, vf_modVf_same]⟩
    · exact ⟨_, _, _, rfl⟩
  obtain ⟨a, b, c, h⟩ := due
  unfold State.msix
  dsimp only
  split
  · exact ⟨_, _, _, by rw [vf_of_parts (schedOnce_parts ..), vf_modVf_same, h]⟩
  · exact ⟨_, _, _, by rw [State.msixSend, vf_modVf_same, h]⟩

/-- An MSI-X message changes the partitions and what is due. -/
theorem msix_frame (s : State) (p n : Nat) : ∃ l, s.msix p n = { s with parts := (s.msix p n).parts, agenda := s.agenda ++ l } := by
  have due : s.msixDue p n = { s with parts := (s.msixDue p n).parts } := by
    unfold State.msixDue
    dsimp only
    split <;> rfl
  unfold State.msix State.schedOnce
  dsimp only
  rw [due]
  split
  · split
    · exact ⟨[], by rw [List.append_nil]; rfl⟩
    · exact ⟨_, rfl⟩
  · exact ⟨[], by rw [List.append_nil]; rfl⟩

theorem msix_quiet (s : State) (p n : Nat) : Quiet s (s.msix p n) := by
  obtain ⟨l, h⟩ := msix_frame s p n
  rw [h]
  exact ⟨rfl, rfl⟩

end Sys2Proof.Machine

namespace Sys2Proof.Machine

/-! ## The task port and the completion queue's registers (R113 to R116) -/

/-- A power of two from 16 to 65,536 is a size of the completion queue (R115). -/
theorem cqSizeOk_iff (n : Nat) : cqSizeOk n = true ↔ ∃ k, 4 ≤ k ∧ k ≤ 16 ∧ n = 2 ^ k := by
  simp only [cqSizeOk, Bool.and_eq_true, decide_eq_true_eq, beq_iff_eq]
  constructor
  · rintro ⟨⟨h1, h2⟩, h⟩
    rw [h] at h1 h2
    exact ⟨n.log2, (Nat.pow_le_pow_iff_right (a := 2) (n := 4) (by decide)).mp h1,
      (Nat.pow_le_pow_iff_right (a := 2) (m := 16) (by decide)).mp h2, h⟩
  · rintro ⟨k, h1, h2, rfl⟩
    exact ⟨⟨Nat.pow_le_pow_right (n := 2) (by decide) h1, Nat.pow_le_pow_right (n := 2) (by decide) h2⟩, by rw [Nat.log2_two_pow]⟩

theorem cqSizeOk_eq_false {n : Nat} (h : ¬ ∃ k, 4 ≤ k ∧ k ≤ 16 ∧ n = 2 ^ k) : cqSizeOk n = false :=
  Bool.eq_false_iff.mpr fun k => h ((cqSizeOk_iff n).mp k)

theorem inWindow_iff (s : State) (p a n : Nat) :
    s.inWindow p a n = true ↔ (s.part p).winBase ≤ a ∧ a + n ≤ (s.part p).winBase + (s.part p).winLen := by
  simp [State.inWindow]

/-- The registers after a rejected write or a failed enable (R115, log 51). -/
def cqRejected (v : Vf) (code : Nat) : Vf := { v with cqen := false, cqcode := code, posting := none, postUnit := none }

theorem vfBecomes_of_cqReject {i : Instr} {s : State} {p code : Nat} (h : exec i s = .next (s.cqReject p code)) :
    VfBecomes i s p (cqRejected (s.vf p) code) :=
  vfBecomes_of_modVf (g := fun v => cqRejected v code) h

section
variable {s : State} {p : Nat} {w : Word}

theorem hostSubmit_sends (h : (s.vf p).busy = false) : Claims.Completes (.hostSubmit p w) s fun t =>
    (t.vf p).busy = true ∧ t.agenda = s.agenda ++ [(s.clock + 40, .taskRecord s.nextId)] ∧ Claims.SameMemory s t ∧
    ∃ b, t.subs = s.subs ++ [(s.nextId, b)] ∧ b.part = p ∧ b.who = none ∧ b.answer = none ∧
      b.body = ((List.range 15).flatMap fun i => leBytes 8 (tget 0 (s.vf p).tsub i).toNat) ++ leBytes 8 w.toNat := by
  show ∃ t, execHostSubmit p w s = .next t ∧ _
  simp only [execHostSubmit, h, Bool.false_eq_true, if_false]
  refine ⟨_, rfl, ?_, rfl, sameMemory_of_memory rfl, _, rfl, rfl, rfl, rfl, rfl⟩
  rw [vf_of_parts (State.sched_parts ..), vf_modVf_same]

theorem hostSubmit_busy (h : (s.vf p).busy = true) : VfBecomes (.hostSubmit p w) s p { s.vf p with lost := true } :=
  vfBecomes_of_modVf (g := fun v => { v with lost := true }) (by show execHostSubmit p w s = _; simp only [execHostSubmit, h, if_true])

theorem cqbaseWrite_taken (hc : (s.vf p).cqen = false) (ha : w.toNat % 4096 = 0) (hw : s.inWindow p w.toNat 1 = true) :
    VfBecomes (.cqbaseWrite p w) s p { s.vf p with cqbase := w } :=
  vfBecomes_of_modVf (g := fun v => { v with cqbase := w }) (by show execCqbaseWrite p w s = _; simp [execCqbaseWrite, hc, ha, hw])

theorem cqbaseWrite_outside (hc : (s.vf p).cqen = false) (h : w.toNat % 4096 ≠ 0 ∨ s.inWindow p w.toNat 1 = false) :
    VfBecomes (.cqbaseWrite p w) s p (cqRejected (s.vf p) 1) :=
  vfBecomes_of_cqReject (by show execCqbaseWrite p w s = _; simp [execCqbaseWrite, hc, h])

theorem cqbaseWrite_enabled (hc : (s.vf p).cqen = true) : VfBecomes (.cqbaseWrite p w) s p (cqRejected (s.vf p) 4) :=
  vfBecomes_of_cqReject (by show execCqbaseWrite p w s = _; simp [execCqbaseWrite, hc])

theorem cqsizeWrite_taken (hc : (s.vf p).cqen = false) (hw : cqSizeOk w.toNat = true) :
    VfBecomes (.cqsizeWrite p w) s p { s.vf p with cqsize := w } :=
  vfBecomes_of_modVf (g := fun v => { v with cqsize := w }) (by show execCqsizeWrite p w s = _; simp [execCqsizeWrite, hc, hw])

theorem cqsizeWrite_no_size (hc : (s.vf p).cqen = false) (hw : cqSizeOk w.toNat = false) :
    VfBecomes (.cqsizeWrite p w) s p (cqRejected (s.vf p) 2) :=
  vfBecomes_of_cqReject (by show execCqsizeWrite p w s = _; simp [execCqsizeWrite, hc, hw])

theorem cqsizeWrite_enabled (hc : (s.vf p).cqen = true) : VfBecomes (.cqsizeWrite p w) s p (cqRejected (s.vf p) 4) :=
  vfBecomes_of_cqReject (by show execCqsizeWrite p w s = _; simp [execCqsizeWrite, hc])

theorem cqheadWrite_taken (h : w.toNat < (s.vf p).cqsize.toNat) : VfBecomes (.cqheadWrite p w) s p { s.vf p with cqhead := w } :=
  vfBecomes_of_modVf_schedOnce (g := fun v => { v with cqhead := w })
    (by show execCqheadWrite p w s = _; rw [execCqheadWrite, if_neg (Nat.not_le.mpr h)])

theorem cqheadWrite_beyond (h : (s.vf p).cqsize.toNat ≤ w.toNat) : VfBecomes (.cqheadWrite p w) s p (cqRejected (s.vf p) 3) :=
  vfBecomes_of_cqReject (by show execCqheadWrite p w s = _; rw [execCqheadWrite, if_pos h])

theorem cqEnable_enabled (hc : (s.vf p).cqen = true) : exec (.cqEnable p) s = .next s := by
  show execCqEnable p s = _
  simp only [execCqEnable, hc, if_true]

section
variable (hc : (s.vf p).cqen = false) (hs : cqSizeOk (s.vf p).cqsize.toNat = true) (hb : (s.vf p).cqbase.toNat % 4096 = 0)
  (hw : s.inWindow p (s.vf p).cqbase.toNat (32 * (s.vf p).cqsize.toNat) = true)
include hc hs hb hw

theorem cqEnable_enables (h : (s.vf p).cqhead.toNat < (s.vf p).cqsize.toNat) :
    VfBecomes (.cqEnable p) s p { s.vf p with cqen := true, cqcode := 0, cqtail := (s.vf p).cqhead.toNat } :=
  vfBecomes_of_modVf_schedOnce (g := fun v => { v with cqen := true, cqcode := 0, cqtail := v.cqhead.toNat })
    (n := s.clock) (e := .completionPost p)
    (by show execCqEnable p s = _; simp [execCqEnable, hc, hs, hb, hw, Nat.not_le.mpr h])

theorem cqEnable_head_beyond (h : (s.vf p).cqsize.toNat ≤ (s.vf p).cqhead.toNat) :
    VfBecomes (.cqEnable p) s p (cqRejected (s.vf p) 3) :=
  vfBecomes_of_cqReject (by show execCqEnable p s = _; simp [execCqEnable, hc, hs, hb, hw, h])

end

theorem cqDisable_disables : VfBecomes (.cqDisable p) s p { s.vf p with cqen := false, posting := none, postUnit := none } :=
  vfBecomes_of_modVf (g := fun v => { v with cqen := false, posting := none, postUnit := none }) rfl

/-! ## The mailbox (R119, R120) -/

theorem mbtxgo_sends (h : (s.vf p).txbusy = false) : VfBecomes (.mbtxgo p w) s p { s.vf p with txbusy := true, mbgo := w } := by
  show ∃ t, execMbtxgo p w s = .next t ∧ _
  simp only [execMbtxgo, h, Bool.false_eq_true, if_false]
  refine ⟨_, rfl, ?_, sameMemory_of_memory rfl, rfl⟩
  rw [vf_of_parts (State.sched_parts ..), vf_modVf_same]
  rfl

theorem mbtxgo_busy (h : (s.vf p).txbusy = true) : VfBecomes (.mbtxgo p w) s p { s.vf p with txlost := true } :=
  vfBecomes_of_modVf (g := fun v => { v with txlost := true }) (by show execMbtxgo p w s = _; simp only [execMbtxgo, h, if_true])

/-- Reports on some dies leave every virtual function's registers and memory (R265). -/
theorem foldl_report_vf (ds : List Nat) (s : State) (p q : Nat) (r : Report) : (ds.foldl (fun s d => s.report d q r) s).vf p = s.vf p :=
  vf_of_parts (CoreFrame.foldl (.refl s) (fun s d => .report (.refl s) d q r) ds).parts p

theorem foldl_report_memory (ds : List Nat) (s : State) (q : Nat) (r : Report) :
    (ds.foldl (fun s d => s.report d q r) s).memory = s.memory :=
  foldl_memory _ ds s fun s d => report_memory s d q r

theorem mailboxEntry_enters (h : (s.vf p).txbusy = true) (hr : ((s.vf p).mbitail + 1) % 16 ≠ (s.vf p).mbihead) :
    Claims.Completes (.mailboxEntry p) s fun t =>
      (t.vf p).txbusy = false ∧ (t.vf p).mbitail = ((s.vf p).mbitail + 1) % 16 ∧
      tfind (t.vf p).mbin (s.vf p).mbitail = some ((List.range 7).map (fun i => tget 0 (s.vf p).mbtx i) ++ [(s.vf p).mbgo]) ∧
      Claims.SameMemory s t := by
  show ∃ t, execMailboxEntry p s = .next t ∧ _
  simp only [execMailboxEntry, h, hr, Bool.not_true, Bool.false_eq_true, if_false]
  refine ⟨_, rfl, ?_, ?_, ?_, sameMemory_of_memory (foldl_report_memory ..)⟩
  all_goals rw [foldl_report_vf, vf_modVf_same]
  exact tfind_tset_same ..

theorem mailboxEntry_full (h : (s.vf p).txbusy = true) (hr : ((s.vf p).mbitail + 1) % 16 = (s.vf p).mbihead) :
    VfBecomes (.mailboxEntry p) s p { s.vf p with txbusy := false, txfull := true } :=
  vfBecomes_of_modVf (g := fun v => { v with txbusy := false, txfull := true })
    (by show execMailboxEntry p s = _; simp [execMailboxEntry, h, hr])

theorem mbrxack_drops : VfBecomes (.mbrxack p) s p { s.vf p with mbrx := (s.vf p).mbrx.drop 1 } :=
  vfBecomes_of_modVf (g := fun v => { v with mbrx := v.mbrx.drop 1 }) rfl

theorem mbihead_moves (ha : (s.part p).active = true) : VfBecomes (.mbihead p w) s p { s.vf p with mbihead := w.toNat % 16 } :=
  vfBecomes_of_modVf (g := fun v => { v with mbihead := w.toNat % 16 }) (by show execMbihead p w s = _; simp [execMbihead, ha])

theorem mbogo_full (ha : (s.part p).active = true) (h : 16 ≤ (s.vf p).mbrx.length) :
    VfBecomes (.mbogo p w) s p { s.vf p with mbofull := true } :=
  vfBecomes_of_modVf (g := fun v => { v with mbofull := true }) (by show execMbogo p w s = _; simp [execMbogo, ha, h])

theorem mbogo_sends (ha : (s.part p).active = true) (h : (s.vf p).mbrx.length < 16) : Claims.Completes (.mbogo p w) s fun t =>
    (t.vf p).mbrx = (s.vf p).mbrx ++ [(List.range 7).map (fun i => tget 0 (s.vf p).mbow i) ++ [w]] ∧ Claims.SameMemory s t ∧
    t.fibres = s.fibres := by
  let u := s.modVf p fun x => { x with
    mbrx := x.mbrx ++ [(List.range 7).map (fun i => tget 0 (s.vf p).mbow i) ++ [w]], mbofull := false }
  have q : Quiet s (u.msix p 1) := ((Quiet.refl s).modVf ..).trans (msix_quiet ..)
  obtain ⟨a, b, c, hv⟩ := vf_msix u p 1
  refine ⟨u.msix p 1, by show execMbogo p w s = _; simp [execMbogo, ha, Nat.not_le.mpr h, u], ?_, q.sameMemory, q.fibres⟩
  rw [hv]
  show (u.vf p).mbrx = _
  rw [vf_modVf_same]

/-- A partition that is not active writes none of its registers on a die (R120, R265). -/
theorem inactive_writes_nothing (ha : (s.part p).active = false) (d : Nat) :
    exec (.mbihead p w) s = .next s ∧ exec (.mbogo p w) s = .next s ∧ exec (.rephead d p w) s = .next s ∧
    exec (.replost d p) s = .next s := by
  refine ⟨?_, ?_, ?_, ?_⟩
  · show execMbihead p w s = _
    simp [execMbihead, ha]
  · show execMbogo p w s = _
    simp [execMbogo, ha]
  · show execRephead d p w s = _
    simp [execRephead, ha]
  · show execReplost d p s = _
    simp [execReplost, ha]

end

/-! ## The statement -/

/-- Settles O44: each write of a virtual function's registers by the equation of its event. -/
theorem hostPortEvents : Obligations.HostPortEvents := by
  unfold Obligations.HostPortEvents
  intro s p w d v x size power inside to' rejected
  have hp (n : Nat) : cqSizeOk n = true ↔ power n := cqSizeOk_iff n
  have hi (a n : Nat) : s.inWindow p a n = true ↔ inside a n := inWindow_iff s p a n
  have hp' {n : Nat} (h : ¬ power n) : cqSizeOk n = false := cqSizeOk_eq_false h
  have hi' {a n : Nat} (h : ¬ inside a n) : s.inWindow p a n = false := Bool.eq_false_iff.mpr fun k => h ((hi a n).mp k)
  refine ⟨hostSubmit_sends, hostSubmit_busy, fun hc => ⟨?_, ?_, ?_, ?_, ?_, ?_⟩,
    fun hc => ⟨cqbaseWrite_enabled hc, cqsizeWrite_enabled hc, cqEnable_enabled hc⟩, cqheadWrite_taken, cqheadWrite_beyond,
    cqDisable_disables, mbtxgo_sends, mbtxgo_busy, mailboxEntry_enters, mailboxEntry_full, mbrxack_drops,
    fun ha => ⟨mbihead_moves ha, mbogo_sends ha, mbogo_full ha⟩, fun ha => inactive_writes_nothing ha d⟩
  · exact fun ha hw => cqbaseWrite_taken hc ha ((hi ..).mpr hw)
  · exact fun h => cqbaseWrite_outside hc (h.imp_right hi')
  · exact fun h => cqsizeWrite_taken hc ((hp _).mpr h)
  · exact fun h => cqsizeWrite_no_size hc (hp' h)
  · exact fun hs hb hw h => cqEnable_enables hc ((hp _).mpr hs) hb ((hi ..).mpr hw) h
  · exact fun hs hb hw h => cqEnable_head_beyond hc ((hp _).mpr hs) hb ((hi ..).mpr hw) h

end Sys2Proof.Machine

namespace Sys2Proof.Machine

/-! ## An event on its way over the networks (R37, R38) -/

/-- What the sending of an event may change: the networks' buffers, the accesses that merge there, the count of free values, and what is
due, to which it adds. -/
def SendFrame (s t : State) : Prop :=
  ∃ l, t = { s with
    agenda := s.agenda ++ l, fresh := t.fresh, tiles := t.tiles, flight := t.flight
    pkg := { s.pkg with rbuf := t.pkg.rbuf, rwait := t.pkg.rwait, ioSlots := t.pkg.ioSlots } }

namespace SendFrame

theorem of_net {s t : State} (h : NetFrame s t) : SendFrame s t := by
  unfold NetFrame at h
  refine ⟨[], ?_⟩
  rw [h, List.append_nil]

theorem refl (s : State) : SendFrame s s := of_net (.refl s)

theorem trans {s t u : State} (h : SendFrame s t) (k : SendFrame t u) : SendFrame s u := by
  obtain ⟨l, h⟩ := h
  obtain ⟨m, k⟩ := k
  refine ⟨l ++ m, ?_⟩
  rw [← List.append_assoc]
  refine Eq.trans k ?_
  rw [h]

theorem foldl {α : Type} {g : State → α → State} (k : ∀ s a, SendFrame s (g s a)) (l : List α) (s : State) :
    SendFrame s (l.foldl g s) :=
  List.foldlRecOn (motive := SendFrame s) _ _ (refl s) fun u hu a _ => hu.trans (k u a)

section
variable {s t : State} (h : SendFrame s t)
include h

theorem cur : t.cur = s.cur := by obtain ⟨l, h⟩ := h; rw [h]
theorem fibres : t.fibres = s.fibres := by obtain ⟨l, h⟩ := h; rw [h]
theorem dies : t.dies = s.dies := by obtain ⟨l, h⟩ := h; rw [h]
theorem parts : t.parts = s.parts := by obtain ⟨l, h⟩ := h; rw [h]
theorem subs : t.subs = s.subs := by obtain ⟨l, h⟩ := h; rw [h]
theorem queries : t.queries = s.queries := by obtain ⟨l, h⟩ := h; rw [h]
theorem memory : t.memory = s.memory := by obtain ⟨l, h⟩ := h; rw [h]; rfl
theorem agenda : s.agenda ⊆ t.agenda := by
  obtain ⟨l, h⟩ := h
  rw [h]
  exact List.subset_append_left ..

theorem me : t.me = s.me := by rw [State.me, h.cur, State.fib, h.fibres]; rfl
theorem die (n : Nat) : t.die n = s.die n := by rw [State.die, h.dies]; rfl

end

end SendFrame

theorem sendEv_sendFrame (s : State) (src dst : Nat) (r : Bool) (p : Nat) (e : Instr) : SendFrame s (s.sendEv src dst r p e) := by
  unfold State.sendEv
  split
  · exact ⟨_, rfl⟩
  · exact .of_net (inject_netFrame ..)

end Sys2Proof.Machine

namespace Sys2Proof.Machine

/-! ## The record of a TASKQ in the own tile store (R108, R446) -/

theorem getBytes_append (m : List Host.Cell) (a n k : Nat) : getBytes m a (n + k) = getBytes m a n ++ getBytes m (a + n) k := by
  induction n generalizing a with
  | zero => simp [getBytes]
  | succ n ih =>
    rw [Nat.add_right_comm n 1 k, getBytes, ih, getBytes, List.cons_append, Nat.add_right_comm a 1 n]
    rfl

/-- A record of 128 bytes at a multiple of 128 is two lines. -/
theorem linePieces_record {a : Nat} (h : a % 128 = 0) : linePieces a 128 = [(a, 64), (a + 64, 64)] := by
  have h1 : a % 64 = 0 := by omega
  simp [linePieces, pieces, h1]

/-- A capability that passes CheckCap names a span whose first byte has a home. -/
theorem home_of_checkCap {s : State} {c : Cap} {a n perm : Nat} {w : Bool} {h : Home} (k : s.checkCap c a n perm w = .ok h) :
    s.home s.cur.core c.space a = some h := by
  unfold State.checkCap State.checkCapAt at k
  split at k
  · cases k
  · dsimp only at k
    split at k
    · cases k
    · split at k
      · cases k
      · split at k
        · rename_i h' hh
          rw [hh, Except.ok.inj k]
        · cases k

theorem checkBlock_of_checkCap {s : State} {c : Cap} {a n perm : Nat} {w : Bool} {h : Home} (k : s.checkCap c a n perm w = .ok h) :
    s.checkBlock c a n perm w = .ok h := by
  unfold State.checkCap at k
  simp only [State.checkBlock, State.checkSpanAt, k]

theorem ownTile_of_ownStore {s : State} {pa : Nat} (h : Claims.OwnStore s pa) : State.ownTile s.cur.core (.mem pa) = true := by
  obtain ⟨hs, hk, hi⟩ := h
  simp [State.ownTile, hs, hk, hi]

/-- A piece in the own tile store is read in the issue cycle. -/
theorem pieceStep_own {s : State} {pa : Nat} (h : State.ownTile s.cur.core (.mem pa) = true) (b : Block) (a n : Nat) :
    s.pieceStep b (a, n, .mem pa) =
      s.modMe fun f => { f with buf := f.buf ++ [(State.pieceKey b.c.space a n, s.readBytes pa n)] } := by
  simp [State.pieceStep, h]

/-- The two lines of a record have different names in the buffer. -/
theorem pieceKey_next_line (space a : Nat) : State.pieceKey space (a + 64) 64 ≠ State.pieceKey space a 64 := by
  unfold State.pieceKey va56
  omega

/-- The executing fibre with the two lines of a record in its buffer. -/
def recordRead (s : State) (space a pa : Nat) : State :=
  s.setFib s.cur { s.me with
    buf := [(State.pieceKey space a 64, s.readBytes pa 64), (State.pieceKey space (a + 64) 64, s.readBytes (pa + 64) 64)] }

theorem pieceSteps_recordRead {s : State} {pa : Nat} (t0 : State.ownTile s.cur.core (.mem pa) = true)
    (t1 : State.ownTile s.cur.core (.mem (pa + 64)) = true) (b : Block) (a : Nat) :
    ((s.modMe fun f => { f with buf := [] }).pieceStep b (a, 64, .mem pa)).pieceStep b (a + 64, 64, .mem (pa + 64)) =
      recordRead s b.c.space a pa := by
  rw [pieceStep_own (s := s.modMe _) t0, pieceStep_own (s := (s.modMe _).modMe _) t1]
  simp [State.modMe, State.modFib, State.me, recordRead, State.readBytes]

theorem assembleAll_recordRead (s : State) (c : Cap) (kn pa : Nat) {a : Nat} (ha : a % 128 = 0) :
    State.assembleAll (recordRead s c.space a pa).me.buf [⟨c, kn, a, 128⟩] = [s.readBytes pa 128] := by
  have lines : s.readBytes pa 128 = s.readBytes pa 64 ++ s.readBytes (pa + 64) 64 := getBytes_append s.mem pa 64 64
  simp [State.assembleAll, State.assemble, linePieces_record ha, recordRead, State.me, tget,
    (pieceKey_next_line c.space a).symm, lines]

theorem modMe_recordRead (s : State) (space a pa : Nat) :
    (recordRead s space a pa).modMe (fun f => { f with buf := [] }) = s.setFib s.cur { s.me with buf := [] } := by
  simp [recordRead, State.modMe, State.modFib]

/-- What TASKQ needs for its record to be read in its issue cycle: two lines in the own tile store, without errors, and no earlier
access of the fibre to them outstanding. -/
structure RecordAtHand (s : State) (c : Cap) (a pa : Nat) : Prop where
  aligned : a % 128 = 0
  allowed : s.checkCap c a 128 State.pR false = .ok (.mem pa)
  own : Claims.OwnStore s pa
  ownNext : Claims.OwnStore s (pa + 64)
  homeNext : s.home s.cur.core c.space (a + 64) = some (.mem (pa + 64))
  sound : s.readError pa 64 = none
  soundNext : s.readError (pa + 64) 64 = none
  free : s.mustHold s.cur c.space (a % 2 ^ 56) 64 = false
  freeNext : s.mustHold s.cur c.space ((a + 64) % 2 ^ 56) 64 = false
  noPieces : s.piecesOf s.cur = false

theorem pieceHomes_record {s : State} {c : Cap} {a pa : Nat} (r : RecordAtHand s c a pa) :
    s.pieceHomes c.space a 128 = [(a, 64, .mem pa), (a + 64, 64, .mem (pa + 64))] := by
  simp [State.pieceHomes, linePieces_record r.aligned, home_of_checkCap r.allowed, r.homeNext]

theorem granuleOk_of_ownStore {s : State} {pa : Nat} (h : Claims.OwnStore s pa) : s.granuleOk s.cur.core pa = true := by
  obtain ⟨-, hk, -⟩ := h
  simp [State.granuleOk, hk]

/-- A record in the own tile store is read in the issue cycle: its reader goes on with its bytes and an empty buffer. -/
theorem readBlock_record {s : State} {c : Cap} {a pa : Nat} (r : RecordAtHand s c a pa) (kn : Nat) (i : Instr)
    (k : State → List Byte → Out) :
    s.readBlock c kn a 128 i k = k (s.setFib s.cur { s.me with buf := [] }) (s.readBytes pa 128) := by
  have t0 := ownTile_of_ownStore r.own
  have t1 := ownTile_of_ownStore r.ownNext
  have p : (recordRead s c.space a pa).piecesOf s.cur = false := r.noPieces
  simp only [State.readBlock, State.readBlocks, List.flatMap_cons, List.flatMap_nil, pieceHomes_record r, List.map_cons, List.map_nil,
    List.append_nil, List.any_cons, List.any_nil, va56, r.free, r.freeNext, List.find?_cons, List.find?_nil,
    granuleOk_of_ownStore r.own, granuleOk_of_ownStore r.ownNext, State.ownError, List.filterMap_cons, List.filterMap_nil, t0, t1,
    r.sound, r.soundNext, List.foldl_cons, List.foldl_nil, Option.map_none, List.head?_nil, Bool.or_false, Bool.false_eq_true, if_false,
    Bool.not_true, pieceSteps_recordRead t0 t1, p, assembleAll_recordRead s c kn pa r.aligned, modMe_recordRead, List.headD_cons]

/-! ## TASKQ (R108) -/

/-- The record of the executing fibre has left for its task unit, and the fibre waits for the answer. -/
def RecordSent (s t : State) (d : BitVec 3) (bs : List Byte) (arg : Cap) (given : Bool) : Prop :=
  t.me.status = .parked ∧ t.me.park = 2 ∧ t.me.cont = .taskq d ∧ t.me.pc = s.me.pc ∧ t.me.g = s.me.g ∧ Claims.SameMemory s t ∧
  ∃ b, t.subs = s.subs ++ [(s.nextId, b)] ∧ b.part = s.myPart ∧ b.who = some s.cur ∧ b.body = bs ∧ b.arg = arg ∧ b.argGiven = given

theorem me_parkF_cur (s : State) (n : Nat) (c : Cont) :
    (s.parkF s.cur n c).me = { s.me with status := .parked, park := n, cont := c, counted := c == .retry || c == .lease } :=
  fib_parkF s s.cur n c

/-- A record of which the reads have ended leaves as the submission of the executing fibre. -/
theorem submitNow_sends (s : State) (i : Instr) (bs : List Byte) :
    RecordSent s (s.submitNow s.cur i bs) (State.taskqDest i) bs (State.taskqArg s.me i).1 (State.taskqArg s.me i).2 := by
  let b : Submission := { part := s.myPart, who := some s.cur, die := s.recordDie s.myPart bs, body := bs
                          arg := (State.taskqArg s.me i).1, argGiven := (State.taskqArg s.me i).2, d := State.taskqDest i }
  let u : State := { s with nextId := s.nextId + 1, subs := s.subs ++ [(s.nextId, b)] }
  have f : SendFrame (u.parkF s.cur 2 (.taskq (State.taskqDest i))) (s.submitNow s.cur i bs) := sendEv_sendFrame ..
  have me : (s.submitNow s.cur i bs).me = _ := f.me.trans (me_parkF_cur u 2 (.taskq (State.taskqDest i)))
  refine ⟨by rw [me], by rw [me], by rw [me], by rw [me]; rfl, by rw [me]; rfl, sameMemory_of_memory f.memory, b, f.subs, rfl, rfl, rfl,
    rfl, rfl⟩

section
variable {s : State} {a : BitVec 3} {k : BitVec 2} {pa : Nat}

theorem taskqCommon_sends (i : Instr) (r : RecordAtHand s (s.k k) (wrap 64 ((s.k k).cursor + (s.g a).toNat)) pa)
    (h : s.releaseDone s.cur scopeWhole = true) :
    s.taskqCommon i a k = .next ((s.setFib s.cur { s.me with buf := [] }).submitNow s.cur i (s.readBytes pa 128)) := by
  have hs : isService s.cur.core = false := r.own.1
  have hr : (s.setFib s.cur { s.me with buf := [] }).releaseDone s.cur scopeWhole = true := h
  simp only [State.taskqCommon, r.aligned, checkBlock_of_checkCap r.allowed, readBlock_record r, State.taskqPayload, hs, hr, ne_eq,
    not_true_eq_false, if_false, if_true, Bool.false_eq_true]

theorem taskqCommon_misaligned (i : Instr) (h : wrap 64 ((s.k k).cursor + (s.g a).toNat) % 128 ≠ 0) :
    s.taskqCommon i a k = .next (s.trapEntry s.cur 8 (word (wrap 64 ((s.k k).cursor + (s.g a).toNat))) false s.me.pc) := by
  simp only [State.taskqCommon, h, ne_eq, not_false_eq_true, if_true, State.raise]

/-- A TASKQ whose record is at hand and which has nothing to release first. -/
theorem taskq_sends {i : Instr} (hi : exec i s = s.taskqCommon i a k)
    (r : RecordAtHand s (s.k k) (wrap 64 ((s.k k).cursor + (s.g a).toNat)) pa) (h : s.releaseDone s.cur scopeWhole = true) :
    Claims.Completes i s fun t =>
      RecordSent s t (State.taskqDest i) (s.readBytes pa 128) (State.taskqArg s.me i).1 (State.taskqArg s.me i).2 := by
  have q := submitNow_sends (s.setFib s.cur { s.me with buf := [] }) i (s.readBytes pa 128)
  have me : (s.setFib s.cur { s.me with buf := [] }).me = { s.me with buf := [] } := State.fib_setFib_same ..
  have arg : State.taskqArg { s.me with buf := [] } i = State.taskqArg s.me i := by
    unfold State.taskqArg
    split <;> rfl
  unfold RecordSent at q
  rw [me, arg] at q
  exact ⟨_, hi.trans (taskqCommon_sends i r h), q⟩

end

/-! ## TWAIT (R109) -/

section
variable {s : State} {a : BitVec 3} (d : BitVec 3) (poll : Bool) (i : Instr)

/-- A query of the executing fibre is on its way to the task unit of its die, and the fibre waits for the answer. -/
def QuerySent (s t : State) (d : BitVec 3) (v : Word) (poll : Bool) : Prop :=
  t.me.status = .parked ∧ t.me.park = 9 ∧ t.me.cont = .task d s.nextId ∧ t.me.pc = s.me.pc ∧ t.me.g = s.me.g ∧ Claims.SameMemory s t ∧
  ∃ q, t.queries = s.queries ++ [(s.nextId, q)] ∧ q.who = s.cur ∧ q.part = s.myPart ∧ q.die = bits v.toNat 47 44 ∧
    q.ix = bits v.toNat 43 32 ∧ q.ord = v.toNat % 2 ^ 32 ∧ q.poll = poll

variable {i} (hv : (s.g a).toNat < 2 ^ 48)
include hv

theorem twait_sends (hi : exec i s = s.twaitCommon i d a poll) (h : bits (s.g a).toNat 47 44 ≤ 5) :
    Claims.Completes i s fun t => QuerySent s t d (s.g a) poll := by
  have h0 : (s.g a).toNat / 2 ^ 48 = 0 := Nat.div_eq_of_lt hv
  let q : Query := { who := s.cur, part := s.myPart, die := field (s.g a) 47 44, ix := field (s.g a) 43 32
                     ord := field (s.g a) 31 0, poll }
  let u : State := { s with nextId := s.nextId + 1, queries := s.queries ++ [(s.nextId, q)] }
  let t := (u.parkMe 9 (.task d s.nextId)).sendEv (coreNode s.cur.core) (blockNode q.die) false s.myPart (.twaitQuery s.nextId)
  have f : SendFrame (u.parkMe 9 (.task d s.nextId)) t := sendEv_sendFrame ..
  have me : t.me = _ := f.me.trans (me_parkF_cur u 9 (.task d s.nextId))
  refine ⟨t, hi.trans ?_, by rw [me], by rw [me], by rw [me], by rw [me]; rfl, by rw [me]; rfl, sameMemory_of_memory f.memory,
    q, f.queries, rfl, rfl, rfl, rfl, ?_, rfl⟩
  · unfold State.twaitCommon
    simp only [h0, field, Nat.not_lt.mpr h, ne_eq, not_true_eq_false, if_false]
    rfl
  · show (s.g a).toNat / 2 ^ 0 % 2 ^ 32 = _
    rw [Nat.pow_zero, Nat.div_one]

theorem twait_no_die (hi : exec i s = s.twaitCommon i d a poll) (h : 5 < bits (s.g a).toNat 47 44) :
    Claims.Traps i s 1 (s.g a) := by
  have h0 : (s.g a).toNat / 2 ^ 48 = 0 := Nat.div_eq_of_lt hv
  refine hi.trans ?_
  simp only [State.twaitCommon, h0, field, h, ne_eq, not_true_eq_false, if_false, if_true, State.raise]

end

/-! ## The statement -/

section
variable (s : State) (d a : BitVec 3) (c k : BitVec 2)

theorem exec_taskq : exec (.taskq d a k) s = s.taskqCommon (.taskq d a k) a k := by
  show execTaskq d a k s = _
  rw [execTaskq, guard_runs rfl rfl]

theorem exec_taskqKc : exec (.taskqKc d a c k) s = s.taskqCommon (.taskqKc d a c k) a k := by
  show execTaskqKc d a c k s = _
  rw [execTaskqKc, guard_runs rfl rfl]

theorem exec_twait : exec (.twait d a) s = s.twaitCommon (.twait d a) d a false := by
  show execTwait d a s = _
  rw [execTwait, guard_runs rfl rfl]

theorem exec_twaitPoll : exec (.twaitPoll d a) s = s.twaitCommon (.twaitPoll d a) d a true := by
  show execTwaitPoll d a s = _
  rw [execTwaitPoll, guard_runs rfl rfl]


end

theorem taskSubmission : Claims.TaskSubmission := by
  unfold Claims.TaskSubmission
  intro s d a c k pa addr left
  refine ⟨fun aligned allowed own ownNext homeNext sound soundNext free freeNext noPieces released => ?_, fun h => ?_⟩
  · have r : RecordAtHand s (s.k k) addr pa :=
      { aligned, allowed, own, ownNext, homeNext, sound, soundNext, free, freeNext, noPieces }
    exact ⟨taskq_sends (exec_taskq s d a k) r released, taskq_sends (exec_taskqKc s d a c k) r released⟩
  · exact ⟨(exec_taskq ..).trans (taskqCommon_misaligned _ h), (exec_taskqKc ..).trans (taskqCommon_misaligned _ h)⟩

theorem taskWaits : Claims.TaskWaits := by
  unfold Claims.TaskWaits
  intro s d a v asks
  exact ⟨fun hv h => ⟨twait_sends d false hv (exec_twait s d a) h, twait_sends d true hv (exec_twaitPoll s d a) h⟩,
    fun hv h => ⟨twait_no_die d false hv (exec_twait s d a) h, twait_no_die d true hv (exec_twaitPoll s d a) h⟩⟩

/-- Settles O23: a record in the own tile store is read in the issue cycle, and it or the query leaves as one event. -/
theorem taskInstructions : Obligations.TaskInstructions := ⟨taskSubmission, taskWaits⟩

end Sys2Proof.Machine

namespace Sys2Proof.Machine

/-! ## Entries of an in-flight table (R94) -/

/-- An entry of a die's in-flight table. -/
def taskAt (s : State) (die ix : Nat) : Task := tget {} (s.die die).tasks ix

theorem taskAt_of_die {s t : State} {die : Nat} (h : t.die die = s.die die) (ix : Nat) : taskAt t die ix = taskAt s die ix := by
  rw [taskAt, h]
  rfl

@[simp] theorem taskAt_modTask_same (s : State) (die ix : Nat) (h : Task → Task) :
    taskAt (s.modTask die ix h) die ix = h (taskAt s die ix) := by
  simp [taskAt, State.modTask]

/-- A change of an entry, seen from an entry of the same die. -/
theorem taskAt_modTask (s : State) (die x ix : Nat) (h : Task → Task) :
    taskAt (s.modTask die x h) die ix = if ix = x then h (taskAt s die ix) else taskAt s die ix := by
  split
  · subst ix
    exact taskAt_modTask_same ..
  · simp only [taskAt, State.modTask, State.die_modDie_same, tget_tmod_ne _ _ _ ‹_›]

/-! ## What a schedule leaves as it was -/

theorem schedOnce_sendFrame (s : State) (n : Nat) (e : Instr) : SendFrame s (s.schedOnce n e) := by
  unfold State.schedOnce
  split
  · exact .refl s
  · exact ⟨_, rfl⟩

theorem placeBy_sendFrame (s : State) (die n : Nat) : SendFrame s (s.placeBy die n) := by
  unfold State.placeBy
  split
  · exact .refl s
  · exact ⟨_, rfl⟩

theorem isDue_placeBy (s : State) (die n : Nat) : (s.placeBy die n).isDue (.taskPlace die) = true := by
  unfold State.placeBy
  split
  · rename_i h
    simp only [List.any_eq_true, Bool.and_eq_true] at h
    obtain ⟨x, hx, he, -⟩ := h
    exact List.any_eq_true.mpr ⟨x, hx, he⟩
  · exact isDue_of_mem (n := n) (by simp)

theorem atBoundary_sendFrame (s : State) (p die : Nat) : SendFrame s (s.atBoundary p die) := by
  unfold State.atBoundary
  split
  · exact schedOnce_sendFrame ..
  · exact .refl s

/-! ## A record at its task unit (R94 to R100, R108, R113) -/

theorem recordCheck_host {s : State} {b : Submission} {t : Task} (h : s.recordCheck b = .ok t) : t.host = b.who.isNone := by
  unfold State.recordCheck at h
  dsimp only at h
  repeat' split at h
  all_goals cases h
  all_goals rfl

theorem answerRecord_host {s : State} {b : Submission} (hw : b.who = none) (id e : Nat) (w : Word) : s.answerRecord id b e w =
    ({ s with subs := tdel s.subs id }).modVf b.part fun v => { v with busy := false, code := e } := by
  unfold State.answerRecord
  rw [hw]

theorem answerRecord_fibre {s : State} {b : Submission} {f : FibreRef} (hw : b.who = some f) (id e : Nat) (w : Word) :
    SendFrame { s with subs := tset s.subs id { b with answer := some w } } (s.answerRecord id b e w) := by
  unfold State.answerRecord
  rw [hw]
  exact sendEv_sendFrame ..

/-- The state after a record has taken entry ix of its die, which is then dd: its task, its number, and the host's sequence number. -/
def entered (s : State) (b : Submission) (t : Task) (ix : Nat) (dd : Die) : State :=
  let u := { s.setDie b.die { dd with tasks := tset dd.tasks ix t, ord := tset dd.ord b.part ((t.ord + 1) % 2 ^ 32) } with
    nextId := s.nextId + 1 }
  if t.host then u.modVf b.part fun v => { v with lastAcc := t.seq } else u

theorem acceptTask_eq {s : State} {b : Submission} {ix : Nat} {dd : Die} (h : State.takeEntry (s.die b.die) = some (ix, dd)) (t : Task) :
    s.acceptTask b t = (ix, (entered s b t ix dd).placeBy b.die (s.clock + 63)) := by
  unfold State.acceptTask
  rw [h]
  dsimp only [entered]
  split <;> rfl

theorem entered_die (s : State) (b : Submission) (t : Task) (ix : Nat) (dd : Die) : (entered s b t ix dd).die b.die =
    { dd with tasks := tset dd.tasks ix t, ord := tset dd.ord b.part ((t.ord + 1) % 2 ^ 32) } := by
  unfold entered
  dsimp only
  split <;> exact State.die_setDie_same ..

theorem entered_memory (s : State) (b : Submission) (t : Task) (ix : Nat) (dd : Die) : (entered s b t ix dd).memory = s.memory := by
  unfold entered
  dsimp only
  split <;> rfl

theorem entered_lastAcc (s : State) (b : Submission) {t : Task} (ht : t.host = true) (ix : Nat) (dd : Die) :
    ((entered s b t ix dd).vf b.part).lastAcc = t.seq := by
  unfold entered
  simp only [ht, if_true, vf_modVf_same]

/-- The entry that an accepted record has taken (R94). -/
theorem accepted_die (s : State) (b : Submission) (t : Task) (ix : Nat) (dd : Die) :
    ((entered s b t ix dd).placeBy b.die (s.clock + 63)).die b.die =
      { dd with tasks := tset dd.tasks ix t, ord := tset dd.ord b.part ((t.ord + 1) % 2 ^ 32) } :=
  ((placeBy_sendFrame ..).die _).trans (entered_die ..)

section
variable {s : State} {id : Nat} {b : Submission}

theorem taskRecord_none (h : tfind s.subs id = none) : exec (.taskRecord id) s = .next s := by
  show execTaskRecord id s = _
  simp only [execTaskRecord, h]

/-- The answer of a record reaches its fibre, which goes on behind its TASKQ (R70, R108). -/
theorem taskRecord_answers {f : FibreRef} {w : Word} {d : BitVec 3} (hb : tfind s.subs id = some b) (hf : b.who = some f)
    (hw : b.answer = some w) (hc : (s.fib f).cont = .taskq d) : Claims.Completes (.taskRecord id) s fun t =>
      (t.fib f).g = lset (s.fib f).g d.toNat w ∧ (t.fib f).status = .ready ∧ (t.fib f).pc = (s.fib f).pc + 4 ∧
      tfind t.subs id = none ∧ Claims.SameMemory s t := by
  let u : State := (({ s with subs := tdel s.subs id }).addDelay f.core 9 (s.fib f).delay).modFib f fun x => { x with delay := 0 }
  have hu : u.fib f = { s.fib f with delay := 0 } := by
    rw [State.fib_modFib_same, State.addDelay, State.fib_after_modCore]
    rfl
  have hg : (u.setGOf f d w).fib f = { s.fib f with delay := 0, g := lset (s.fib f).g d.toNat w } := by
    rw [State.setGOf, State.fib_modFib_same, hu]
  have e : exec (.taskRecord id) s = .next ((u.setGOf f d w).complete f) := by
    show execTaskRecord id s = _
    have hc' : (State.fib { s with subs := tdel s.subs id } f).cont = .taskq d := hc
    simp only [execTaskRecord, hb, hw, State.taskqBack, hf, hc']
    rfl
  have hs : ((u.setGOf f d w).complete f).subs = tdel s.subs id := by
    rw [State.complete_subs, State.setGOf_subs, State.modFib_subs, State.addDelay, State.modCore_subs]
  have hm : ((u.setGOf f d w).complete f).memory = s.memory := by
    simp [State.memory, u, State.addDelay]
  refine ⟨_, e, ?_, ?_, ?_, ?_, sameMemory_of_memory hm⟩
  · rw [fib_complete, hg]
  · rw [fib_complete, hg]
  · rw [fib_complete, hg]
  · rw [hs, tfind_tdel_same]

variable (hb : tfind s.subs id = some b) (ha : b.answer = none)
include hb ha

theorem taskRecord_waits (he : s.endsDue = true) : exec (.taskRecord id) s = .next (s.now (.taskRecord id)) := by
  show execTaskRecord id s = _
  simp only [execTaskRecord, hb, ha, he, if_true]

section
variable (he : s.endsDue = false)
include he

section
variable {e : Nat} (hc : s.recordCheck b = .error e)
include hc

theorem exec_taskRecord_refused :
    exec (.taskRecord id) s = .next (s.answerRecord id b e (word (2 ^ 63 + e * 2 ^ 48))) := by
  show execTaskRecord id s = _
  simp only [execTaskRecord, hb, ha, he, hc, Bool.false_eq_true, if_false]

theorem taskRecord_refuses_host (hw : b.who = none) : Claims.Completes (.taskRecord id) s fun t =>
    (t.vf b.part).busy = false ∧ (t.vf b.part).code = e ∧ tfind t.subs id = none ∧ t.dies = s.dies ∧ Claims.SameMemory s t := by
  have h := exec_taskRecord_refused hb ha he hc
  rw [answerRecord_host hw] at h
  refine ⟨_, h, ?_, ?_, tfind_tdel_same .., rfl, sameMemory_of_memory rfl⟩
  · rw [vf_modVf_same]
  · rw [vf_modVf_same]

theorem taskRecord_refuses_fibre {f : FibreRef} (hw : b.who = some f) : Claims.Completes (.taskRecord id) s fun t =>
    tfind t.subs id = some { b with answer := some (word (2 ^ 63 + e * 2 ^ 48)) } ∧ Claims.SameMemory s t := by
  have k := answerRecord_fibre (s := s) hw id e (word (2 ^ 63 + e * 2 ^ 48))
  refine ⟨_, exec_taskRecord_refused hb ha he hc, ?_, sameMemory_of_memory k.memory⟩
  rw [k.subs]
  exact tfind_tset_same ..

end

section
variable {task : Task} {ix : Nat} {dd : Die} (hc : s.recordCheck b = .ok task) (ht : State.takeEntry (s.die b.die) = some (ix, dd))
include hc ht

theorem exec_taskRecord_accepted : exec (.taskRecord id) s = .next
    (((entered s b task ix dd).placeBy b.die (s.clock + 63)).answerRecord id b 0 (State.taskqWord b.die ix task.ord)) := by
  show execTaskRecord id s = _
  simp only [execTaskRecord, hb, ha, he, hc, acceptTask_eq ht, Bool.false_eq_true, if_false]

theorem taskRecord_accepts_host (hw : b.who = none) : Claims.Completes (.taskRecord id) s fun t =>
    (t.vf b.part).busy = false ∧ (t.vf b.part).code = 0 ∧ (t.vf b.part).lastAcc = task.seq ∧ tfind t.subs id = none ∧
    taskAt t b.die ix = task ∧ (t.die b.die).freed = dd.freed ∧ (t.die b.die).nextFresh = dd.nextFresh ∧
    t.isDue (.taskPlace b.die) = true ∧ Claims.SameMemory s t := by
  have h := exec_taskRecord_accepted hb ha he hc ht
  rw [answerRecord_host hw] at h
  have hh : task.host = true := by rw [recordCheck_host hc, hw]; rfl
  have f := placeBy_sendFrame (entered s b task ix dd) b.die (s.clock + 63)
  have hd := accepted_die s b task ix dd
  have hq := isDue_placeBy (entered s b task ix dd) b.die (s.clock + 63)
  generalize (entered s b task ix dd).placeBy b.die (s.clock + 63) = u at h f hd hq
  refine ⟨_, h, ?_, ?_, ?_, tfind_tdel_same .., ?_, ?_, ?_, hq, sameMemory_of_memory (f.memory.trans (entered_memory ..))⟩
  · rw [vf_modVf_same]
  · rw [vf_modVf_same]
  · rw [vf_modVf_same]
    exact (congrArg Vf.lastAcc (vf_of_parts f.parts b.part)).trans (entered_lastAcc s b hh ix dd)
  · show tget {} (u.die b.die).tasks ix = task
    rw [hd, tget_tset_same]
  · show (u.die b.die).freed = dd.freed
    rw [hd]
  · show (u.die b.die).nextFresh = dd.nextFresh
    rw [hd]

theorem taskRecord_accepts_fibre {f : FibreRef} (hw : b.who = some f) : Claims.Completes (.taskRecord id) s fun t =>
    tfind t.subs id = some { b with answer := some (State.taskqWord b.die ix task.ord) } ∧
    taskAt t b.die ix = task ∧ t.isDue (.taskPlace b.die) = true ∧ Claims.SameMemory s t := by
  have h := exec_taskRecord_accepted hb ha he hc ht
  have f := placeBy_sendFrame (entered s b task ix dd) b.die (s.clock + 63)
  have hd := accepted_die s b task ix dd
  have hq := isDue_placeBy (entered s b task ix dd) b.die (s.clock + 63)
  generalize (entered s b task ix dd).placeBy b.die (s.clock + 63) = u at h f hd hq
  have k := answerRecord_fibre (s := u) hw id 0 (State.taskqWord b.die ix task.ord)
  refine ⟨_, h, ?_, ?_, isDue_mono k.agenda hq, sameMemory_of_memory (k.memory.trans (f.memory.trans (entered_memory ..)))⟩
  · rw [k.subs]
    exact tfind_tset_same ..
  · have kd : (u.answerRecord id b 0 (State.taskqWord b.die ix task.ord)).die b.die = u.die b.die := k.die b.die
    rw [taskAt, kd, hd, tget_tset_same]

end

end

end

end Sys2Proof.Machine

namespace Sys2Proof.Machine

section
variable {s t : State} (h : GatewayFrame s t)
include h

theorem GatewayFrame.clock : t.clock = s.clock := by unfold GatewayFrame at h; rw [h]
theorem GatewayFrame.fibres : t.fibres = s.fibres := by unfold GatewayFrame at h; rw [h]
theorem GatewayFrame.parts : t.parts = s.parts := by unfold GatewayFrame at h; rw [h]
theorem GatewayFrame.memory : t.memory = s.memory := by unfold GatewayFrame at h; rw [h]; rfl

end

/-! ## Placement and ageing (R101 to R104, R106) -/

section
variable {s : State} {die ix : Nat}

theorem taskPlace_places {task : Task} {o : Nat × Nat} {tiles : List Nat} (h : s.nextPlace die = some (ix, task, o, tiles)) :
    Claims.Completes (.taskPlace die) s fun t =>
      (taskAt t die ix).state = .running ∧ (taskAt t die ix).tiles = tiles ∧ (taskAt t die ix).origin = o ∧
      (∀ k ∈ State.coresOf tiles task.kinds, k ∈ (taskAt t die ix).going ∨ k ∈ (taskAt t die ix).pendCores) ∧
      (s.clock + 48, .taskDispatch die ix) ∈ t.agenda ∧ t.fibres = s.fibres ∧ Claims.SameMemory s t := by
  have e : exec (.taskPlace die) s = .next ((s.placeTask die ix task o tiles).placeBy die (s.clock + 1)) := by
    show execTaskPlace die s = _
    simp only [execTaskPlace, h]
  have f := placeBy_sendFrame (s.placeTask die ix task o tiles) die (s.clock + 1)
  have placed : taskAt ((s.placeTask die ix task o tiles).placeBy die (s.clock + 1)) die ix = { taskAt s die ix with
      state := .running, tiles, origin := o, going := (State.coresOf tiles task.kinds).filter s.coreFree
      pendCores := (State.coresOf tiles task.kinds).filter fun c => !s.coreFree c } :=
    (taskAt_of_die (f.die die) ix).trans (taskAt_modTask_same s die ix _)
  refine ⟨_, e, by rw [placed], by rw [placed], by rw [placed], ?_, f.agenda ?_, f.fibres, sameMemory_of_memory f.memory⟩
  · intro k hk
    rw [placed]
    cases hf : s.coreFree k <;> simp [hk, hf]
  · exact List.mem_append_right _ (List.mem_singleton_self _)

theorem taskPlace_none (h : s.nextPlace die = none) : exec (.taskPlace die) s = .next s := by
  show execTaskPlace die s = _
  simp only [execTaskPlace, h]

theorem priorityAging_ages (s : State) (die : Nat) : Claims.Completes (.priorityAging die) s fun t =>
    (t.die die).tasks = (s.die die).tasks.map (fun x => if x.2.state = .queued ∧ s.stopped x.2.part = false
      then (x.1, { x.2 with waited := x.2.waited + 1 }) else x) ∧
    t.isDue (.taskPlace die) = true ∧ t.fibres = s.fibres ∧ Claims.SameMemory s t := by
  have f := placeBy_sendFrame (s.modDie die fun d => { d with
    tasks := d.tasks.map fun t => if t.2.state = .queued ∧ !s.stopped t.2.part then (t.1, { t.2 with waited := t.2.waited + 1 }) else t })
    die s.clock
  refine ⟨_, rfl, ?_, isDue_placeBy .., f.fibres, sameMemory_of_memory f.memory⟩
  refine (congrArg Die.tasks (f.die die)).trans ?_
  rw [State.die_modDie_same]
  simp only [Bool.not_eq_true']

/-! ## Dispatch (R75, R106) -/

theorem taskDispatch_one {c : CoreId} {n : Nat} (hg : (taskAt s die ix).going = [c]) (hn : s.freeSlot c 0 224 = some n) :
    Claims.Completes (.taskDispatch die ix) s fun t =>
      let x := t.fib ⟨c, n⟩
      x.status = .ready ∧ x.pc = (taskAt s die ix).entry ∧ x.code = (taskAt s die ix).code ∧
      x.k = [(taskAt s die ix).arg, .null, .null, .null] ∧ x.pl = 0 ∧ x.inTask = true ∧ x.tdie = die ∧ x.taskix = ix ∧
      lget 0 x.g 1 = word (taskAt s die ix).n ∧ (taskAt t die ix).fibres = (taskAt s die ix).fibres + 1 ∧
      (taskAt t die ix).going = [] ∧ Claims.SameMemory s t := by
  let u := s.modTask die ix fun t => { t with going := [] }
  let x := u.taskFibre die ix (taskAt s die ix) c
  let t := (u.setFib ⟨c, n⟩ x).modTask die ix fun t => { t with fibres := t.fibres + 1 }
  have e : exec (.taskDispatch die ix) s = .next t := by
    have hn' : u.freeSlot c 0 224 = some n := hn
    show Host.Outcome.next ((taskAt s die ix).going.foldl (fun v c => v.dispatchCore die ix (taskAt s die ix) c) u) = _
    rw [hg, List.foldl_cons, List.foldl_nil, State.dispatchCore, hn']
  have hx : t.fib ⟨c, n⟩ = x := State.fib_setFib_same u ⟨c, n⟩ x
  have ht : taskAt t die ix = { taskAt s die ix with going := [], fibres := (taskAt s die ix).fibres + 1 } := by
    rw [taskAt_modTask_same]
    show (fun t : Task => { t with fibres := t.fibres + 1 }) (taskAt u die ix) = _
    rw [taskAt_modTask_same]
  refine ⟨t, e, ?_⟩
  dsimp only
  rw [hx, ht]
  exact ⟨rfl, rfl, rfl, rfl, rfl, rfl, rfl, rfl, rfl, rfl, rfl, sameMemory_of_memory rfl⟩

end

/-! ## Completion (R104, R110) -/

/-- What the passing on of cores may change, seen from one entry: the dies, what is due, to which it adds, and the cores that the entry
still waits for or whose dispatch is on its way. -/
def PassFrame (die ix : Nat) (s t : State) : Prop :=
  GatewayFrame s t ∧ s.agenda ⊆ t.agenda ∧ ∃ g p, taskAt t die ix = { taskAt s die ix with going := g, pendCores := p }

theorem PassFrame.trans {die ix : Nat} {s t u : State} (h : PassFrame die ix s t) (k : PassFrame die ix t u) : PassFrame die ix s u := by
  obtain ⟨hf, ha, g, p, ht⟩ := h
  obtain ⟨kf, ka, g', p', kt⟩ := k
  exact ⟨hf.trans kf, List.Subset.trans ha ka, g', p', by rw [kt, ht]⟩

theorem passCores_passFrame (s : State) (die ix : Nat) : PassFrame die ix s (s.passCores die) := by
  unfold State.passCores
  refine List.foldlRecOn (motive := PassFrame die ix s) _ _ ⟨rfl, List.Subset.refl _, _, _, rfl⟩ fun u hu x _ => hu.trans ?_
  dsimp only
  split
  · exact ⟨rfl, List.Subset.refl _, _, _, rfl⟩
  · refine ⟨rfl, List.subset_append_left .., ?_⟩
    show ∃ g p, taskAt (State.modTask u die x.1 _) die ix = _
    rw [taskAt_modTask]
    split
    · exact ⟨_, _, rfl⟩
    · exact ⟨_, _, rfl⟩

/-- A completed task holds nothing, waits for its post, and its partition looks for a post and its die for a place (R104, R110). -/
theorem completeTask_completes (s : State) (die ix status : Nat) :
    let t := s.completeTask die ix status
    (taskAt t die ix).state = .waitPost ∧ (taskAt t die ix).status = status ∧ (taskAt t die ix).endWheel = s.wheel ∧
    (t.vf (taskAt s die ix).part).held = (s.vf (taskAt s die ix).part).held ++ [(die, ix)] ∧
    t.isDue (.completionPost (taskAt s die ix).part) = true ∧ t.fibres = s.fibres ∧ t.memory = s.memory := by
  let p := (taskAt s die ix).part
  let u := (s.modTask die ix fun t => { t with state := .waitPost, status, endWheel := s.wheel, going := [], pendCores := [] }).modVf p
    fun v => { v with held := v.held ++ [(die, ix)] }
  let v := u.schedOnce s.clock (.completionPost p)
  have fv : SendFrame u v := schedOnce_sendFrame ..
  have hv : v.isDue (.completionPost p) = true := isDue_schedOnce ..
  obtain ⟨fp, ap, g, q, tp⟩ := passCores_passFrame v die ix
  have fe : SendFrame (v.passCores die) (((v.passCores die).atBoundary p die).placeBy die (v.clock + 1)) :=
    (atBoundary_sendFrame ..).trans (placeBy_sendFrame ..)
  have entry : taskAt (((v.passCores die).atBoundary p die).placeBy die (v.clock + 1)) die ix = { taskAt s die ix with
      state := .waitPost, status, endWheel := s.wheel, going := g, pendCores := q } := by
    rw [taskAt_of_die (fe.die die), tp, taskAt_of_die (fv.die die)]
    show ({ taskAt (s.modTask die ix _) die ix with going := g, pendCores := q } : Task) = _
    rw [taskAt_modTask_same]
  show (taskAt (((v.passCores die).atBoundary p die).placeBy die (v.clock + 1)) die ix).state = _ ∧ _
  have parts := fe.parts.trans (fp.parts.trans fv.parts)
  refine ⟨by rw [entry], ?_, ?_, ?_, isDue_mono (List.Subset.trans ap fe.agenda) hv, fe.fibres.trans (fp.fibres.trans fv.fibres),
    fe.memory.trans (fp.memory.trans fv.memory)⟩
  · exact congrArg Task.status entry
  · exact congrArg Task.endWheel entry
  · exact congrArg Vf.held ((vf_of_parts parts p).trans (vf_modVf_same ..))

section
variable {s : State} {die ix : Nat}

theorem taskCompletion_completes (hs : (taskAt s die ix).state = .running) (hf : (taskAt s die ix).fibres = 0)
    (hp : (taskAt s die ix).pendCores = []) (hg : (taskAt s die ix).going = []) : Claims.Completes (.taskCompletion die ix) s fun t =>
      (taskAt t die ix).state = .waitPost ∧ (taskAt t die ix).endWheel = s.wheel ∧
      (t.vf (taskAt s die ix).part).held = (s.vf (taskAt s die ix).part).held ++ [(die, ix)] ∧
      (taskAt t die ix).status = State.runStatus (taskAt s die ix) ∧
      t.isDue (.completionPost (taskAt s die ix).part) = true ∧ t.fibres = s.fibres ∧ Claims.SameMemory s t := by
  obtain ⟨state, status, ends, held, due, fibres, memory⟩ := completeTask_completes s die ix (State.runStatus (taskAt s die ix))
  refine ⟨_, ?_, state, ends, held, status, due, fibres, sameMemory_of_memory memory⟩
  show execTaskCompletion die ix s = _
  unfold taskAt at hs hf hp hg
  simp only [execTaskCompletion, hs, hf, hp, hg, List.isEmpty_nil, and_self, if_true]
  rfl

theorem taskCompletion_not_over (h : (taskAt s die ix).state ≠ .running ∨ (taskAt s die ix).fibres ≠ 0) :
    exec (.taskCompletion die ix) s = .next s := by
  show execTaskCompletion die ix s = _
  exact if_neg fun ⟨hs, hf, _⟩ => h.elim (· hs) (· hf)

end

/-! ## The statement -/

/-- Settles O42: the life of a record and of a task, event by event. -/
theorem taskEvents : Obligations.TaskEvents := by
  unfold Obligations.TaskEvents
  intro s id die ix e n b task dd o tiles c w d f t0 at'
  refine ⟨taskRecord_none, fun hb ha => ⟨fun he => taskRecord_waits hb ha he, fun he hc => ⟨?_, ?_⟩, fun he hc ht => ⟨?_, ?_⟩⟩,
    taskRecord_answers, taskPlace_places, taskPlace_none, priorityAging_ages s die, taskDispatch_one, taskCompletion_completes,
    taskCompletion_not_over⟩
  · exact taskRecord_refuses_host hb ha he hc
  · exact taskRecord_refuses_fibre hb ha he hc
  · exact taskRecord_accepts_host hb ha he hc ht
  · exact taskRecord_accepts_fibre hb ha he hc ht

end Sys2Proof.Machine

namespace Sys2Proof.Machine

/-! ## What a write leaves (R145, R221) -/

/-- The granules that a span touches are those that share a byte with it. -/
theorem mem_touched {g a n : Nat} (hg : g % 16 = 0) (hn : n ≠ 0) : g ∈ touched 16 a n ↔ a < g + 16 ∧ g < a + n := by
  simp only [touched, hn, if_false, List.mem_map, List.mem_range]
  constructor
  · rintro ⟨i, hi, rfl⟩
    omega
  · intro h
    exact ⟨g / 16 - a / 16, by omega, by omega⟩

theorem wrote_writeBytes {s : State} (pa : Nat) {bs : List Byte} (w : Memory.wf s.mem = true) (hb : bs ≠ []) :
    Claims.Wrote s (s.writeBytes pa bs) pa bs := by
  have hn : bs.length ≠ 0 := fun h => hb (List.length_eq_zero_iff.mp h)
  refine ⟨fun i hi => getByte_setBytes_in w hi, fun a ha => getByte_setBytes_out ha, fun g hg => ?_⟩
  simp only [State.writeBytes, List.mem_filter, Bool.not_eq_true', List.contains_eq_mem, decide_eq_false_iff_not, mem_touched hg hn]
  refine and_congr_right fun _ => ?_
  omega

/-- What a write leaves is seen in memory alone. -/
theorem wrote_of_memory {s t u v : State} {pa : Nat} {bs : List Byte} (h : Claims.Wrote u v pa bs) (hs : u.memory = s.memory)
    (ht : t.memory = v.memory) : Claims.Wrote s t pa bs := by
  obtain ⟨hsm, hsr⟩ := Prod.mk.inj hs
  obtain ⟨hst, -⟩ := Prod.mk.inj hsr
  obtain ⟨htm, htr⟩ := Prod.mk.inj ht
  obtain ⟨htt, -⟩ := Prod.mk.inj htr
  unfold Claims.Wrote Claims.byteAt at h ⊢
  rw [hsm, hst] at h
  rw [htm, htt]
  exact h

/-! ## The host's page of a completion entry (R115, R157) -/

theorem walkFrom_congr {s t : State} (hm : t.mem = s.mem) (hp : t.pkg = s.pkg) (gw q sp va die l table : Nat) :
    t.walkFrom gw q sp va die l table = s.walkFrom gw q sp va die l table := by
  have read (a n : Nat) : t.readNat a n = s.readNat a n := by rw [State.readNat, State.readBytes, hm]; rfl
  have held (a : Nat) : t.paHeld gw sp a = s.paHeld gw sp a := by rw [State.paHeld, State.farInstalled, hp]; rfl
  have leaf (l e : Nat) : t.leafXlat gw q sp va l e = s.leafXlat gw q sp va l e := by rw [State.leafXlat, held]; rfl
  induction l generalizing table with
  | zero =>
    unfold State.walkFrom
    dsimp only
    rw [read, leaf]
  | succ l ih =>
    unfold State.walkFrom
    dsimp only
    rw [read, leaf, ih]

theorem GatewayFrame.pkg {s t : State} (h : GatewayFrame s t) : t.pkg = s.pkg := by
  unfold GatewayFrame at h
  rw [h]

/-- A walk that is charged changes the spent units of a gateway and nothing else. -/
theorem chargeWalk_die (s : State) (gw q sp va d : Nat) : ∃ x, (s.chargeWalk gw q sp va).die d =
    { s.die d with gw := { (s.die d).gw with spent := x } } := by
  unfold State.chargeWalk
  dsimp only
  split
  · exact ⟨_, rfl⟩
  · split
    · exact ⟨_, rfl⟩
    · rw [State.modGw, State.modDie, State.die_setDie]
      split
      · subst d
        exact ⟨_, rfl⟩
      · exact ⟨_, rfl⟩

theorem chargeWalk_gatewayFrame (s : State) (gw q sp va : Nat) : GatewayFrame s (s.chargeWalk gw q sp va) := by
  unfold State.chargeWalk
  dsimp only
  split
  · rfl
  · split <;> rfl

/-- The physical address of a host page depends on memory, the package, and of the dies on more than what has been spent there. -/
theorem hostPa_congr {s t : State} (hm : t.mem = s.mem) (hp : t.pkg = s.pkg)
    (keeps : ∀ d, ∃ x, t.die d = { s.die d with gw := { (s.die d).gw with spent := x } }) (p a : Nat) : t.hostPa p a = s.hostPa p a := by
  obtain ⟨x, h6⟩ := keeps 6
  have opens (d : Nat) : t.dieOpen d = s.dieOpen d := by
    obtain ⟨y, hd⟩ := keeps d
    rw [State.dieOpen, hd]
    rfl
  have root : t.rootOf 6 p 6 = s.rootOf 6 p 6 := by simp only [State.rootOf, h6]
  have cached : t.cached 6 p 6 a = s.cached 6 p 6 a := by simp only [State.cached, h6]
  have walk : t.walk 6 p 6 a = s.walk 6 p 6 a := by
    rw [State.walk, root, State.tablesOpen, opens, State.walkUnder, walkFrom_congr hm hp]
    rfl
  rw [State.hostPa, cached, walk]
  rfl

theorem mem_of_memory {s t : State} (h : t.memory = s.memory) : t.mem = s.mem :=
  congrArg (fun x : List Host.Cell × List Nat × List Nat × List Nat => x.1) h

theorem hostPa_chargeWalk (s : State) (gw r sp va p a : Nat) : (s.chargeWalk gw r sp va).hostPa p a = s.hostPa p a :=
  have f := chargeWalk_gatewayFrame s gw r sp va
  hostPa_congr (mem_of_memory f.memory) f.pkg (chargeWalk_die s gw r sp va) p a

theorem hostPa_modVf (s : State) (q : Nat) (g : Vf → Vf) (p a : Nat) : (s.modVf q g).hostPa p a = s.hostPa p a :=
  hostPa_congr rfl rfl (fun _ => ⟨_, rfl⟩) p a

/-! ## Queries at their task unit (R109) -/

theorem tfind_map_of_key {α β : Type} [DecidableEq α] {h : α × β → α × β} (hk : ∀ x, (h x).1 = x.1) (l : List (α × β)) (a : α) :
    tfind (l.map h) a = (tfind l a).map fun v => (h (a, v)).2 := by
  induction l with
  | nil => rfl
  | cons x l ih =>
    obtain ⟨k, v⟩ := x
    have e : h (k, v) = (k, (h (k, v)).2) := Prod.ext (hk (k, v)) rfl
    rw [List.map_cons, e]
    by_cases hx : k = a
    · subst hx
      simp [tfind]
    · simp [tfind, hx, ih]

theorem tget_of_tfind {α β : Type} [DecidableEq α] (d : β) {l : List (α × β)} {a : α} {v : β} (h : tfind l a = some v) :
    tget d l a = v := by
  induction l with
  | nil => cases h
  | cons x l ih =>
    obtain ⟨k, w⟩ := x
    by_cases hx : k = a
    · simpa [tfind, tget, hx] using h
    · simp only [tfind, tget, hx, if_false] at h ⊢
      exact ih h

/-- A query that waits for an entry gets the entry's status, and any other query stays as it is. -/
def toldQuery (die ix status : Nat) (q : Nat × Query) : Nat × Query :=
  if q.2.here && q.2.die == die && q.2.ix == ix then (q.1, { q.2 with here := false, answer := some (word status) }) else q

theorem toldQuery_key (die ix status : Nat) (q : Nat × Query) : (toldQuery die ix status q).1 = q.1 := by
  unfold toldQuery
  split <;> rfl

theorem tellWaiters_sendFrame (s : State) (die ix status : Nat) :
    SendFrame { s with queries := s.queries.map (toldQuery die ix status) } (s.tellWaiters die ix status) :=
  SendFrame.foldl (fun _ _ => sendEv_sendFrame ..) _ _

end Sys2Proof.Machine

namespace Sys2Proof.Machine

/-! ## The post of a completion (R110, R115 to R117, R164) -/

theorem hostUnit_ready {s : State} {p n : Nat} (h : (s.vf p).postUnit = some (n, true)) :
    s.hostUnit p = (true, s.modVf p fun v => { v with postUnit := none }) := by
  simp only [State.hostUnit, h]

theorem hostUnit_waiting {s : State} {p n : Nat} (h : (s.vf p).postUnit = some (n, false)) : s.hostUnit p = (false, s) := by
  simp only [State.hostUnit, h]

theorem hostUnit_asks {s : State} {p : Nat} (h : (s.vf p).postUnit = none) : s.hostUnit p =
    (false, (({ s with nextId := s.nextId + 1 } : State).modVf p fun v => { v with postUnit := some (s.nextId, false) }).modGw 6
      fun g => { g with queue := g.queue ++ [(s.nextId, 8)] }) := by
  simp only [State.hostUnit, h]
  rfl

theorem latch_memory (s : State) (n : Nat) (h : FibreRef → Bool) : (s.latch n h).memory = s.memory := rfl
theorem modDie_memory (s : State) (n : Nat) (h : Die → Die) : (s.modDie n h).memory = s.memory := rfl
theorem modVf_memory (s : State) (n : Nat) (h : Vf → Vf) : (s.modVf n h).memory = s.memory := rfl

theorem now_memory (s : State) (e : Instr) : (s.now e).memory = s.memory := rfl

theorem msix_dies (s : State) (p n : Nat) : (s.msix p n).dies = s.dies := by
  obtain ⟨l, h⟩ := msix_frame s p n
  rw [h]

theorem msix_queries (s : State) (p n : Nat) : (s.msix p n).queries = s.queries := by
  obtain ⟨l, h⟩ := msix_frame s p n
  rw [h]

/-- The entry's last write and what belongs to it, before the queries that wait for the entry are answered (R110, R117). -/
def posted (s : State) (p pa die ix : Nat) (rest : List (Nat × Nat)) : State :=
  let u := (s.writeBytes pa (leBytes 4 (s.vf p).cseq)).modVf p fun v => { v with
    cqtail := (v.cqtail + 1) % max v.cqsize.toNat 1, cqseq := v.cseq, cseq := (v.cseq + 1) % 2 ^ 32, held := rest, posting := none
    postUnit := none }
  let v := (u.msix p 0).modDie die fun d => { d with
    tasks := tmod {} d.tasks ix fun t => { t with state := .done }, freed := d.freed ++ [ix] }
  v.latch State.evTask fun f => if isService f.core then true else f.core.die == die && v.partOf f.core == p

theorem postDone_eq (s : State) (p pa die ix : Nat) (rest : List (Nat × Nat)) : s.postDone p pa die ix rest =
    let u := (posted s p pa die ix rest).tellWaiters die ix (taskAt (posted s p pa die ix rest) die ix).status
    if rest.isEmpty then u else u.now (.completionPost p) := by
  unfold State.postDone posted
  rfl

section
variable (s : State) (p pa die ix : Nat) (rest : List (Nat × Nat))

theorem posted_memory : (posted s p pa die ix rest).memory = (s.writeBytes pa (leBytes 4 (s.vf p).cseq)).memory := by
  rw [posted, latch_memory, modDie_memory, (msix_quiet ..).1, modVf_memory]

theorem posted_queries : (posted s p pa die ix rest).queries = s.queries := by
  rw [posted, State.latch_queries, State.modDie_queries, msix_queries, State.modVf_queries, State.writeBytes_queries]

theorem posted_die : (posted s p pa die ix rest).die die = { s.die die with
    tasks := tmod {} (s.die die).tasks ix fun t => { t with state := .done }, freed := (s.die die).freed ++ [ix] } := by
  rw [posted, State.die_after_latch, State.die_modDie_same, State.die, msix_dies, State.modVf_dies, State.writeBytes_dies]
  rfl

theorem posted_vf : ∃ a b c, (posted s p pa die ix rest).vf p = { s.vf p with
    cqtail := ((s.vf p).cqtail + 1) % max (s.vf p).cqsize.toNat 1, cqseq := (s.vf p).cseq, cseq := ((s.vf p).cseq + 1) % 2 ^ 32
    held := rest, posting := none, postUnit := none, msiWheel := a, msiDefer := b, msiSent := c } := by
  unfold posted
  dsimp only
  generalize hu : (s.writeBytes pa (leBytes 4 (s.vf p).cseq)).modVf p _ = u
  obtain ⟨a, b, c, h⟩ := vf_msix u p 0
  refine ⟨a, b, c, ?_⟩
  rw [State.vf, State.part_after_latch, State.part_after_modDie, ← State.vf, h]
  subst hu
  rw [vf_modVf_same]
  rfl

end

theorem isDue_now (s : State) (e : Instr) : (s.now e).isDue e = true := isDue_of_mem (n := s.clock) (by simp)

theorem now_sendFrame (s : State) (e : Instr) : SendFrame s (s.now e) := ⟨_, rfl⟩

theorem SendFrame.sparesMemory {u t : State} {l : List (Nat × Query)} (f : SendFrame { u with queries := l } t) : t.memory = u.memory := f.memory

theorem SendFrame.sparesDies {u t : State} {l : List (Nat × Query)} (f : SendFrame { u with queries := l } t) : t.dies = u.dies := f.dies

theorem SendFrame.sparesParts {u t : State} {l : List (Nat × Query)} (f : SendFrame { u with queries := l } t) : t.parts = u.parts := f.parts

/-- What follows the last write: the answers to the queries are on their way, and the next post is due. -/
theorem postDone_sendFrame (s : State) (p pa die ix : Nat) (rest : List (Nat × Nat)) :
    SendFrame { posted s p pa die ix rest with queries := s.queries.map (toldQuery die ix (taskAt s die ix).status) }
      (s.postDone p pa die ix rest) := by
  have hs : (taskAt (posted s p pa die ix rest) die ix).status = (taskAt s die ix).status := by
    rw [taskAt, posted_die, tget_tmod_same]
    rfl
  have f := tellWaiters_sendFrame (posted s p pa die ix rest) die ix (taskAt s die ix).status
  rw [posted_queries] at f
  rw [postDone_eq, hs]
  dsimp only
  split
  · exact f
  · exact f.trans (now_sendFrame ..)

section
variable (s : State) (p pa die ix : Nat) (rest : List (Nat × Nat))

theorem postDone_memory : (s.postDone p pa die ix rest).memory = (s.writeBytes pa (leBytes 4 (s.vf p).cseq)).memory :=
  (postDone_sendFrame s p pa die ix rest).sparesMemory.trans (posted_memory s p pa die ix rest)

theorem postDone_queries : (s.postDone p pa die ix rest).queries = s.queries.map (toldQuery die ix (taskAt s die ix).status) :=
  (postDone_sendFrame s p pa die ix rest).queries

theorem postDone_die : (s.postDone p pa die ix rest).die die = { s.die die with
    tasks := tmod {} (s.die die).tasks ix fun t => { t with state := .done }, freed := (s.die die).freed ++ [ix] } := by
  have h : (s.postDone p pa die ix rest).dies = (posted s p pa die ix rest).dies :=
    (postDone_sendFrame s p pa die ix rest).sparesDies
  rw [State.die, h, ← State.die, posted_die]

theorem postDone_vf : ∃ a b c, (s.postDone p pa die ix rest).vf p = { s.vf p with
    cqtail := ((s.vf p).cqtail + 1) % max (s.vf p).cqsize.toNat 1, cqseq := (s.vf p).cseq, cseq := ((s.vf p).cseq + 1) % 2 ^ 32
    held := rest, posting := none, postUnit := none, msiWheel := a, msiDefer := b, msiSent := c } := by
  have h : (s.postDone p pa die ix rest).parts = (posted s p pa die ix rest).parts :=
    (postDone_sendFrame s p pa die ix rest).sparesParts
  obtain ⟨a, b, c, k⟩ := posted_vf s p pa die ix rest
  exact ⟨a, b, c, by rw [vf_of_parts h, k]⟩

end

/-- The first write of an entry has its unit of the host link, and the walk of its address has been charged (R164). -/
def unitTaken (s : State) (p : Nat) : State :=
  (s.modVf p fun v => { v with postUnit := none }).chargeWalk 6 p 6 ((s.vf p).cqbase.toNat + 32 * (s.vf p).cqtail)

theorem unitTaken_vf (s : State) (p : Nat) : (unitTaken s p).vf p = { s.vf p with postUnit := none } :=
  (vf_of_parts (chargeWalk_gatewayFrame ..).parts p).trans (vf_modVf_same ..)

theorem unitTaken_quiet (s : State) (p : Nat) : Quiet s (unitTaken s p) :=
  ⟨(chargeWalk_gatewayFrame ..).memory.trans (modVf_memory ..), (chargeWalk_gatewayFrame ..).fibres⟩

theorem unitTaken_hostPa (s : State) (p a : Nat) : (unitTaken s p).hostPa p a = s.hostPa p a :=
  (hostPa_chargeWalk ..).trans (hostPa_modVf ..)

theorem unitTaken_taskAt (s : State) (p die ix : Nat) : taskAt (unitTaken s p) die ix = taskAt s die ix := by
  obtain ⟨x, h⟩ := chargeWalk_die (s.modVf p fun v => { v with postUnit := none }) 6 p 6 ((s.vf p).cqbase.toNat + 32 * (s.vf p).cqtail) die
  rw [taskAt, unitTaken, h]
  rfl

section
variable {s : State} {p : Nat}

theorem completionPost_idle (h : (s.vf p).held = [] ∨ (s.vf p).cqen = false ∨ s.stopped p = true) :
    exec (.completionPost p) s = .next s := by
  show execCompletionPost p s = _
  unfold execCompletionPost
  dsimp only
  split
  · rfl
  · rename_i hl
    rw [hl] at h
    rw [if_pos]
    simpa using h

variable {die ix : Nat} {rest : List (Nat × Nat)} (hl : (s.vf p).held = (die, ix) :: rest) (he : (s.vf p).cqen = true)
  (hs : s.stopped p = false)
include hl he hs

theorem completionPost_full (hp : (s.vf p).posting = none) (hf : State.cqFull (s.vf p) = true) :
    exec (.completionPost p) s = .next s := by
  show execCompletionPost p s = _
  simp [execCompletionPost, hl, he, hs, hp, hf]

/-- Without its unit of the host link a write has not happened: the queue's state is as the request for the unit left it. -/
theorem exec_completionPost_unpaid (h : (s.vf p).posting.isSome = true ∨ State.cqFull (s.vf p) = false)
    (hu : (s.hostUnit p).1 = false) : exec (.completionPost p) s = .next (s.hostUnit p).2 := by
  show execCompletionPost p s = _
  cases hp : (s.vf p).posting with
  | some pa => simp [execCompletionPost, hl, he, hs, hp, hu]
  | none =>
    have hf : State.cqFull (s.vf p) = false := by simpa [hp] using h
    simp [execCompletionPost, hl, he, hs, hp, hf, hu]

theorem completionPost_asks (h : (s.vf p).posting.isSome = true ∨ State.cqFull (s.vf p) = false) (hu : (s.vf p).postUnit = none) :
    Claims.Completes (.completionPost p) s fun t =>
      t.vf p = { s.vf p with postUnit := some (s.nextId, false) } ∧ (t.die 6).gw.queue = (s.die 6).gw.queue ++ [(s.nextId, 8)] ∧
      t.fibres = s.fibres ∧ Claims.SameMemory s t := by
  have u := hostUnit_asks hu
  have e := exec_completionPost_unpaid hl he hs h (by rw [u])
  rw [u] at e
  refine ⟨_, e, (vf_of_parts (State.modGw_parts ..) p).trans (vf_modVf_same ..), ?_, rfl, sameMemory_of_memory rfl⟩
  exact congrArg (fun x : Die => x.gw.queue) (State.die_modDie_same ..)

theorem completionPost_waits {n : Nat} (h : (s.vf p).posting.isSome = true ∨ State.cqFull (s.vf p) = false)
    (hu : (s.vf p).postUnit = some (n, false)) : exec (.completionPost p) s = .next s := by
  have u := hostUnit_waiting hu
  have e := exec_completionPost_unpaid hl he hs h (by rw [u])
  rwa [u] at e

section
variable {n : Nat} (hu : (s.vf p).postUnit = some (n, true))
include hu

/-- The write that finishes an entry: the entry is free, and the queries that wait for it are answered (R110, R117, R479). -/
theorem completionPost_second {pa : Nat} (hp : (s.vf p).posting = some pa) (hm : Memory.wf s.mem = true) (id : Nat) (q : Query) :
    Claims.Completes (.completionPost p) s fun t =>
      Claims.Wrote s t pa (leBytes 4 (s.vf p).cseq) ∧ (t.vf p).posting = none ∧ (t.vf p).postUnit = none ∧
      (t.vf p).cqtail = ((s.vf p).cqtail + 1) % max (s.vf p).cqsize.toNat 1 ∧ (t.vf p).cqseq = (s.vf p).cseq ∧
      (t.vf p).cseq = ((s.vf p).cseq + 1) % 2 ^ 32 ∧ (t.vf p).held = rest ∧ (taskAt t die ix).state = .done ∧
      (t.die die).freed = (s.die die).freed ++ [ix] ∧
      (tfind s.queries id = some q → q.here = true → q.die = die → q.ix = ix →
        tfind t.queries id = some { q with here := false, answer := some (word (taskAt s die ix).status) }) := by
  have e : exec (.completionPost p) s = .next ((s.modVf p fun v => { v with postUnit := none }).postDone p pa die ix rest) := by
    show execCompletionPost p s = _
    simp [execCompletionPost, hl, he, hs, hp, hostUnit_ready hu]
  have hv : (s.modVf p fun v => { v with postUnit := none }).vf p = { s.vf p with postUnit := none } := vf_modVf_same ..
  have hd : (s.modVf p fun v => { v with postUnit := none }).die die = s.die die := rfl
  have hq : (s.modVf p fun v => { v with postUnit := none }).queries = s.queries := rfl
  have hw : Memory.wf (s.modVf p fun v => { v with postUnit := none }).mem = true := hm
  have hk := modVf_memory s p fun v => { v with postUnit := none }
  have ht := taskAt_of_die hd ix
  generalize (s.modVf p fun v => { v with postUnit := none }) = u at e hv hd hq hw hk ht
  obtain ⟨a, b, c, vf⟩ := postDone_vf u p pa die ix rest
  have entry := postDone_die u p pa die ix rest
  have wrote := wrote_writeBytes (s := u) pa (bs := leBytes 4 (s.vf p).cseq) hw (List.cons_ne_nil _ _)
  have memory := postDone_memory u p pa die ix rest
  have queries := postDone_queries u p pa die ix rest
  rw [hv] at vf memory
  rw [hd] at entry
  refine ⟨_, e, wrote_of_memory wrote hk memory, by rw [vf], by rw [vf], by rw [vf], by rw [vf], by rw [vf], by rw [vf], ?_, ?_, ?_⟩
  · rw [taskAt, entry, tget_tmod_same]
  · rw [entry]
  · intro hf hh h1 h2
    rw [hq, ht] at queries
    rw [queries, tfind_map_of_key (toldQuery_key die ix _), hf, Option.map_some, toldQuery]
    simp [hh, h1, h2]

variable (hp : (s.vf p).posting = none) (hf : State.cqFull (s.vf p) = false)
include hp hf

/-- A page that cannot be written disables the queue before any byte of the entry (R115). -/
theorem completionPost_no_page (h : s.hostPa p ((s.vf p).cqbase.toNat + 32 * (s.vf p).cqtail) = none) :
    Claims.Completes (.completionPost p) s fun t =>
      t.vf p = { s.vf p with cqen := false, cqcode := 5, postUnit := none } ∧ t.fibres = s.fibres ∧ Claims.SameMemory s t := by
  have take : (s.modVf p fun v => { v with postUnit := none }).chargeWalk 6 p 6 ((s.vf p).cqbase.toNat + 32 * (s.vf p).cqtail) =
      unitTaken s p := rfl
  have hh := (unitTaken_hostPa s p _).trans h
  have e : exec (.completionPost p) s = .next ((unitTaken s p).cqFail p) := by
    show execCompletionPost p s = _
    simp only [execCompletionPost, hl, he, hs, hp, hf, hostUnit_ready hu, take, hh, Bool.not_true, Bool.false_eq_true, or_self, if_false]
  have q := (unitTaken_quiet s p).modVf p fun v => { v with cqen := false, cqcode := 5, posting := none, postUnit := none }
  refine ⟨_, e, ?_, q.fibres, q.sameMemory⟩
  rw [State.cqFail, vf_modVf_same, unitTaken_vf]
  dsimp only
  rw [hp]

/-- The first write of an entry: all its bytes but the first four, at its place in the queue (R117). -/
theorem completionPost_first {pa : Nat} (h : s.hostPa p ((s.vf p).cqbase.toNat + 32 * (s.vf p).cqtail) = some pa) (hx : s.errors = [])
    (hm : Memory.wf s.mem = true) : Claims.Completes (.completionPost p) s fun t =>
      Claims.Wrote s t (pa + 4) ((State.completionEntry (s.vf p) die ix (taskAt s die ix)).drop 4) ∧
      t.vf p = { s.vf p with posting := some pa, postUnit := none } ∧ t.isDue (.completionPost p) = true ∧ t.fibres = s.fibres := by
  let bs := (State.completionEntry (s.vf p) die ix (taskAt s die ix)).drop 4
  have take : (s.modVf p fun v => { v with postUnit := none }).chargeWalk 6 p 6 ((s.vf p).cqbase.toNat + 32 * (s.vf p).cqtail) =
      unitTaken s p := rfl
  have hh := (unitTaken_hostPa s p _).trans h
  have q := unitTaken_quiet s p
  have ht : tget {} ((unitTaken s p).die die).tasks ix = taskAt s die ix := unitTaken_taskAt s p die ix
  have sound : (unitTaken s p).writeMeetsError pa 32 = false := by
    have hx' : (unitTaken s p).errors = [] := q.sameMemory.2.2.2.trans hx
    simp [State.writeMeetsError, hx']
  have e : exec (.completionPost p) s = .next
      ((((unitTaken s p).writeBytes (pa + 4) bs).modVf p fun v => { v with posting := some pa }).now (.completionPost p)) := by
    show execCompletionPost p s = _
    simp only [execCompletionPost, hl, he, hs, hp, hf, hostUnit_ready hu, take, hh, sound, ht, Bool.not_true, Bool.false_eq_true, or_self,
      if_false]
    rfl
  have hb : bs ≠ [] := by simp [bs, State.completionEntry, leBytes]
  have wf : Memory.wf (unitTaken s p).mem = true := by rw [mem_of_memory q.1]; exact hm
  refine ⟨_, e, wrote_of_memory (wrote_writeBytes (pa + 4) wf hb) q.1 ?_, ?_, isDue_now .., ?_⟩
  · rw [now_memory, modVf_memory]
  · rw [vf_of_parts (State.now_parts ..), vf_modVf_same, vf_of_parts (State.writeBytes_parts ..), unitTaken_vf]
  · rw [State.now_fibres, State.modVf_fibres, State.writeBytes_fibres, q.fibres]

end

end

end Sys2Proof.Machine

namespace Sys2Proof.Machine

/-! ## Deferred messages (R117) -/

section
variable {s : State} {p vec : Nat}

theorem msixDeferred_not_due (h : (s.vf p).msiDefer.contains vec = false ∨ tget 0 (s.vf p).msiWheel vec = s.wheel + 1) :
    exec (.msixDeferred p vec) s = .next s := by
  show Host.Outcome.next (s.msixDue p vec) = _
  refine congrArg _ (if_neg ?_)
  rintro ⟨hc, hw⟩
  exact h.elim (fun h => Bool.false_ne_true (h.symm.trans hc)) hw

theorem msixDeferred_sends (hc : (s.vf p).msiDefer.contains vec = true) (hw : tget 0 (s.vf p).msiWheel vec ≠ s.wheel + 1) :
    Claims.Completes (.msixDeferred p vec) s fun t =>
      tget 0 (t.vf p).msiWheel vec = s.wheel + 1 ∧ tget 0 (t.vf p).msiSent vec = tget 0 (s.vf p).msiSent vec + 1 ∧
      (t.vf p).msiDefer.contains vec = false ∧ t.fibres = s.fibres ∧ Claims.SameMemory s t := by
  let u := s.modVf p fun x => { x with msiDefer := setOut x.msiDefer vec }
  have e : exec (.msixDeferred p vec) s = .next (u.msixSend p vec) := by
    show Host.Outcome.next (s.msixDue p vec) = _
    exact congrArg _ (if_pos ⟨hc, hw⟩)
  have hv : (u.msixSend p vec).vf p = { s.vf p with
      msiDefer := setOut (s.vf p).msiDefer vec, msiWheel := tset (s.vf p).msiWheel vec (s.wheel + 1)
      msiSent := tmod 0 (s.vf p).msiSent vec (· + 1) } := by
    rw [State.msixSend, vf_modVf_same, vf_modVf_same]
    rfl
  have q : Quiet s (u.msixSend p vec) := ((Quiet.refl s).modVf ..).modVf ..
  refine ⟨_, e, ?_, ?_, ?_, q.fibres, q.sameMemory⟩
  · rw [hv, tget_tset_same]
  · rw [hv, tget_tmod_same]
  · rw [hv]
    simp [setOut]

end

/-! ## Queries (R109) -/

/-- The answer to a query is on its way: its status or its reason, the dies and memory as they were. -/
def QueryTold (s : State) (id : Nat) (q : Query) (n : Nat) : Prop :=
  Claims.Completes (.twaitQuery id) s fun t =>
    tfind t.queries id = some { q with here := false, answer := some (word n) } ∧ t.dies = s.dies ∧ Claims.SameMemory s t

section
variable {s : State} {id : Nat} {q : Query}

theorem twaitQuery_none (h : tfind s.queries id = none) : exec (.twaitQuery id) s = .next s := by
  show execTwaitQuery id s = _
  simp only [execTwaitQuery, h]

/-- The answer of a query reaches its fibre, which goes on behind its TWAIT (R70, R109). -/
theorem twaitQuery_answers {w : Word} {d : BitVec 3} (hq : tfind s.queries id = some q) (hw : q.answer = some w)
    (hc : (s.fib q.who).cont = .task d id) : Claims.Completes (.twaitQuery id) s fun t =>
      (t.fib q.who).g = lset (s.fib q.who).g d.toNat w ∧ (t.fib q.who).status = .ready ∧ (t.fib q.who).pc = (s.fib q.who).pc + 4 ∧
      tfind t.queries id = none ∧ Claims.SameMemory s t := by
  let u : State := { s with queries := tdel s.queries id }
  have e : exec (.twaitQuery id) s = .next ((u.setGOf q.who d w).complete q.who) := by
    show execTwaitQuery id s = _
    have hc' : (State.fib { s with queries := tdel s.queries id } q.who).cont = .task d id := hc
    simp only [execTwaitQuery, hq, hw, hc', if_true]
    rfl
  have hg : (u.setGOf q.who d w).fib q.who = { s.fib q.who with g := lset (s.fib q.who).g d.toNat w } := State.fib_modFib_same ..
  have hs : ((u.setGOf q.who d w).complete q.who).queries = tdel s.queries id := by
    rw [State.complete_queries, State.setGOf_queries]
  have hm : ((u.setGOf q.who d w).complete q.who).memory = s.memory := by simp [State.memory, u]
  refine ⟨_, e, ?_, ?_, ?_, ?_, sameMemory_of_memory hm⟩
  · rw [fib_complete, hg]
  · rw [fib_complete, hg]
  · rw [fib_complete, hg]
  · rw [hs, tfind_tdel_same]

/-- The answer n to a query leaves its task unit. -/
def queryReply (s : State) (id : Nat) (q : Query) (n : Nat) : State :=
  ({ s with queries := tset s.queries id { q with here := false, answer := some (word n) } } : State).sendEv (blockNode q.die)
    (coreNode q.who.core) true q.part (.twaitQuery id)

theorem queryTold_of_exec {n : Nat} (h : exec (.twaitQuery id) s = .next (queryReply s id q n)) : QueryTold s id q n := by
  have f : SendFrame { s with queries := tset s.queries id { q with here := false, answer := some (word n) } } (queryReply s id q n) :=
    sendEv_sendFrame ..
  refine ⟨_, h, ?_, f.dies, sameMemory_of_memory f.memory⟩
  rw [f.queries, tfind_tset_same]

/-- The task of an entry is over, as a query sees it (R109). -/
def overFor (s : State) (q : Query) (task : Task) : Prop :=
  task.state = .done ∨ (task.state = .waitPost ∧ (q.poll = true ∨ s.dieOpen q.die = true))

theorem not_overFor {task : Task} (h : task.state = .queued ∨ task.state = .running ∨
    (task.state = .waitPost ∧ q.poll = false ∧ s.dieOpen q.die = false)) : ¬ overFor s q task := by
  rcases h with h | h | ⟨h, hp, hd⟩ <;> simp [overFor, *]

variable (hq : tfind s.queries id = some q) (ha : q.answer = none)
include hq ha

theorem twaitQuery_no_entry (h : tfind (s.die q.die).tasks q.ix = none) : QueryTold s id q (2 ^ 16) :=
  queryTold_of_exec (by
    show execTwaitQuery id s = _
    simp only [execTwaitQuery, hq, ha, h]
    rfl)

variable {task : Task} (h : tfind (s.die q.die).tasks q.ix = some task)
include h

theorem twaitQuery_gone (hg : task.ord ≠ q.ord ∨ (task.part ≠ q.part ∧ q.part < 48)) : QueryTold s id q (2 ^ 16) :=
  queryTold_of_exec (by
    show execTwaitQuery id s = _
    simp only [execTwaitQuery, hq, ha, h, hg, if_true]
    rfl)

variable (hg : ¬ (task.ord ≠ q.ord ∨ (task.part ≠ q.part ∧ q.part < 48)))
include hg

theorem twaitQuery_over (hs : overFor s q task) : QueryTold s id q task.status :=
  queryTold_of_exec (by
    show execTwaitQuery id s = _
    unfold overFor at hs
    simp only [execTwaitQuery, hq, ha, h, hg, hs, if_true, if_false]
    rfl)

theorem twaitQuery_pending (hs : ¬ overFor s q task) (hp : q.poll = true) : QueryTold s id q (2 * 2 ^ 16) :=
  queryTold_of_exec (by
    show execTwaitQuery id s = _
    unfold overFor at hs
    simp only [execTwaitQuery, hq, ha, h, hg, hs, if_false]
    exact if_pos hp)

theorem twaitQuery_stays (hs : ¬ overFor s q task) (hp : q.poll = false) : Claims.Completes (.twaitQuery id) s fun t =>
    tfind t.queries id = some { q with here := true } ∧ t.fibres = s.fibres ∧ Claims.SameMemory s t := by
  refine ⟨{ s with queries := tset s.queries id { q with here := true } }, ?_, tfind_tset_same .., rfl, sameMemory_of_memory rfl⟩
  show execTwaitQuery id s = _
  unfold overFor at hs
  simp only [execTwaitQuery, hq, ha, h, hg, hs, if_false]
  exact if_neg (Bool.eq_false_iff.mp hp)

end

/-! ## Kills (R127) -/

theorem leaveWaits_dies (s : State) (f : FibreRef) : (s.leaveWaits f).dies = s.dies := by
  unfold State.leaveWaits
  dsimp only
  split <;> rfl

theorem wakePending_dies (s : State) (f : FibreRef) : (s.wakePending f).dies = s.dies := by
  unfold State.wakePending
  dsimp only
  split
  · exact leaveWaits_dies s f
  · rfl

theorem postStop_dies (s : State) (f : FibreRef) : (s.postStop f).dies = s.dies := by
  unfold State.postStop
  split
  · rfl
  · exact wakePending_dies _ f

theorem postStop_memory (s : State) (f : FibreRef) : (s.postStop f).memory = s.memory := by
  unfold State.postStop
  split
  · rfl
  · exact wakePending_memory _ f

theorem foldl_postStop_dies (l : List (FibreRef × Fibre)) (s : State) : (l.foldl (fun s f => s.postStop f.1) s).dies = s.dies :=
  List.foldlRecOn (motive := fun t : State => t.dies = s.dies) _ _ rfl fun _ ht _ _ => (postStop_dies ..).trans ht

theorem foldl_postStop_memory (l : List (FibreRef × Fibre)) (s : State) :
    (l.foldl (fun s f => s.postStop f.1) s).memory = s.memory := foldl_memory _ _ _ fun _ _ => postStop_memory ..

section
variable {s : State} {die p : Nat} {w : Word}

theorem tkill_nothing (h : tfind (s.die die).tasks (field w 43 32) = none ∨ field w 63 44 ≠ 0 ∨ (s.part p).active = false) :
    exec (.tkill die p w) s = .next s := by
  show execTkill die p w s = _
  unfold execTkill
  dsimp only
  split
  · rfl
  · rename_i t ht
    rcases h with h | h | h
    · rw [ht] at h
      cases h
    · exact if_pos (.inl h)
    · exact if_pos (.inr (.inl (by rw [h]; rfl)))

variable {task : Task} (ht : tfind (s.die die).tasks (field w 43 32) = some task) (h0 : field w 63 44 = 0)
  (ha : (s.part p).active = true) (hp : task.part = p) (ho : task.ord = field w 31 0)
include ht h0 ha hp ho

theorem tkill_queued (hs : task.state = .queued) : Claims.Completes (.tkill die p w) s fun t =>
    (taskAt t die (field w 43 32)).state = .waitPost ∧ (taskAt t die (field w 43 32)).status = 4 ∧ Claims.SameMemory s t := by
  obtain ⟨state, status, -, -, -, -, memory⟩ := completeTask_completes s die (field w 43 32) 4
  refine ⟨_, ?_, state, status, sameMemory_of_memory memory⟩
  show execTkill die p w s = _
  simp [execTkill, ht, h0, ha, hp, ho, hs]

theorem tkill_running (hs : task.state = .running) : Claims.Completes (.tkill die p w) s fun t =>
    (taskAt t die (field w 43 32)).killed = true ∧ (taskAt t die (field w 43 32)).going = [] ∧
    (taskAt t die (field w 43 32)).pendCores = [] ∧ Claims.SameMemory s t := by
  let u := s.modTask die (field w 43 32) fun t => { t with killed := true, pendCores := [], going := [] }
  let v := (u.fibres.filter fun f => f.2.inTask && f.2.tdie == die && f.2.taskix == field w 43 32 && f.2.status != .free).foldl
    (fun s f => s.postStop f.1) u
  let t := if (taskAt v die (field w 43 32)).fibres = 0 then v.schedOnce v.clock (.taskCompletion die (field w 43 32)) else v
  have e : exec (.tkill die p w) s = .next t := by
    have taken : ¬ (field w 63 44 ≠ 0 ∨ !(s.part p).active ∨ task.part ≠ p ∨ task.ord ≠ field w 31 0) := by simp [h0, ha, hp, ho]
    have placed : task.state ≠ .queued := by simp [hs]
    show execTkill die p w s = _
    unfold execTkill
    dsimp only
    rw [ht]
    dsimp only
    rw [if_neg taken, if_neg placed, if_pos hs]
    rfl
  have f : SendFrame v t := by
    dsimp only [t]
    split
    · exact schedOnce_sendFrame ..
    · exact .refl v
  have entry : taskAt t die (field w 43 32) = { taskAt s die (field w 43 32) with killed := true, pendCores := [], going := [] } := by
    have hd : t.die die = u.die die := by rw [f.die, State.die, foldl_postStop_dies, State.die]
    rw [taskAt_of_die hd, taskAt_modTask_same]
  refine ⟨t, e, by rw [entry], by rw [entry], by rw [entry], sameMemory_of_memory (f.memory.trans (foldl_postStop_memory ..))⟩

end

/-! ## The statement -/

/-- Settles O43: the posts by their two writes, the deferred messages, the queries by what they find, the kills. -/
theorem completionEvents : Obligations.CompletionEvents := by
  unfold Obligations.CompletionEvents
  intro s id die ix p pa vec n task w d q rest t0 v at' told
  refine ⟨completionPost_idle, fun hl he hs => ⟨completionPost_full hl he hs, fun h => ⟨completionPost_asks hl he hs h,
      completionPost_waits hl he hs h⟩, completionPost_no_page hl he hs,
      fun hu hp hf => completionPost_first hl he hs hu hp hf,
      fun hu hp hm => completionPost_second hl he hs hu hp hm id q⟩,
    msixDeferred_not_due, msixDeferred_sends, twaitQuery_none, fun hq ha => ⟨twaitQuery_no_entry hq ha, fun h =>
      ⟨twaitQuery_gone hq ha h, fun ho hp => ?_⟩⟩, twaitQuery_answers, fun ht h0 ha hp ho => ⟨tkill_queued ht h0 ha hp ho,
      tkill_running ht h0 ha hp ho⟩, tkill_nothing⟩
  have hg : ¬ (task.ord ≠ q.ord ∨ (task.part ≠ q.part ∧ q.part < 48)) := by omega
  refine ⟨twaitQuery_over hq ha h hg, fun hs => twaitQuery_pending hq ha h hg (not_overFor ?_), fun hp hs =>
    twaitQuery_stays hq ha h hg (not_overFor ?_) hp⟩
  · exact hs.imp_right .inl
  · exact hs.imp_right fun h => h.imp_right fun ⟨h, hd⟩ => ⟨h, hp, hd⟩

end Sys2Proof.Machine
